-- ==== Sys2Proof/Word.lean ====
section
/-!
DEFINITION. The word types of the PX8 block and the sparse table that State uses for everything that comes in numbered
instances (registers, memory bytes, mailboxes, queues, sessions, cores, ports).
-/

namespace Sys2Proof

/-- One byte, the smallest addressable unit of every memory of the package (R6). -/
abbrev Byte := BitVec 8
/-- A 16-bit field: SEQ, TAG, STATUS, DETAIL (R45). -/
abbrev Half := BitVec 16
/-- A 32-bit register (R36). -/
abbrev Word := BitVec 32
/-- A 64-bit value: settings, serial numbers, counters read as two halves. -/
abbrev DWord := BitVec 64

/-- A sparse table: (key, entry) pairs with strictly rising keys. A key that is not listed holds the table's default. -/
abbrev Tab (α : Type) := List (Nat × α)

end Sys2Proof
end

