-- ==== Sys2Proof/Syntax.lean ====
section
/-!
DEFINITION. The commands of the PX8 block: one constructor of `Instr` per row of the spec's table of operations and
events, with the operands that the row's rule names. What the environment decides (which message arrived, which choice
PCF takes where the spec leaves it open, what a sensor read) is an operand of the command.
-/

namespace Sys2Proof

/-- A mailbox or function number, 0 to 63: 0 is the PF, the others are VFs. -/
abbrev FnNo := Fin 64
/-- A C-die or stack number. -/
abbrev DieNo := Fin 8
/-- Where settings are held: a C-die, or 8 for the hub (R80). -/
abbrev HolderNo := Fin 9

/-- The capabilities of R30 that have options or limits to read, in the order of its table; `absent` names any other capability. -/
inductive CfgCap where
  | pciExpress | flitMode | physicalLayer | dataLinkFeature | powerManagement | aspm | msix | aer | serialNumber | ari | sriov
  | resizableBar | ats | pri | pasid | absent
  deriving DecidableEq, Repr

/-- The configuration requests that change or read state of the device (R29 to R34). -/
inductive CfgOp where
  /-- read of the identity fields of R29 -/
  | readIdentity
  /-- read of a capability's options, limits and controls (R30) -/
  | readCap (c : CfgCap)
  /-- read and write of base address register BAR0 to BAR5 (R34) -/
  | readBar (k : Fin 6)
  | writeBar (k : Fin 6) (w : Word)
  /-- read and write of VF BAR0 to VF BAR5 of the PF's SR-IOV capability (R34) -/
  | readVfBar (k : Fin 6)
  | writeVfBar (k : Fin 6) (w : Word)
  /-- Max Payload Size and Max Read Request Size: 128 bytes shifted left by the code -/
  | setPayload (mps : Fin 3)
  | setReadRequest (mrrs : Fin 6)
  /-- Extended Tag and 10-bit tag enables -/
  | setTags (extended tenBit : Bool)
  /-- ASPM L1 enable -/
  | setAspm (l1 : Bool)
  /-- System Page Size of the SR-IOV capability: 4 KiB shifted left by the code (PF) -/
  | setPageSize (code : Fin 5)
  | setMemSpace (on : Bool)
  | setMsix (enable mask : Bool)
  | setAts (on : Bool)
  | setPri (on : Bool)
  | setPasid (on : Bool)
  | setPower (d3hot : Bool)
  /-- Resizable BAR size of BAR2: 64 GiB shifted left by the code -/
  | setBar2Size (code : Fin 4)
  /-- AER mask and severity bits of the internal errors (PF) -/
  | setAer (corMask uncMask uncFatal : Bool)
  /-- W1C of the AER status bits of the internal errors (PF) -/
  | clearAer (cor unc : Bool)
  deriving DecidableEq, Repr

/-- Who issued a request to PCF: a mailbox, or the Cleat port as third issuer (R511). -/
inductive Issuer where
  | mbx (n : FnNo)
  | cleat
  deriving DecidableEq, Repr

/-- A package queue number (R71). -/
abbrev QueueNo := Fin 1024
/-- A core number (R14). -/
abbrev CoreNo := Fin 4096

/-- The 16-byte tag of an append write (R129). -/
structure AppendTag where
  session : Nat
  gen : Half
  position : Nat
  layer : Nat
  head : Nat
  kv : Nat
  srcFormat : Nat
  dimFirst : Nat
  count : Nat
  deriving DecidableEq, Repr

/-- A partial record of a merge write (R136). -/
structure MergeRec where
  slot : Nat
  source : Nat
  vector : Nat
  m : Word
  l : Word
  o : List Word
  deriving DecidableEq, Repr

/-- Floating-point formats (R205, R206). -/
inductive FpFmt where
  | fp32 | fp16 | bf16 | e4m3 | e5m2 | e2m1
  deriving DecidableEq, Repr

/-- The rounding field RM (R207). -/
inductive Rm where
  | rne | rz | ru | rd
  deriving DecidableEq, Repr

/-- Comparison predicates (R212). -/
inductive FpCmp where
  | eq | ne | lt | le | gt | ge
  deriving DecidableEq, Repr

/-- Integer types of R214: width in bits, and whether signed. -/
inductive IntTy where
  | i8 | u8 | i16 | u16 | i32 | u32 | i64 | u64
  deriving DecidableEq, Repr

/-- Memory scopes (R241). -/
inductive Scope where
  | g | b | d | s
  deriving DecidableEq, Repr

/-- Order of an atomic (R247). -/
inductive AtomOrd where
  | rlx | acq | rel | ar
  deriving DecidableEq, Repr

/-- Atomic operations (R278). Sizes are the instruction's. -/
inductive AtomOp where
  | add | and | or | xor | smin | smax | umin | umax | exch | cas | fadd | faddBf16 | faddFp16 | fmin | fmax
  deriving DecidableEq, Repr

/-- Element formats of a reduction (R279). -/
inductive RedFmt where
  | int32 | int64 | fp32 | bf16 | fp16
  deriving DecidableEq, Repr

/-- One issue of an instruction to a set (R186, R187): the core, the group's slot, a thread of the set, the address
of the next instruction, the threads of the set that go elsewhere, and the sets of the core that are not ready in this cycle, each by
its context and lowest thread. The spec gives no encodings, so a command says where control goes and what the other sets, whose
instructions are not seen, wait for. -/
structure Issue where
  core : CoreNo
  slot : Fin 32
  lead : Fin 64
  next : Nat
  branch : List (Nat × Nat) := []
  stalled : List (Nat × Nat) := []
  deriving DecidableEq, Repr

/-- Special registers of a thread (R185, R222). -/
inductive SpecialReg where
  | lane | group | block | nblocks | core | param | cycles | flags
  deriving DecidableEq, Repr

/-- A read of a register of BAR0: its address, and the bytes that it enables (R36). -/
structure RegRead where
  addr : Nat
  be : BitVec 4
  deriving DecidableEq, Repr

/-- An operation under way in the matrix unit of a core, by its place there. -/
structure MtxPlace where
  core : CoreNo
  k : Fin 4
  deriving DecidableEq, Repr

/-- What the training of a stack repaired, lanes and rows of listed pages, and the activation threshold of its refresh management (R298, R303). -/
structure StackRepair where
  lanes : Nat
  rows : Nat
  threshold : Nat
  deriving DecidableEq, Repr

/-- A burst as a Hawser receiver takes it (R378): the 32 decisions of each lane against the delimiter, and each lane's gain. -/
structure BurstSeen where
  seen : List Word
  gains : List Nat
  deriving DecidableEq, Repr

/-- A training of a Hawser port (R365, R384): rate, true for 212.5 Gb/s, and lanes 0 to 1, 2 to 3 or all, or none where every configuration
failed; and the scrambler seeds that the peer sends with. -/
structure HwsTrained where
  result : Option (Bool × Fin 3)
  seeds : List (BitVec 31)
  deriving DecidableEq, Repr

/-- How a sector read from a stack came out (R299, R300). -/
inductive EccOutcome where
  | clean | corrected | uncorrectable
  deriving DecidableEq, Repr

/-- How the read of one sector of a request came out. -/
structure SectorRead where
  outcome : EccOutcome
  sector : Fin 4
  deriving DecidableEq, Repr

/-- What a request at a stack controller is for (R289, R292). -/
inductive StackUse where
  /-- sector reads for a gather, a table walk, and a Session Engine's table or row map -/
  | gather | walk | tableRead
  /-- a write of the session table, a row map or a pool word -/
  | tableWrite
  /-- the firmware's other reads and writes -/
  | firmwareRead | firmwareWrite
  | lineFill
  /-- a write-back of a line's dirty sectors -/
  | writeBack (dirty : BitVec 4)
  | engineRead | bar2Read | bypassWrite | zeroFill
  deriving DecidableEq, Repr

/-- A request that reaches a stack controller (R292): what for, the byte address, and the bytes of a write; a write-back has its line's 128. -/
structure StackAsk where
  use : StackUse
  addr : Nat
  data : List Byte := []
  deriving DecidableEq, Repr

/-- Whose read of host memory a completion answers (R322, R326): a command, with the byte offset of the field it read through and the
first VA not read, or an access of a thread by the core's sequence number. -/
inductive HostReader where
  | cmd (q : QueueNo) (index off va : Nat)
  | thread (core : CoreNo) (seq : Nat)
  /-- a poll of a thread's LDWAIT -/
  | wait (core : CoreNo) (slot : Fin 32) (t : Fin 64)
  deriving DecidableEq, Repr

/-- A Lenot port: a node, C-dies 0 to 7 or the hub 8, and its port number (R335). -/
structure PortNo where
  node : Fin 9
  port : Fin 4
  deriving DecidableEq, Repr

/-- A Lenot message (R340): CLASS code, SUB, source, destination, TYPE, TXN, ADDR, ARG, and the bytes of its slots after the header. -/
structure LntMsg where
  cls : Fin 6
  sub : Bool := false
  src : Fin 16
  dst : Fin 16
  type : BitVec 8
  txn : Word
  addr : BitVec 48
  arg : Half
  body : List Byte
  deriving DecidableEq, Repr

/-- A Hawser port number (R361). -/
abbrev HwNo := Fin 8

/-- The four levels of a PAM4 symbol: −3, −1, +1, +3 (R365). -/
inductive Pam4 where
  | m3 | m1 | p1 | p3
  deriving DecidableEq, Repr

/-- A frame as a receiver has it from the line (R365, R366): by lane in service, the hard decisions of its symbols in order; and the
codeword bits that the decoder changes, which count only where the hard decisions have a syndrome that is not zero. -/
structure HwsLine where
  lanes : List (List Pam4)
  fixes : List (Fin 12288) := []
  deriving DecidableEq, Repr

/-- What a link test counted on one lane of one receiving end (R534): whether it locked, bit errors, bits checked. A lane of a Lenot
bundle is numbered 18·bundle + lane; a lane that is not listed locked and had no error. -/
structure LaneCount where
  lane : Nat
  locked : Bool
  errors : Nat
  bits : Nat
  deriving DecidableEq, Repr


/-- The commands of the block, in the order of the spec's table. -/
inductive Instr where
  /-- CONFIG_REQUEST (R31). A PCIe configuration request arrives; it completes with Request Retry Status until the hub is ready, and normally afterwards. -/
  | configRequest (fn : FnNo) (op : CfgOp)
  /-- HOT_RESET (R32). A Hot Reset resets PF and VF configuration state, clears VF Enable, resets the MBX0 and HUB registers it names, and abandons any outstanding MBX0 request. -/
  | hotReset
  /-- LINK_DOWN_RESET (R32). A link-down reset has the same function-level effects as a Hot Reset. -/
  | linkDownReset
  /-- PF_FUNCTION_LEVEL_RESET (R32). A PF Function Level Reset has the same function-level effects as a Hot Reset. -/
  | pfFunctionLevelReset
  /-- VF_FUNCTION_LEVEL_RESET (R432). A VF Function Level Reset resets that tenant in place: it stops its queues, ends its sessions and zero-fills its ranges. -/
  | vfFunctionLevelReset (fn : FnNo)
  /-- FLR_LAUNCH_TIMEOUT (R432). A launch of a VF being reset is still running after TNT_FREEZE_MAX_MS and is stopped. -/
  | flrLaunchTimeout (fn : FnNo)
  /-- VF_RESET_COMPLETE (R432). The tenant reset ends: the tenant state is restored and FW_READY returns to 1. -/
  | vfResetComplete (fn : FnNo)
  /-- VF_ENABLE_SET (R423). VF Enable is set, which creates unconfigured VFs with FW_READY set as the start state allows. -/
  | vfEnableSet (numVFs : FnNo)
  /-- VF_ENABLE_CLEAR (R424). VF Enable is cleared; every VF is reset, its ranges and tags are released, and it becomes unconfigured. -/
  | vfEnableClear
  /-- BAR2_READ (R40). A host BAR2 read is performed at the home slice of its address, or is handled as a firmware-reserve, unpopulated or poisoned read. -/
  | bar2Read (offset bytes : Nat)
  /-- BAR2_WRITE (R40). A host BAR2 write is performed at its home slice, or is discarded in a firmware reserve. -/
  | bar2Write (offset : Nat) (data : List Byte)
  /-- BAR2_ATOMICOP (R40). A host AtomicOp on BAR2 completes with Unsupported Request and sets HUB_ERR.BAR2_ATOMIC. -/
  | bar2Atomicop (offset : Nat)
  /-- HUB_BAR2_APERTURE_WRITE (R39). A write of HUB_BAR2_APERTURE moves the BAR2 base for requests received after it. -/
  | hubBar2ApertureWrite (data : Word) (be : BitVec 4)
  /-- BLOCK_WINDOW_WRITE (R37). A host write to a block register window takes effect if the block is open for test, and is refused with HUB_ERR.BLK_WR otherwise. -/
  | blockWindowWrite (addr : Nat) (data : Word) (be : BitVec 4)
  /-- QDB_TAIL_WRITE (R146). A doorbell write carries a new TAIL, which is accepted, ignored or flagged as out of range. -/
  | qdbTailWrite (fn : FnNo) (slot : Nat) (tail : Word) (be : BitVec 4)
  /-- RESPONSE_WINDOW_WRITE (R49). A write to a mailbox response window has no effect and sets MBX_ERR.RESP_WR. -/
  | responseWindowWrite (fn : FnNo) (offset : Nat) (data : Word) (be : BitVec 4)
  /-- REGISTER_WRITE (R3). A write to a register that has no row of its own acts according to each field's access code. -/
  | registerWrite (fn : FnNo) (addr : Nat) (data : Word) (be : BitVec 4)
  /-- READ_CLEAR_READ (R3). A read of an RC field returns its value and clears it to its reset value. -/
  | readClearRead (fn : FnNo) (r : RegRead)
  /-- HUB_TIME_LO_READ (R59). A read of HUB_TIME_LO copies the upper half of HUB_TIME into the snapshot. -/
  | hubTimeLoRead
  /-- SRV_SNAP_READ (R114). A read of SRV_SNAP snapshots every serving counter and returns the snapshot sequence number. -/
  | srvSnapRead
  /-- TNT_LOG_SYNC_READ (R447). A read of TNT_LOG_SYNC serves as the sync read of dirty-log harvesting. -/
  | tntLogSyncRead
  /-- GO (R48). GO in IDLE increments SEQ, copies and checks the request, then enters BUSY and hands the request to PCF, or delivers a hub-produced response. -/
  | go (fn : FnNo)
  /-- ACK (R47). ACK returns a mailbox in DONE or TIMEOUT to IDLE. -/
  | ack (fn : FnNo)
  /-- CANCEL (R47). CANCEL abandons a BUSY request and returns the mailbox to IDLE. -/
  | cancel (fn : FnNo)
  /-- MBX_RESPONSE_POST (R50). PCF posts a response; a match in BUSY is delivered and enters DONE, and any other response is logged as stale. -/
  | mbxResponsePost (who : Issuer)
  /-- MBX_TIMEOUT_EXPIRY (R52). The mailbox timer expires in BUSY; the request is abandoned and the mailbox enters TIMEOUT. -/
  | mbxTimeoutExpiry (fn : FnNo)
  /-- PCF_RESTART (R54). PCF restarts; outstanding requests get FW_RESTART, FW_READY clears, and running operations end. -/
  | pcfRestart
  /-- DISCOVER (R70). Returns the package identification values. -/
  | discover (who : Issuer)
  /-- CAPS_QUERY (R70). Returns the interface version, mode, opcode map, quotas and epoch. -/
  | capsQuery (who : Issuer)
  /-- EVENT_RING_SET (R67). Sets or removes the instance's event ring in host memory. -/
  | eventRingSet (who : Issuer)
  /-- QUEUE_OPEN (R72). Opens a queue on an engine, pins its ring and completion area, and returns its slot. -/
  | queueOpen (who : Issuer) (number : QueueNo) (die : DieNo) (unit : Fin 2)
  /-- QUEUE_CLOSE (R72). Closes a queue in drain or abort mode, at once or by an ACCEPTED operation. -/
  | queueClose (who : Issuer)
  /-- QUEUE_CLOSE_DRAIN_COMPLETE (R72). The outstanding commands of a closing queue end, the queue closes and OP_DONE is written. -/
  | queueCloseDrainComplete (q : QueueNo)
  /-- QUEUE_QUERY (R71). Returns a queue's state, head, error count and epoch. -/
  | queueQuery (who : Issuer)
  /-- BUNDLE_LOAD (R74). Starts verification of a bundle image as an ACCEPTED operation. -/
  | bundleLoad (who : Issuer)
  /-- BUNDLE_LOAD_VERIFY_COMPLETE (R94). Bundle verification ends; the bundle fails, becomes active or becomes staged. -/
  | bundleLoadVerifyComplete
  /-- BUNDLE_REPLICATION_COMPLETE (R95). Replication from the image ends, and the recomputed digest is compared with the one taken at verification. -/
  | bundleReplicationComplete
  /-- BUNDLE_SWAP (R97). Starts a half-by-half swap to the staged bundle. -/
  | bundleSwap (who : Issuer)
  /-- SWAP_DRAIN_END (R97). No session bound to the old bundle remains on the draining half, so the half retires and loads. -/
  | swapDrainEnd
  /-- SWAP_DRAIN_EXPIRY (R98). MAX_DRAIN_MS passes for a draining half; its remaining old-bundle sessions are retired at the next boundary. -/
  | swapDrainExpiry
  /-- SWAP_HALF_REPLICATED (R97). A half finishes loading the new weights and begins serving, advancing PHASE. -/
  | swapHalfReplicated
  /-- BUNDLE_QUERY (R74). Returns the active and staged bundles, PHASE, replication and digest. -/
  | bundleQuery (who : Issuer)
  /-- SESSION_CREATE (R76). Creates a session against a network of the active bundle and places it on a home stack. -/
  | sessionCreate (who : Issuer)
  /-- SESSION_END (R141). Ends a session at once or after its open reservation closes, returning its rows. -/
  | sessionEnd (who : Issuer)
  /-- SESSION_QUERY (R75). Returns a session's state, cursors, pages and tag, by number or by USER_TAG. -/
  | sessionQuery (who : Issuer)
  /-- SETTING_GET (R485). Returns a setting's effective, factory and user values, limits and attributes. -/
  | settingGet (who : Issuer)
  /-- SETTING_SET (R78). Checks and applies 1 to 32 setting entries all or nothing, optionally persisting them to the user layer. -/
  | settingSet (who : Issuer) (userFails onceFails bootFails : Bool)
  /-- USER_LAYER_ERASE_COMPLETE (R486). The background erase of the superseded user layer ends. -/
  | userLayerEraseComplete
  /-- EPOCH_QUERY (R77). Returns the issuing and target epochs and the staging state. -/
  | epochQuery (who : Issuer)
  /-- EPOCH_DIE_STAGED (R80). One C-die finishes staging the new values of a rolling change, and staging moves on. -/
  | epochDieStaged
  /-- EPOCH_RETIRE (R80). A die drops the old epoch's values when no work stamped with it remains. -/
  | epochRetire (d : HolderNo)
  /-- TENANT_CONFIG (R84). Sets a VF's quotas, tags and assigned ranges. -/
  | tenantConfig (who : Issuer)
  /-- RANGE_ZERO_FILL_COMPLETE (R429). The zero-fill of a new or grown assigned range ends, and the quotas take effect. -/
  | rangeZeroFillComplete (fn : FnNo)
  /-- FREEZE (R434). TENANT_STATE action 1 starts freezing a running tenant. -/
  | freeze (who : Issuer)
  /-- FREEZE_QUIESCE_COMPLETE (R434). Every effect of the tenant's work is visible; the tenant becomes frozen and OP_DONE is written. -/
  | freezeQuiesceComplete (fn : FnNo)
  /-- FREEZE_LIMIT_EXPIRY (R435). A launch still runs TNT_FREEZE_MAX_MS after the freeze, so it is stopped with DEVICE_ERROR. -/
  | freezeLimitExpiry (fn : FnNo)
  /-- THAW (R437). TENANT_STATE action 2 thaws a frozen tenant and resumes its work. -/
  | thaw (who : Issuer)
  /-- SAVE (R440). TENANT_STATE action 3 starts writing a frozen tenant's blob to host memory. -/
  | save (who : Issuer)
  /-- SAVE_COMPLETE (R440). The blob is written; the tenant returns to frozen and OP_DONE is written. -/
  | saveComplete (fn : FnNo)
  /-- RESTORE (R443). TENANT_STATE action 4 starts reading and checking a blob into a frozen or unconfigured tenant. -/
  | restore (who : Issuer)
  /-- RESTORE_COMPLETE (R444). The ranges, sessions, queues, turns and events are re-created, and the tenant thaws. -/
  | restoreComplete (fn : FnNo)
  /-- START_DIRTY_LOG (R445). TENANT_STATE action 5 starts dirty-page logging for the VF. -/
  | startDirtyLog (who : Issuer)
  /-- STOP_DIRTY_LOG (R445). TENANT_STATE action 6 stops dirty-page logging. -/
  | stopDirtyLog (who : Issuer)
  /-- TENANT_QUERY (R83). Returns a tenant's state, logging flag, queues, sessions and memory use. -/
  | tenantQuery (who : Issuer)
  /-- LINK_TEST (R86). Takes a link out of service and starts a pattern test as an ACCEPTED operation. -/
  | linkTest (who : Issuer)
  /-- LINK_TEST_COMPLETE (R534). DURATION_MS ends; RESULT is set, the link returns to service and OP_DONE is written. -/
  | linkTestComplete (kind : Fin 4) (link : Fin 12) (near far : List LaneCount) (f1 f2 : List (Fin 8 × BitVec 18))
  /-- LINK_QUERY (R85). Returns a link's state, mode, units in service and last test result. -/
  | linkQuery (who : Issuer)
  /-- TWIN_PAIR (R402). TWIN_CTRL action 1 starts forming a pair from UNPAIRED. -/
  | twinPair (who : Issuer)
  /-- TWIN_ATTACH (R402). TWIN_CTRL action 3 starts rejoining a pair from SOLO, DETACHED or FENCED. -/
  | twinAttach (who : Issuer)
  /-- TWIN_DETACH (R416). TWIN_CTRL action 2 starts handing this package's sessions to its partner. -/
  | twinDetach (who : Issuer)
  /-- TWIN_QUERY (R86). TWIN_CTRL action 4 returns the twin state and the partner serial. -/
  | twinQuery (who : Issuer)
  /-- BLOCK_ACCESS_OPEN (R88). Opens a hub or C-die block window for host writes, where the package state allows it. -/
  | blockAccessOpen (who : Issuer)
  /-- BLOCK_ACCESS_CLOSE (R88). Closes a block window. -/
  | blockAccessClose (who : Issuer)
  /-- ERR_READ (R524). Returns records of the instance's error log from START. -/
  | errRead (who : Issuer)
  /-- DIE_QUARANTINE (R418). DIE_CTRL action 1 starts draining a C-die for quarantine. -/
  | dieQuarantine (who : Issuer)
  /-- QUARANTINE_DRAIN_COMPLETE (R418). The drain ends; the die becomes quarantined and DIE_STATE is written. -/
  | quarantineDrainComplete (d : DieNo)
  /-- QUARANTINE_DRAIN_EXPIRY (R418). MAX_DRAIN_MS passes, so sessions that cannot be moved are ended with POOL_EMPTY. -/
  | quarantineDrainExpiry (d : DieNo)
  /-- DIE_RETURN_TO_SERVICE (R421). DIE_CTRL action 2 starts returning a quarantined die to service. -/
  | dieReturnToService (who : Issuer)
  /-- RETURN_TO_SERVICE_COMPLETE (R421). The die has closed its window, staged its epochs and taken its bundle; it becomes in service. -/
  | returnToServiceComplete (d : DieNo)
  /-- ENTER_DEEP_IDLE (R455). POWER_SET action 1 starts deep-idle entry, unless work remains. -/
  | enterDeepIdle (who : Issuer)
  /-- WAKE_TO_IDLE (R456). POWER_SET action 2 wakes the package to ready. -/
  | wakeToIdle (who : Issuer)
  /-- POWER_QUERY (R89). Returns the package power state, wake state, power and temperature. -/
  | powerQuery (who : Issuer)
  /-- STEP_BOUNDARY (R106). The previous step has ended and committed, and the batcher forms the next package-wide step of decode entries and prefill chunks. -/
  | stepBoundary
  /-- TURN (R101). Submits a caller turn to a session; the turn is checked and enters the admission queue or completes at once. -/
  | turn (q : QueueNo) (index : Nat)
  /-- RESERVE (R126). Opens a reservation of firm and draft positions, popping rows from one pool. -/
  | reserve (q : QueueNo) (index : Nat)
  /-- ROW_ZERO_FILL_COMPLETE (R124). The zero-fill of rows popped for a new owner ends, and the reservation takes effect. -/
  | rowZeroFillComplete (session : Nat)
  /-- COMMIT (R127). Advances the commit cursor by k, closes the reservation and splices the rows above it back to their pool. -/
  | commit (q : QueueNo) (index : Nat)
  /-- ROLLBACK (R127). Discards the tentative tail, or drops a pending reservation, returning its rows in one splice. -/
  | rollback (q : QueueNo) (index : Nat)
  /-- STAT (R144). Writes a session's cursors, state and row map to memory. -/
  | stat (q : QueueNo) (index : Nat)
  /-- MERGE_ARM (R135). Arms a merge slot with its vectors, masks, outputs and counter. -/
  | mergeArm (q : QueueNo) (index : Nat)
  /-- MERGE_ABORT (R135). Frees an armed merge slot at once. -/
  | mergeAbort (q : QueueNo) (index : Nat)
  /-- APPEND_WRITE (R130). An append write arrives at the home Session Engine and is converted and stored, or discarded. -/
  | appendWrite (issuerAsid : Nat) (tag : AppendTag) (data : List Word)
  /-- MERGE_WRITE (R136). A partial record arrives at a merge unit and is accepted or discarded as stray. -/
  | mergeWrite (die : DieNo) (asid : Nat) (p : MergeRec)
  /-- MIRROR_SEND (R409). After a commit, the home Session Engine sends the newly committed positions and SH_COMMIT to the twin. -/
  | mirrorSend (session : Nat)
  /-- COMMAND_FETCH (R150). An engine fetches a published command, stamps the epoch, checks its structure and translates its addresses. -/
  | commandFetch (q : QueueNo)
  /-- COMMAND_START (R155). A fetched command starts when ordering and engine room allow, after retranslation if its tag's generation has changed. -/
  | commandStart (q : QueueNo) (index : Nat)
  /-- COMMAND_COMPLETE (R156). A command's effects are visible; the engine increments its counter, writes the record, updates the QSB and signals the vector. -/
  | commandComplete (q : QueueNo) (index : Nat)
  /-- NOP (R162). Does nothing beyond the common completion actions. -/
  | nop (q : QueueNo) (index : Nat)
  /-- FENCE (R163). Completes when earlier commands of its queue are complete and visible at its scope. -/
  | fence (q : QueueNo) (index : Nat)
  /-- WAIT (R164). Waits, as an acquire read, until a 64-bit location meets its condition. -/
  | waitCmd (q : QueueNo) (index : Nat)
  /-- WAIT_TIMEOUT (R164). A WAIT's timer expires and the WAIT completes with DETAIL 1. -/
  | waitTimeout (q : QueueNo) (index : Nat)
  /-- WAIT_HOST_POLL (R164). Every 2 µs, a WAIT on host memory evaluates its condition again. -/
  | waitHostPoll (q : QueueNo) (index : Nat)
  /-- SIGNAL (R163). Performs a write, add or maximum as one atomic release at the location's home. -/
  | signal (q : QueueNo) (index : Nat)
  /-- LAUNCH (R166). Distributes a kernel's blocks over the dies in AFF_MASK and starts placing them. -/
  | launch (q : QueueNo) (index : Nat)
  /-- COPY (R169). Copies rows of bytes between virtual addresses, with optional cache invalidation or write-through. -/
  | copy (q : QueueNo) (index : Nat)
  /-- FILL (R169). Writes an 8-byte pattern over a destination range. -/
  | fill (q : QueueNo) (index : Nat)
  /-- UC_INVAL (R257). Writes back and invalidates the unified-cache lines of a range. -/
  | ucInval (q : QueueNo) (index : Nat)
  /-- XLAT_INVAL (R327). Checks pinned use, raises the tag's generation, and drops the cached translations of a range or tag. -/
  | xlatInval (q : QueueNo) (index : Nat)
  /-- XLAT_INVAL_WAIT_END (R327). Every command and access holding an old translation has ended, so XLAT_INVAL completes. -/
  | xlatInvalWaitEnd (k : Nat)
  /-- RWRITE (R392). Sends local data to a global address as WDATA messages followed by CLOSE. -/
  | rwrite (q : QueueNo) (i : Nat)
  /-- RFENCE (R396). Completes when every earlier RWRITE of its queue to a package has completed. -/
  | rfence (q : QueueNo) (index : Nat)
  /-- BLOCK_START (R181). A Dispatch front-end places a block on a core that can take it, zero-filling registers and banks as required. -/
  | blockStart (launch : Nat) (die : DieNo)
  /-- BLOCK_END (R201). All groups and issued operations of a block have ended, so its resources are freed. -/
  | blockEnd (core : CoreNo) (block : Nat)
  /-- GROUP_WATCHDOG_EXPIRY (R197). A group's watchdog reaches 2^24 cycles and the group is reported hung. -/
  | groupWatchdogExpiry (core : CoreNo) (slot : Fin 32)
  /-- HANG_STOP_COMPLETE (R199). Every group of a hung launch has stopped and its operations have completed. -/
  | hangStopComplete (launch : Nat)
  /-- AUTO_SPLIT (R190). A context that has held two or more sets for 512 issues is split. -/
  | autoSplit (core : CoreNo) (ctx : Fin 64)
  /-- SPLIT (R190). The SPLIT instruction splits a group's sets into separate contexts where room allows. -/
  | split (at_ : Issue)
  /-- REPACK (R191). A convergence point that rejoins all threads of a group into one context. -/
  | repack (at_ : Issue)
  /-- CONVERGE (R192). Waits until every named thread that has not exited reaches the same CONVERGE. -/
  | converge (at_ : Issue) (mask : BitVec 64)
  /-- YIELD (R188). Ends the current set's issue count. -/
  | yieldSet (at_ : Issue)
  /-- BAR (R193). A block barrier that waits for every thread of the block and acts as FENCE.B. -/
  | barBlock (at_ : Issue)
  /-- EXIT (R200). Ends a thread; its group ends when all its threads have ended. -/
  | exitThread (at_ : Issue)
  /-- SGATHER (R202). Reads one key-value sector of a session per active thread through the Session Engine. -/
  | sgather (at_ : Issue) (dst desc : Nat)
  /-- MWRITE (R203). Sends a partial record from local store to a merge unit. -/
  | mwrite (at_ : Issue) (die addr dim : Nat)
  /-- FMA (R207). Fused multiply-add, rounded once under RM. -/
  | fma (at_ : Issue) (fmt : FpFmt) (rm : Rm) (d a b c : Nat)
  /-- FP_DIV (R211). Floating-point division, correctly rounded. -/
  | fpDiv (at_ : Issue) (fmt : FpFmt) (rm : Rm) (d a b : Nat)
  /-- SQRT (R211). Square root, correctly rounded. -/
  | sqrt (at_ : Issue) (fmt : FpFmt) (rm : Rm) (d a : Nat)
  /-- RCP (R211). Reciprocal, correctly rounded. -/
  | rcp (at_ : Issue) (fmt : FpFmt) (rm : Rm) (d a : Nat)
  /-- RSQRT (R211). Reciprocal square root, correctly rounded. -/
  | rsqrt (at_ : Issue) (fmt : FpFmt) (rm : Rm) (d a : Nat)
  /-- EXP2 (R211). Base-2 exponential, correctly rounded. -/
  | exp2 (at_ : Issue) (fmt : FpFmt) (rm : Rm) (d a : Nat)
  /-- LOG2 (R211). Base-2 logarithm, correctly rounded. -/
  | log2 (at_ : Issue) (fmt : FpFmt) (rm : Rm) (d a : Nat)
  /-- MIN (R212). minimumNumber of two values. -/
  | fpMin (at_ : Issue) (fmt : FpFmt) (d a b : Nat)
  /-- MAX (R212). maximumNumber of two values. -/
  | fpMax (at_ : Issue) (fmt : FpFmt) (d a b : Nat)
  /-- FP_COMPARE (R212). EQ, NE, LT, LE, GT and GE under the IEEE 754 predicates. -/
  | fpCompare (at_ : Issue) (fmt : FpFmt) (cmp : FpCmp) (d a b : Nat)
  /-- CONVERT (R213). Converts between floating-point formats, with or without saturation. -/
  | fpConvert (at_ : Issue) (to_ from_ : FpFmt) (rm : Rm) (sat : Bool) (d a : Nat)
  /-- CONVERT_TO_INTEGER (R214). Converts a floating-point value to an integer format, clamping at the edges. -/
  | convertToInteger (at_ : Issue) (to_ : IntTy) (from_ : FpFmt) (rm : Rm) (d a : Nat)
  /-- CONVERT_FROM_INTEGER (R215). Converts an integer to a floating-point format. -/
  | convertFromInteger (at_ : Issue) (to_ : FpFmt) (from_ : IntTy) (rm : Rm) (sat : Bool) (d a : Nat)
  /-- SCALED_CONVERT (R216). Converts a microscaling element with its E8M0 scale. -/
  | scaledConvert (at_ : Issue) (to_ from_ : FpFmt) (rm : Rm) (sat : Bool) (d a scale : Nat)
  /-- QMX (R217). Quantises one 32-value block to a scale and narrow elements in local store. -/
  | qmx (at_ : Issue) (fmt : FpFmt) (rm : Rm) (src elems scale : Nat)
  /-- ADD (R218). Integer addition modulo 2^w. -/
  | intAdd (at_ : Issue) (wide : Bool) (d a b : Nat)
  /-- SUB (R218). Integer subtraction modulo 2^w. -/
  | intSub (at_ : Issue) (wide : Bool) (d a b : Nat)
  /-- MUL (R218). Integer multiplication, low word. -/
  | intMul (at_ : Issue) (wide : Bool) (d a b : Nat)
  /-- NEG (R218). Integer negation modulo 2^w. -/
  | intNeg (at_ : Issue) (wide : Bool) (d a : Nat)
  /-- ABS (R218). Integer absolute value modulo 2^w. -/
  | intAbs (at_ : Issue) (wide : Bool) (d a : Nat)
  /-- MULHI (R218). Upper w bits of the integer product. -/
  | mulhi (at_ : Issue) (wide signed : Bool) (d a b : Nat)
  /-- INT_DIV (R219). Integer division truncated toward zero, with defined edge results. -/
  | intDiv (at_ : Issue) (wide signed : Bool) (d a b : Nat)
  /-- REM (R219). Integer remainder with the sign of the dividend. -/
  | rem (at_ : Issue) (wide signed : Bool) (d a b : Nat)
  /-- SHL (R220). Logical left shift, amount not masked. -/
  | shl (at_ : Issue) (wide : Bool) (d a b : Nat)
  /-- SHR (R220). Logical right shift, amount not masked. -/
  | shr (at_ : Issue) (wide : Bool) (d a b : Nat)
  /-- SAR (R220). Arithmetic right shift, amount not masked. -/
  | sar (at_ : Issue) (wide : Bool) (d a b : Nat)
  /-- ROL (R220). Rotate left by s mod w. -/
  | rol (at_ : Issue) (wide : Bool) (d a b : Nat)
  /-- ROR (R220). Rotate right by s mod w. -/
  | ror (at_ : Issue) (wide : Bool) (d a b : Nat)
  /-- CLZ (R220). Counts leading zeros; w for 0. -/
  | clz (at_ : Issue) (wide : Bool) (d a : Nat)
  /-- CTZ (R220). Counts trailing zeros; w for 0. -/
  | ctz (at_ : Issue) (wide : Bool) (d a : Nat)
  /-- ADD_SAT (R221). Saturating addition, raising IOV on clamp. -/
  | addSat (at_ : Issue) (wide signed : Bool) (d a b : Nat)
  /-- SUB_SAT (R221). Saturating subtraction, raising IOV on clamp. -/
  | subSat (at_ : Issue) (wide signed : Bool) (d a b : Nat)
  /-- MUL_SAT (R221). Saturating multiplication, raising IOV on clamp. -/
  | mulSat (at_ : Issue) (wide signed : Bool) (d a b : Nat)
  /-- NEG_SAT (R221). Saturating negation. -/
  | negSat (at_ : Issue) (wide signed : Bool) (d a : Nat)
  /-- ABS_SAT (R221). Saturating absolute value. -/
  | absSat (at_ : Issue) (wide signed : Bool) (d a : Nat)
  /-- DIV_SAT (R219). Saturating integer division. -/
  | divSat (at_ : Issue) (wide signed : Bool) (d a b : Nat)
  /-- RDSR (R223). Reads a special register, including SR_FLAGS. -/
  | rdsr (at_ : Issue) (sr : SpecialReg) (dst : Nat)
  /-- CLRFLAGS (R223). Clears the masked sticky flags in program order. -/
  | clrflags (at_ : Issue) (mask : BitVec 7)
  /-- MMAJ (R232). Joint-tile matrix operation on register fragments, issued once per released group. -/
  | mmaj (at_ : Issue) (fa fb d a b c : Nat) (sa sb : Option Nat)
  /-- MMAS (R234). Solo matrix operation per active thread on local-store operands. -/
  | mmas (at_ : Issue) (fa fb ad aa ab ac : Nat) (asa asb : Option Nat)
  /-- MFENCE_S (R236). Holds the thread until its solo operations and MAPPENDS have completed. -/
  | mfenceS (at_ : Issue)
  /-- MAPPEND (R237). Sends rows of a joint D tile as append writes. -/
  | mappend (at_ : Issue) (d desc : Nat) (rows : Fin 33)
  /-- MAPPENDS (R238). Sends rows of a local-store tile as append writes per thread. -/
  | mappends (at_ : Issue) (ad desc : Nat) (rows : Fin 33)
  /-- MATRIX_OP_START (R230). The matrix unit takes the next operation from its 4-entry queue. -/
  | matrixOpStart (core : CoreNo)
  /-- MATRIX_OP_COMPLETE (R230). A matrix operation writes D to registers or local store. -/
  | matrixOpComplete (p : MtxPlace)
  /-- LD (R244). Relaxed load of device or host memory. -/
  | ld (at_ : Issue) (dst addr size : Nat)
  /-- ST (R243). Relaxed store that enters the core's store queue. -/
  | st (at_ : Issue) (addr src size : Nat)
  /-- STORE_QUEUE_DRAIN (R243). A store leaves the core's store queue and is performed. -/
  | storeQueueDrain (core : CoreNo) (seq : Nat)
  /-- LD_ACQ (R244). Acquire load at a scope. -/
  | ldAcq (at_ : Issue) (sc : Scope) (dst addr size : Nat)
  /-- ST_REL (R245). Release store at a scope. -/
  | stRel (at_ : Issue) (sc : Scope) (addr src size : Nat)
  /-- ATOM (R274). Atomic operation, performed near or far. -/
  | atom (at_ : Issue) (op : AtomOp) (ord : AtomOrd) (sc : Scope) (dst addr src size : Nat)
  /-- RED (R279). Reduction atomic without result, always far. -/
  | red (at_ : Issue) (op : AtomOp) (fmt : RedFmt) (addr src length : Nat)
  /-- THREAD_FENCE (R244). FENCE.sc orders a thread's earlier accesses before its later ones at a scope. -/
  | threadFence (at_ : Issue) (sc : Scope)
  /-- LDWAIT (R261). Acquire load that waits until a 64-bit location is at least a value. -/
  | ldwait (at_ : Issue) (dst addr value : Nat)
  /-- LDWAIT_TIMEOUT (R261). LDWAIT ends after 2^16 core cycles without the condition being met. -/
  | ldwaitTimeout (core : CoreNo) (slot : Fin 32) (lane : Fin 64)
  /-- LDWAIT_HOST_POLL (R261). Every 2 µs, an LDWAIT on host memory evaluates its condition again. -/
  | ldwaitHostPoll (core : CoreNo) (slot : Fin 32) (lane : Fin 64)
  /-- CINV (R257). Writes back and invalidates one 128-byte line. -/
  | cinv (at_ : Issue) (addr : Nat)
  /-- LDL (R248). Local-store load, performed at issue. -/
  | ldl (at_ : Issue) (dst addr size : Nat)
  /-- STL (R248). Local-store store, performed at issue. -/
  | stl (at_ : Issue) (addr src size : Nat)
  /-- GETS (R268). L1 read-miss request served at the home. -/
  | gets (core : CoreNo) (line : Nat)
  /-- GETM (R268). L1 write or near-atomic miss request for the line in M. -/
  | getm (core : CoreNo) (line : Nat)
  /-- GETM_FULL (R268). Full-line store-queue drain request, granted without data. -/
  | getmFull (core : CoreNo) (line : Nat)
  /-- ATOM_MESSAGE (R277). An ATOM request at the home consults the predictor and is served near or far. -/
  | atomMessage (core : CoreNo) (line : Nat)
  /-- RED_MESSAGE (R279). A RED request is performed far at the slice. -/
  | redMessage (core : CoreNo) (line : Nat)
  /-- FAR_WRITE (R280). A write performed at the home slice, leaving the line in U. -/
  | farWrite (dpa : Nat) (data : List Byte)
  /-- COHERENT_READ (R280). An engine, BAR2 or gather read served at the home. -/
  | coherentRead (dpa bytes : Nat)
  /-- BYPASS_WRITE (R254). A Copy Engine write performed at the stack after the dirty sectors are written back. -/
  | bypassWrite (dpa : Nat) (data : List Byte)
  /-- INVALIDATION (R283). Recalls or invalidates a line's copies, writes it back and drops it. -/
  | invalidation (line : Nat)
  /-- FWD_S (R268). The owner supplies data and downgrades to S. -/
  | fwdS (core : CoreNo) (line : Nat)
  /-- FWD_M (R268). The owner passes the line in M to the requester. -/
  | fwdM (core : CoreNo) (line : Nat)
  /-- RECALL (R268). The owner writes back and invalidates. -/
  | recallLine (core : CoreNo) (line : Nat)
  /-- INV (R268). A sharer invalidates its copy and acknowledges. -/
  | inv (core : CoreNo) (line : Nat)
  /-- GNT (R268). A permission grant carrying ACK_COUNT. -/
  | gnt (core : CoreNo) (line : Nat)
  /-- INV_ACK (R269). Acknowledgement of an invalidation. -/
  | invAck (to_ : Option CoreNo) (line : Nat)
  /-- NOLINE (R271). The owner reports that the line was already written back. -/
  | noline (core : CoreNo) (line : Nat)
  /-- ATOM_RES (R275). Returns the old value of a far atomic. -/
  | atomRes (core : CoreNo) (line : Nat)
  /-- DATA (R269). A line delivered to a requester. -/
  | data (to_ : Option CoreNo) (line : Nat)
  /-- WB (R282). An owner's write-back of dirty sectors to the home. -/
  | wb (core : CoreNo) (line : Nat)
  /-- UNBLOCK (R267). Closes a coherence transaction at the home. -/
  | unblock (core : CoreNo) (line : Nat)
  /-- WB_DONE (R282). Confirms an unsolicited write-back to the owner. -/
  | wbDone (core : CoreNo) (line : Nat)
  /-- CLAIM_HOLD_END (R273). A line's claim hold ends, and deferred forwards are honoured in order. -/
  | claimHoldEnd (core : CoreNo) (line : Nat)
  /-- PREDICTOR_DECAY (R277). Every 65,536 UC cycles, each predictor CTR above 0 is decreased by one. -/
  | predictorDecay
  /-- UC_PRED_FLUSH (R277). Writing UC_PRED_CTRL.FLUSH clears every predictor entry of the slice. -/
  | ucPredFlush (die : DieNo) (data : Word) (be : BitVec 4)
  /-- STACK_REQUEST_ACCEPT (R294). The stack controller accepts a request into an ordinary or Skink queue, in order per sector. -/
  | stackRequestAccept (stack : DieNo) (r : StackAsk)
  /-- STACK_REQUEST_SERVE (R293). The pseudo-channel scheduler performs a request at the stack. -/
  | stackRequestServe (stack : DieNo) (index : Nat) (e : SectorRead)
  /-- REFRESH (R297). A refresh falls due and is performed in the mode in force. -/
  | refresh (stack : DieNo)
  /-- HBM_TEMPERATURE_READOUT (R298). Every 1 ms, the stack temperature is read into HBM_TEMP. -/
  | hbmTemperatureReadout (stack : DieNo) (celsius : BitVec 8)
  /-- ECS_READOUT (R298). Every 24 h, ECS results are read and counted as corrected errors. -/
  | ecsReadout (stack : DieNo) (corrected : Nat)
  /-- PATROL_SCRUB_READ (R301). The patrol scrub reads a sector and rewrites it if corrected. -/
  | patrolScrubRead (stack : DieNo) (addr : Nat) (outcome : EccOutcome)
  /-- RETIREMENT_LIST_UPDATE (R302). PCF adds a marked page to the stack's retirement list in flash. -/
  | retirementListUpdate (stack : DieNo)
  /-- STACK_ZERO_FILL_COMPLETE (R304). A stack's start-up zero-fill ends, and waiting requests proceed. -/
  | stackZeroFillComplete (stack : DieNo)
  /-- STACK_TRAINING_COMPLETE (R477). A stack's training ends, in service or failed. -/
  | stackTrainingComplete (stack : DieNo) (ok : Bool) (mfr : BitVec 8) (height density : BitVec 4) (r : StackRepair)
  /-- TABLE_WALK (R319). A translation walk reads the table levels and caches the valid entries. -/
  | tableWalk (die : DieNo) (asid va : Nat)
  /-- COPY_FAULT (R324). A Copy Engine field has no translation at start; the command is suspended and the fault path runs. -/
  | copyFault (q : QueueNo) (index : Nat)
  /-- ATS_COMPLETION (R324). An ATS Translation Completion resolves or fails a host-window fault. -/
  | atsCompletion (q : QueueNo) (index : Nat) (granted : Bool) (writable : Bool)
  /-- PRI_RESPONSE (R324). A PRI page-request response arrives and resolves or fails a fault. -/
  | priResponse (q : QueueNo) (index : Nat) (success : Bool)
  /-- PRI_TIMEOUT (R324). No PRI response arrives within XLT_PRI_TIMEOUT_MS, so the fault is unresolved. -/
  | priTimeout (q : QueueNo) (index : Nat)
  /-- HOST_READ_COMPLETION (R326). The host completes a device read of host memory, possibly with Unsupported Request or Completer Abort. -/
  | hostReadCompletion (reader : HostReader) (ok : Bool)
  /-- ATS_INVALIDATE_REQUEST (R331). The host invalidates ATS translations of a tag; completion is sent after the wait. -/
  | atsInvalidateRequest (fn : FnNo) (pasid : Option Nat) (addr bytes : Nat)
  /-- LENOT_FLIT_ROUND (R336). A port sends one round of flits, one per enabled bundle. -/
  | lenotFlitRound (p : PortNo) (offered : List LntMsg)
  /-- LENOT_PAYLOAD_FLIT (R347). A PAYLOAD flit is received; its control word is used, and it is accepted, discarded as a duplicate or starts the gap state. -/
  | lenotPayloadFlit (p : PortNo)
  /-- LENOT_ACK_ONLY_FLIT (R348). An ACK_ONLY flit delivers acknowledgement, replay request and credits. -/
  | lenotAckOnlyFlit (p : PortNo)
  /-- LENOT_SLEEP_REQ (R358). The far end asks to sleep and is answered with SLEEP_ACK or SLEEP_NAK. -/
  | lenotSleepReq (p : PortNo)
  /-- LENOT_SLEEP_ACK (R358). The far end consents to sleep, so the lanes go quiet. -/
  | lenotSleepAck (p : PortNo)
  /-- LENOT_SLEEP_NAK (R358). The far end refuses sleep. -/
  | lenotSleepNak (p : PortNo)
  /-- LENOT_SLEEP_IDLE_EXPIRY (R358). The port has been idle for LNT_SLEEP_IDLE_NS and starts sending SLEEP_REQ. -/
  | lenotSleepIdleExpiry (p : PortNo)
  /-- LENOT_WAKE (R358). An end drives its lanes to wake a sleeping link. -/
  | lenotWake (p : PortNo)
  /-- LENOT_REPLAY_TIMER_EXPIRY (R351). The replay timer expires and a replay from the oldest held flit starts. -/
  | lenotReplayTimerExpiry (p : PortNo)
  /-- LANE_LOCK_LOSS (R352). A lane loses lock and the port retrains. -/
  | laneLockLoss (p : PortNo) (bundle : Fin 8) (lane : Fin 18)
  /-- LENOT_RETRAIN (R352). Repeated replays or the far end start retraining of a port. -/
  | lenotRetrain (p : PortNo)
  /-- LENOT_RETRAIN_COMPLETE (R353). Retraining ends, with a new lane map and a replay, or with the port out of service. -/
  | lenotRetrainComplete (p : PortNo) (failNear failFar : List (Fin 8 × BitVec 18)) (locked : Bool)
  /-- LENOT_LANE_TEST_COMPLETE (R356). The start-up lane test ends and the lane maps in force are chosen. -/
  | lenotLaneTestComplete (link : Fin 12) (failFirst failSecond : List (Fin 8 × BitVec 18))
  /-- MARK (R346). A route marker reaches its destination and is answered with MARK_DONE. -/
  | mark (src dst : Fin 9) (cls : Fin 6)
  /-- MARK_DONE (R346). When all MARK_DONE have arrived, the source switches the pair to its new route. -/
  | markDone (src dst : Fin 9) (cls : Fin 6)
  /-- REGISTER_ACCESS_MESSAGE (R341). An MGT register access travels to a die and is answered with a register reply. -/
  | registerAccessMessage (node : Fin 9)
  /-- LNT_PAT_CTRL_WRITE (R359). A write of LNT_PAT_CTRL starts or stops the pattern generators and checkers. -/
  | lntPatCtrlWrite (p : PortNo) (data : Word) (be : BitVec 4)
  /-- HWS_PAYLOAD_FRAME (R371). A usable PAYLOAD frame is received; its header is used and it is accepted, discarded or starts the gap state. -/
  | hwsPayloadFrame (p : HwNo) (line : HwsLine)
  /-- HWS_ACK_ONLY_FRAME (R372). An ACK_ONLY frame delivers acknowledgement, requests and credits. -/
  | hwsAckOnlyFrame (p : HwNo) (line : HwsLine)
  /-- HWS_SLEEP_REQ (R379). The far port asks to sleep. -/
  | hwsSleepReq (p : HwNo) (line : HwsLine)
  /-- HWS_SLEEP_ACK (R379). The far port consents and the drivers turn off. -/
  | hwsSleepAck (p : HwNo) (line : HwsLine)
  /-- HWS_SLEEP_NAK (R379). The far port refuses sleep. -/
  | hwsSleepNak (p : HwNo) (line : HwsLine)
  /-- HWS_SLEEP_IDLE_EXPIRY (R379). The port has been idle for HWS_SLEEP_IDLE_NS and asks to sleep. -/
  | hwsSleepIdleExpiry (p : HwNo)
  /-- HWS_REPLAY_TIMER_EXPIRY (R375). The replay timer expires and held frames are resent. -/
  | hwsReplayTimerExpiry (p : HwNo)
  /-- GAIN_UPDATE (R377). Every 16 frames, each lane's continuous gain moves by at most one step. -/
  | gainUpdate (p : HwNo) (want : List Nat)
  /-- START_OF_BURST_DELIMITER (R378). The delimiter is detected: gain freezes, lanes deskew and scramblers reseed. -/
  | startOfBurstDelimiter (p : HwNo) (b : BurstSeen)
  /-- GAIN_HANDOVER (R378). 256 frames after the delimiter, continuous gain resumes. -/
  | gainHandover (p : HwNo)
  /-- SIGNAL_DETECT (R380). A sleeping receiver detects signal and its port wakes into burst acquisition. -/
  | signalDetect (p : HwNo)
  /-- HWS_WAKE (R380). A port with a message to send enables its drivers and sends a burst. -/
  | hwsWake (p : HwNo)
  /-- BURST_ACQUISITION_FAILURE (R381). No delimiter within 1,024 UI, or four bad frames, so the receiver sets RBURST. -/
  | burstAcquisitionFailure (p : HwNo)
  /-- WAKE_BURST_TIMEOUT (R381). No usable frame 2 µs into a wake, so the port sends a new burst or trains. -/
  | wakeBurstTimeout (p : HwNo)
  /-- CAPABILITY_WORD (R383). A T0 capability word is taken, and the rate, wiring and twin checks are made. -/
  | capabilityWord (p : HwNo) (word : BitVec 128)
  /-- HWS_TRAINING_COMPLETE (R384). Training or retraining ends with a rate and width, or with the port out of service. -/
  | hwsTrainingComplete (p : HwNo) (t : HwsTrained)
  /-- HWS_FRAME_LOSS_TIMEOUT (R385). No usable frame arrives for 10 µs while awake, so the port retrains. -/
  | hwsFrameLossTimeout (p : HwNo)
  /-- HWS_RETRAIN_RETRY_TIMER (R382). An out-of-service port is trained again after 1 s and then every 10 s. -/
  | hwsRetrainRetryTimer (p : HwNo)
  /-- WDATA (R394). Remote write data arrives at the destination hub and is checked and performed. -/
  | wdata
  /-- CLOSE (R394). An RWRITE's closing message arrives and its completion is awaited. -/
  | close
  /-- WDONE (R392). The remote completion arrives and completes the RWRITE. -/
  | wdone
  /-- E2E_TIMER_EXPIRY (R395). An RWRITE's end-to-end timer expires and it completes with UNREACHABLE. -/
  | e2eTimerExpiry (q : QueueNo) (index : Nat)
  /-- INBOUND_TXN_TIMEOUT (R394). An inbound TXN still open after HWS_E2E_TIMEOUT_US is dropped. -/
  | inboundTxnTimeout (src txn : Nat)
  /-- PCF_MESSAGE (R369). An MGT message carries a PCF message between packages. -/
  | pcfMessage (report : List (Nat × Fin 6 × Bool))
  /-- HB (R411). A heartbeat arrives and counts as live when its LIVE has changed. -/
  | hb
  /-- TWIN_FENCE (R412). A FENCE arrives and the twin unit accepts it and fences, or answers FENCE_NAK. -/
  | twinFence
  /-- FENCE_ACK (R413). The partner accepted the fence, so promotion begins. -/
  | fenceAck
  /-- FENCE_NAK (R413). The partner refused the fence, so the package stays in SUSPECT. -/
  | fenceNak
  /-- PAIR_REQ (R403). The peer's pairing request arrives and the mode and row-size checks are made. -/
  | pairReq
  /-- SH_OPEN (R410). Opens a shadow session entry. -/
  | shOpen
  /-- SH_DATA (R410). Writes mirrored key-value bytes, popping shadow rows. -/
  | shData
  /-- SH_COMMIT (R410). Sets the shadow's commit cursor and is answered with SH_ACK. -/
  | shCommit
  /-- SH_END (R410). Frees a shadow and its rows. -/
  | shEnd
  /-- SH_NAK (R410). The sender stops mirroring the session and records MIRROR_LOST. -/
  | shNak
  /-- HANDOVER (R416). The partner promotes a handed-over shadow without trim. -/
  | handover
  /-- PROMOTE_REQ (R420). The partner promotes the named shadow. -/
  | promoteReq
  /-- SYNC_DONE (R405). The partner finished initial synchronisation; with both sent, the pair enters PAIRED. -/
  | syncDone
  /-- SH_ACK (R409). Sets the sender's acknowledged mirror cursor. -/
  | shAck
  /-- HEARTBEAT_TICK (R411). Every 1 ms, the twin unit sends HB on the twin ports and the Cleat bus. -/
  | heartbeatTick
  /-- LIVE_INCREMENT (R411). PCF, or the twin unit while the SCP is halted, advances LIVE. -/
  | liveIncrement
  /-- TWIN_DEAD_TIMEOUT (R411). No live heartbeat for TWIN_DEAD_MS, so the package enters SUSPECT. -/
  | twinDeadTimeout
  /-- FENCE_RESEND_TICK (R412). In SUSPECT, FENCE is sent on every channel once per 1 ms. -/
  | fenceResendTick
  /-- FENCE_ANSWER_TIMEOUT (R413). No answer 1 ms after the first FENCE, so the package enters PROMOTING. -/
  | fenceAnswerTimeout
  /-- FENCED_SESSION_CLEANUP (R412). PCF rolls back and turns the fenced package's mirrored sessions into shadows. -/
  | fencedSessionCleanup
  /-- PROMOTE_SHADOW (R415). PCF makes one shadow active; after the last, the package enters SOLO. -/
  | promoteShadow
  /-- TWIN_PAIR_WAIT_TIMEOUT (R402). No peer word or partner action arrives within TWIN_PAIR_WAIT_S, so OP_DONE carries NOT_FOUND. -/
  | twinPairWaitTimeout
  /-- DETACH_DRAIN_EXPIRY (R416). A detach passes SWAP_MAX_DRAIN_MS and hands over or ends all remaining sessions. -/
  | detachDrainExpiry
  /-- UNCONTAINED_DIE_ERROR (R420). An uncontained error confined to a C-die quarantines it at once. -/
  | uncontainedDieError (d : DieNo) (cluster : Option (Fin 8)) (unit : DWord)
  /-- UNCONTAINED_PACKAGE_ERROR (R532). An uncontained package error stops the package until reset. -/
  | uncontainedPackageError (unit : DWord) (scpStops : Bool)
  /-- CLUSTER_CLOCK_GATE (R450). A cluster idle for PWR_CG_IDLE_CYC enters CG. -/
  | clusterClockGate (k : Fin 64)
  /-- CLUSTER_POWER_GATE (R451). A cluster in CG for PWR_PG_IDLE_US writes back and enters PG. -/
  | clusterPowerGate (k : Fin 64)
  /-- CLUSTER_WAKE_COMPLETE (R449). A woken cluster can issue again. -/
  | clusterWakeComplete (k : Fin 64)
  /-- DIE_RETENTION_ENTRY (R452). A die idle for PWR_RET_IDLE_US enters RETENTION. -/
  | dieRetentionEntry (d : DieNo)
  /-- DIE_WAKE_COMPLETE (R453). A die leaves RETENTION and serves the message that woke it. -/
  | dieWakeComplete (d : DieNo)
  /-- SCP_HALT (R454). PCF halts the SCP when it has no work. -/
  | scpHalt
  /-- SCP_WAKE (R454). A wake event resumes the halted SCP. -/
  | scpWake
  /-- DEEP_IDLE_AUTO_ENTRY (R455). After PWR_DEEP_AUTO_MS of the idle conditions, deep-idle entry starts. -/
  | deepIdleAutoEntry
  /-- DEEP_IDLE_ENTRY_COMPLETE (R455). Dies, slices and stacks are down and the package is in DEEP_IDLE. -/
  | deepIdleEntryComplete
  /-- PACKAGE_WAKE_COMPLETE (R456). The package reaches ready from DEEP_IDLE and serves waiting requests. -/
  | packageWakeComplete
  /-- CORE_RAIL_DROOP (R461). A cluster's supply monitor sees the core rail below its minimum. -/
  | coreRailDroop (k : Fin 64)
  /-- THERMAL_SENSOR_SAMPLE (R463). Every 10 µs the junction sensors are sampled, engaging the trip at 110 °C. -/
  | thermalSensorSample (tj : List Nat)
  /-- THERMAL_TRIP_RELEASE (R463). After 10 ms with every sensor below 100 °C, the core clock returns. -/
  | thermalTripRelease
  /-- POWER_ON (R466). Power is applied, causing a package reset. -/
  | powerOn
  /-- RESET_N_ASSERT (R546). RESET_N held low causes a package reset. -/
  | resetNAssert (lowNs : Nat)
  /-- PERST_ASSERT (R466). PERST# causes a package reset with RST_SEL 1, or a link-down reset with RST_SEL 0. -/
  | perstAssert
  /-- RESET_N_RELEASE (R467). Reset release latches the straps and starts phase RESET. -/
  | resetNRelease (rstSel : Bool) (tmode : BitVec 2)
  /-- VDD_AON_BROWNOUT (R544). VDD_AON below 0.700 V for 2 µs resets the package. -/
  | vddAonBrownout
  /-- REFCLK25_LOSS (R545). REFCLK25 stopped for 1 µs holds the package in reset. -/
  | refclk25Loss
  /-- ROM_PHASE_END (R473). The boot ROM chooses a bank, and the hub becomes ready for configuration. -/
  | romPhaseEnd
  /-- SECURE_PHASE_END (R472). The chosen image is verified and PCF starts. -/
  | securePhaseEnd
  /-- SETTINGS_PHASE_END (R485). Layers and write-once records are read and the stored values fixed. -/
  | settingsPhaseEnd
  /-- DIE_DISCOVERY_TIMEOUT (R476). A C-die that does not answer discovery within 5 ms is failed at start. -/
  | dieDiscoveryTimeout (d : DieNo)
  /-- DIES_PHASE_END (R476). Dies are discovered, links tested and routes computed. -/
  | diesPhaseEnd
  /-- STACKS_PHASE_END (R477). Retirement, repair, training and zero-fill of the stacks are done. -/
  | stacksPhaseEnd
  /-- READY_TRANSITION (R469). Start-up completes: READY, the start report and FW_READY are set in one cycle. -/
  | readyTransition
  /-- START_WATCHDOG_EXPIRY (R474). READY is not reached 10 s after reset release, so the start fails and may fall back to the confirmed bank. -/
  | startWatchdogExpiry
  /-- SFC_READ (R493). Copies a flash page into SFC_BUF. -/
  | sfcRead
  /-- SFC_PROGRAM (R493). Programs SFC_BUF into a flash page, unless the page is protected. -/
  | sfcProgram
  /-- SFC_ERASE (R493). Erases a flash block, unless the block is protected. -/
  | sfcErase
  /-- SFC_REBOOT (R495). In RECOVERY, verifies both banks, writes a boot record and returns to phase ROM. -/
  | sfcReboot
  /-- SFC_COMMAND_COMPLETE (R493). A flash command ends and BUSY clears. -/
  | sfcCommandComplete (flashError : Bool)
  /-- CLEAT_CHARACTER (R498). A character is received and checked, then address-matched or routed. -/
  | cleatCharacter (c : BitVec 9) (framing parity : Bool)
  /-- CLEAT_BREAK (R498). The line held low for two character times is a break. -/
  | cleatBreak
  /-- CLEAT_GAP_EXPIRY (R510). More than 4 character times pass within a frame, so it is discarded. -/
  | cleatGapExpiry
  /-- CLEAT_REQUEST (R511). A complete REQUEST from the bus is served as a PF request. -/
  | cleatRequest
  /-- CLEAT_TWIN_FRAME (R513). A TWIN frame from the peer is taken by the twin unit. -/
  | cleatTwinFrame
  /-- CLAIM (R515). A CLAIM for the node's own address is answered with CLAIM_REPLY. -/
  | claim
  /-- CLAIM_REPLY (R515). A frame carrying the node's own SRC reveals a duplicate address. -/
  | claimReply
  /-- CLEAT_TRANSMIT_START (R504). After the bus wait, the transmitter sends a whole frame. -/
  | cleatTransmitStart (collision : Bool)
  /-- CLEAT_TX_DATA_WRITE (R501). A character enters the transmit FIFO, or is dropped when it is full. -/
  | cleatTxDataWrite (host : Option (Word × BitVec 4))
  /-- CLEAT_RX_DATA_READ (R501). Returns the oldest received character and pops it where allowed. -/
  | cleatRxDataRead (host : Option (BitVec 4))
  /-- CLEAT_SEND (R501). Writing CLEAT_CTRL.SEND releases the transmit FIFO's characters. -/
  | cleatSend (host : Option (Word × BitVec 4))
  /-- CE_WINDOW_END (R528). A corrected-error counting window ends and the counts restart. -/
  | ceWindowEnd
  /-- COALESCE_HOLD_END (R522). A coalescing hold ends, writing one record for held occurrences. -/
  | coalesceHoldEnd (log : FnNo) (code : Nat)
  /-- BYPASS (R538). The JTAG BYPASS instruction. -/
  | bypass
  /-- IDCODE (R538). The JTAG IDCODE instruction. -/
  | idcode
  /-- SAMPLE_PRELOAD (R538). The JTAG SAMPLE/PRELOAD instruction. -/
  | samplePreload (value : Word)
  /-- EXTEST (R538). The JTAG EXTEST instruction drives the covered balls. -/
  | extest
  /-- CLAMP (R538). The JTAG CLAMP instruction. -/
  | clamp
  /-- HIGHZ (R538). The JTAG HIGHZ instruction. -/
  | highz
  /-- CORRUPTED_FLIT (R338). A Lenot flit arrives with a CRC that does not match, or with a good CRC and a reserved KIND; it is discarded whole, counted, and puts the receiver in the gap state. -/
  | corruptedFlit (p : PortNo) (bits : List (Fin 2048))
  /-- DISCARDED_FRAME (R366). A Hawser frame arrives without a zero syndrome, with a failing CRC, or usable with a reserved KIND; it is discarded, counted, puts the receiver in the gap state and after 8 in a row raises RBURST. -/
  | discardedFrame (p : HwNo) (line : HwsLine)
  /-- PCF_RESTART_FW_READY (R65). The restarted PCF becomes ready: it sets FW_READY again and writes OP_DONE with WRONG_STATE, DETAIL 0xFFFF for each ACCEPTED operation that the restart ended. -/
  | pcfRestartFwReady
  /-- VDD_AON_RECOVERY (R544). VDD_AON has been back within its range for 1 ms after a brown-out, so the package leaves reset, latches its straps and starts again. -/
  | vddAonRecovery (rstSel : Bool) (tmode : BitVec 2)
  /-- REFCLK25_RETURN (R545). REFCLK25 has been back within its limits for 1 ms after a loss, so the package leaves the reset it held itself in and starts again. -/
  | refclk25Return (rstSel : Bool) (tmode : BitVec 2)
  /-- RESET_PHASE_END (R467). The always-on supply and the 25 MHz reference have settled, phase RESET ends and the boot ROM begins phase ROM. -/
  | resetPhaseEnd
  /-- CLEAT_CTS_CHANGE (R503). CLEAT_CTS_N changes level; while flow control is enabled, a low level lets a waiting transmitter start its next character. -/
  | cleatCtsChange (low : Bool)
  deriving DecidableEq, Repr

end Sys2Proof
end

