-- ==== Sys2Proof/Decode.lean ====
section
/-!
DEFINITION. The decoder of the opcode table's bits. The block has no instruction encoding, and no row of its table gives bits.
-/

namespace Sys2Proof

/-- The command that a word spells by the table's bits: none, since no row gives any. -/
def decodeTableWord (_nbits _w : Nat) : Option Instr := none

end Sys2Proof
end

