-- ==== Sys2Proof/Config.lean ====
section
/-!
DEFINITION. What the spec leaves open and the model leaves free: constants without a body, so that nothing can be proved of
their values (log entry 1).
-/

namespace Sys2Proof

/-- A free 64-bit value for each free choice, numbered by `State.free`. -/
opaque Config.freeWord : Nat → DWord

/-- The token that a session's network selects after a list of tokens (R107), by the session's seed. -/
opaque Config.selectToken : Nat → List Nat → Nat

/-- The stop token of a network of a bundle, by the bundle's digest (R101, R107). -/
opaque Config.stopToken : List (BitVec 8) → Nat → Nat

/-- The bits of a Lenot lane's scrambler seed above its logical number, by receiving port and bundle (R337). -/
opaque Config.lntSeed : Nat → Nat → BitVec 19

/-- The trained scrambler seed of a Hawser port's lane in the direction that it sends (R365). -/
opaque Config.hwsSeed : Nat → Nat → BitVec 31

end Sys2Proof
end

