-- ==== Sys2Proof/Machine/Catalogue.lean ====
section
/-!
DEFINITION. The settings catalogue: every setting identifier that a chapter of the spec defines, with its class, default
and range (R77, R79, R496).
-/

namespace Sys2Proof.Machine

/-- SETTING_GET.CLASS (R77). -/
inductive SetClass where
  | immediate | rolling | restart
  deriving DecidableEq, Repr

/-- One catalogue entry. A value is in range when it is `off` (where given) or lies in [lo, hi] and is a multiple of `step`. -/
structure SettingDef where
  id : Nat
  cls : SetClass
  dflt : Nat
  lo : Nat
  hi : Nat
  step : Nat := 1
  off : Option Nat := none
  writeOnce : Bool := false
  /-- LOCKED in the factory layer by the catalogue itself (R496) -/
  locked : Bool := false
  deriving DecidableEq, Repr

/-- Identifiers used by name elsewhere. -/
abbrev idFwNextBank : Nat := 0x0010
abbrev idStartDegraded : Nat := 0x0011
abbrev idPkgMode : Nat := 0x0200
abbrev idSwapMaxDrain : Nat := 0x0202
abbrev idPrefillChunk : Nat := 0x0210
abbrev idStepTokens : Nat := 0x0211
abbrev idPrefillMin : Nat := 0x0212
abbrev idStepTarget : Nat := 0x0213
abbrev idRunaheadMax : Nat := 0x0215
abbrev idAdmqDepth : Nat := 0x0220
abbrev idRetryMin : Nat := 0x0221
abbrev idRetryMax : Nat := 0x0222
abbrev idPlaceSpill : Nat := 0x0223
abbrev idDecodeShareMax : Nat := 0x0224
abbrev idKvRowPages : Nat := 0x0230
abbrev idDecodeReservePm : Nat := 0x0231
abbrev idKvPoolMibKmode : Nat := 0x0232
abbrev idClaimHoldCyc : Nat := 0x0300
abbrev idAtomMode : Nat := 0x0301
abbrev idAtomFarThresh : Nat := 0x0302
abbrev idHbmRefMode : Nat := 0x0310
abbrev idHbmWrBatch : Nat := 0x0311
abbrev idHbmSkinkShare : Nat := 0x0312
abbrev idHbmScrubHours : Nat := 0x0313
abbrev idHbmCeRetire : Nat := 0x0314
abbrev idPfRootDir : Nat := 0x0320
abbrev idXltPriTimeout : Nat := 0x0321
abbrev idLntReplayNs : Nat := 0x0330
abbrev idLntRetrainReplays : Nat := 0x0331
abbrev idLntSleepIdle : Nat := 0x0332
abbrev idHwsPkgId : Nat := 0x0340
abbrev idHwsDimX : Nat := 0x0341
abbrev idHwsDimY : Nat := 0x0342
abbrev idHwsDimZ : Nat := 0x0343
abbrev idHwsRateMax : Nat := 0x0344
abbrev idHwsReplayNs : Nat := 0x0345
abbrev idHwsRetrainReplays : Nat := 0x0346
abbrev idHwsSleepIdle : Nat := 0x0347
abbrev idHwsE2eTimeout : Nat := 0x0348
abbrev idTwinPairId : Nat := 0x0360
abbrev idTwinSide : Nat := 0x0361
abbrev idTwinDeadMs : Nat := 0x0362
abbrev idTwinShadowPm : Nat := 0x0363
abbrev idTwinCleatPeer : Nat := 0x0364
abbrev idTwinPairWait : Nat := 0x0365
abbrev idTntRowShare : Nat := 0x0370
abbrev idTntFreezeMax : Nat := 0x0371
abbrev idPwrCoreMhz : Nat := 0x0380
abbrev idPwrCgIdle : Nat := 0x0381
abbrev idPwrPgIdle : Nat := 0x0382
abbrev idPwrAwakeClusters : Nat := 0x0383
abbrev idPwrRetIdle : Nat := 0x0384
abbrev idPwrDeepAuto : Nat := 0x0385
abbrev idCleatNodeAddr : Nat := 0x0390
abbrev idCleatBaudDiv : Nat := 0x0391
abbrev idCleatParity : Nat := 0x0392
abbrev idCleatFlowEn : Nat := 0x0393
abbrev idCleatNoticeDest : Nat := 0x0394
abbrev idErrCeWindow : Nat := 0x03A0
abbrev idErrCeReport : Nat := 0x03A1
abbrev idErrNoticeMin : Nat := 0x03A2

/-- Inbound windows of R393: eight groups of three settings from 0x03C0, four identifiers apart. -/
def windowDefs : List SettingDef :=
  (List.range 8).flatMap fun w =>
    [ { id := 0x03C0 + 4 * w, cls := .immediate, dflt := 0, lo := 0, hi := 2 ^ 48 - 1, step := 65536 },
      { id := 0x03C1 + 4 * w, cls := .immediate, dflt := 0, lo := 0, hi := 2 ^ 48, step := 65536 },
      { id := 0x03C2 + 4 * w, cls := .immediate, dflt := 0, lo := 0, hi := 2 ^ 26 - 1 } ]

/-- Secure-boot, serving and session settings (R110, R119, R496). -/
def servingDefs : List SettingDef :=
  [ { id := 0x0001, cls := .immediate, dflt := 0, lo := 0, hi := 2 ^ 64 - 1, writeOnce := true },
    { id := 0x0002, cls := .immediate, dflt := 0, lo := 0, hi := 2 ^ 64 - 1, writeOnce := true },
    { id := 0x0003, cls := .immediate, dflt := 0, lo := 0, hi := 2 ^ 64 - 1, writeOnce := true },
    { id := 0x0004, cls := .immediate, dflt := 0, lo := 0, hi := 2 ^ 64 - 1, writeOnce := true },
    { id := 0x0008, cls := .immediate, dflt := 0, lo := 0, hi := 2 ^ 64 - 1, locked := true },
    { id := 0x0009, cls := .immediate, dflt := 0, lo := 0, hi := 2 ^ 64 - 1, locked := true },
    { id := 0x000A, cls := .immediate, dflt := 0, lo := 0, hi := 2 ^ 64 - 1, locked := true },
    { id := 0x000B, cls := .immediate, dflt := 0, lo := 0, hi := 2 ^ 64 - 1, locked := true },
    { id := 0x0010, cls := .restart, dflt := 0, lo := 0, hi := 1 },
    { id := 0x0011, cls := .restart, dflt := 1, lo := 0, hi := 1 },
    { id := 0x0200, cls := .restart, dflt := 1, lo := 0, hi := 2 },
    { id := 0x0202, cls := .immediate, dflt := 120000, lo := 1, hi := 600000 },
    { id := 0x0210, cls := .rolling, dflt := 256, lo := 64, hi := 2048 },
    { id := 0x0211, cls := .rolling, dflt := 1024, lo := 256, hi := 8192 },
    { id := 0x0212, cls := .rolling, dflt := 64, lo := 16, hi := 512 },
    { id := 0x0213, cls := .immediate, dflt := 30000, lo := 5000, hi := 200000 },
    { id := 0x0215, cls := .rolling, dflt := 4, lo := 0, hi := 8 },
    { id := 0x0220, cls := .immediate, dflt := 4096, lo := 64, hi := 16384 },
    { id := 0x0221, cls := .immediate, dflt := 20, lo := 1, hi := 1000 },
    { id := 0x0222, cls := .immediate, dflt := 5000, lo := 100, hi := 60000 },
    { id := 0x0223, cls := .immediate, dflt := 1, lo := 0, hi := 1 },
    { id := 0x0224, cls := .immediate, dflt := 75, lo := 25, hi := 100 },
    { id := 0x0230, cls := .restart, dflt := 44, lo := 8, hi := 128 },
    { id := 0x0231, cls := .immediate, dflt := 20, lo := 0, hi := 200 },
    { id := 0x0232, cls := .restart, dflt := 0, lo := 0, hi := 47104, step := 64 } ]

/-- Memory, translation and link settings (R286, R308, R334, R360, R399). -/
def linkDefs : List SettingDef :=
  [ { id := 0x0300, cls := .immediate, dflt := 64, lo := 0, hi := 512 },
    { id := 0x0301, cls := .immediate, dflt := 0, lo := 0, hi := 2 },
    { id := 0x0302, cls := .immediate, dflt := 4, lo := 1, hi := 7 },
    { id := 0x0310, cls := .restart, dflt := 0, lo := 0, hi := 1 },
    { id := 0x0311, cls := .immediate, dflt := 64, lo := 16, hi := 255 },
    { id := 0x0312, cls := .immediate, dflt := 4, lo := 0, hi := 16 },
    { id := 0x0313, cls := .immediate, dflt := 24, lo := 0, hi := 168 },
    { id := 0x0314, cls := .immediate, dflt := 16, lo := 1, hi := 255 },
    { id := 0x0320, cls := .immediate, dflt := 0, lo := 0, hi := 2 ^ 48 - 1, step := 65536 },
    { id := 0x0321, cls := .immediate, dflt := 1000, lo := 10, hi := 60000 },
    { id := 0x0330, cls := .immediate, dflt := 256, lo := 64, hi := 4096 },
    { id := 0x0331, cls := .immediate, dflt := 16, lo := 4, hi := 255 },
    { id := 0x0332, cls := .immediate, dflt := 2000, lo := 200, hi := 1000000, off := some 0 },
    { id := 0x0340, cls := .restart, dflt := 0, lo := 0, hi := 1023 },
    { id := 0x0341, cls := .restart, dflt := 1, lo := 1, hi := 8 },
    { id := 0x0342, cls := .restart, dflt := 1, lo := 1, hi := 8 },
    { id := 0x0343, cls := .restart, dflt := 1, lo := 1, hi := 16 },
    { id := 0x0344, cls := .restart, dflt := 0, lo := 0, hi := 1 },
    { id := 0x0345, cls := .immediate, dflt := 2000, lo := 500, hi := 32000 },
    { id := 0x0346, cls := .immediate, dflt := 16, lo := 4, hi := 255 },
    { id := 0x0347, cls := .immediate, dflt := 1000, lo := 200, hi := 1000000, off := some 0 },
    { id := 0x0348, cls := .immediate, dflt := 1000, lo := 100, hi := 100000 } ]

/-- Twin, tenant, power, Cleat and error settings (R422, R448, R465, R519, R539). -/
def systemDefs : List SettingDef :=
  [ { id := 0x0360, cls := .restart, dflt := 0, lo := 1, hi := 0xFFFFFFFF, writeOnce := true },
    { id := 0x0361, cls := .restart, dflt := 0, lo := 0, hi := 1, writeOnce := true },
    { id := 0x0362, cls := .immediate, dflt := 4, lo := 2, hi := 4 },
    { id := 0x0363, cls := .immediate, dflt := 500, lo := 0, hi := 1000 },
    { id := 0x0364, cls := .immediate, dflt := 0xFF, lo := 0, hi := 0xFF },
    { id := 0x0365, cls := .immediate, dflt := 60, lo := 1, hi := 3600 },
    { id := 0x0370, cls := .immediate, dflt := 75, lo := 0, hi := 100 },
    { id := 0x0371, cls := .immediate, dflt := 100, lo := 10, hi := 10000 },
    { id := 0x0380, cls := .immediate, dflt := 1500, lo := 400, hi := 1500, step := 25 },
    { id := 0x0381, cls := .immediate, dflt := 256, lo := 16, hi := 65535 },
    { id := 0x0382, cls := .immediate, dflt := 200, lo := 10, hi := 1000000, off := some 0 },
    { id := 0x0383, cls := .immediate, dflt := 0, lo := 0, hi := 8 },
    { id := 0x0384, cls := .immediate, dflt := 2000, lo := 100, hi := 10000000, off := some 0 },
    { id := 0x0385, cls := .immediate, dflt := 0, lo := 100, hi := 3600000, off := some 0 },
    { id := 0x0390, cls := .restart, dflt := 1, lo := 1, hi := 0xFE },
    { id := 0x0391, cls := .restart, dflt := 3, lo := 1, hi := 4095 },
    { id := 0x0392, cls := .restart, dflt := 0, lo := 0, hi := 2 },
    { id := 0x0393, cls := .restart, dflt := 0, lo := 0, hi := 1 },
    { id := 0x0394, cls := .immediate, dflt := 0, lo := 0, hi := 0xFF },
    { id := 0x03A0, cls := .immediate, dflt := 60, lo := 1, hi := 86400 },
    { id := 0x03A1, cls := .immediate, dflt := 64, lo := 1, hi := 65535 },
    { id := 0x03A2, cls := .immediate, dflt := 1, lo := 0, hi := 6 } ]

/-- The whole catalogue (R496). -/
def catalogue : List SettingDef := servingDefs ++ linkDefs ++ systemDefs ++ windowDefs

/-- The catalogue entry of an identifier. -/
def settingDef (id : Nat) : Option SettingDef := catalogue.find? (·.id == id)

/-- The catalogue default of an identifier; 0 for one that no chapter defines. -/
def settingDefault (id : Nat) : Nat := match settingDef id with
  | some d => d.dflt
  | none => 0

/-- Range check of R78: the value lies in the setting's range. -/
def settingInRange (d : SettingDef) (v : Nat) : Bool :=
  d.off == some v || (d.lo ≤ v && v ≤ d.hi && v % d.step == 0)

end Sys2Proof.Machine
end

