-- ==== Sys2Proof/Machine/RegMap.lean ====
section
/-!
DEFINITION. The register map: for each 32-bit register that holds a value of its own, its fields with their access codes
and reset values (R3, R35). A register is named by its PF BAR0 offset; the instance registers of VF n lie at
0x1000_0000 + n × 0x1_0000. Registers that only report other state are computed in `RegView.lean`.
-/

namespace Sys2Proof.Machine

/-- Access codes (R3). -/
inductive Access where
  | rw | ro | wo | w1c | w1s | rwl | w1o | rc
  deriving DecidableEq, Repr

/-- A field: bits [lo + width − 1 : lo]. `reserved` lists encodings that a write leaves without effect (R5). -/
structure Field where
  lo : Nat
  width : Nat
  acc : Access
  reset : Nat := 0
  reserved : List Nat := []
  deriving DecidableEq, Repr

/-- A register with one RC field over all of it, as every block counter is. -/
abbrev rc32 : List Field := [⟨0, 32, .rc, 0, []⟩]
/-- A register with one RO field over all of it, whose value the device stores. -/
abbrev ro32 : List Field := [⟨0, 32, .ro, 0, []⟩]
/-- A register of W1C bits 0 to n − 1. -/
abbrev w1cBits (n : Nat) : List Field := [⟨0, n, .w1c, 0, []⟩]

/-- PF BAR0 offset of the instance registers of function `n` (R35, R41). -/
def instBase (n : Nat) : Nat := if n = 0 then 0x2000 else 0x10000000 + n * 0x10000
abbrev mbxCtrlOff : Nat := 0x008
abbrev mbxTimeoutOff : Nat := 0x00C
abbrev mbxErrOff : Nat := 0x010
abbrev mbxStaleTagOff : Nat := 0x014
abbrev mbxStaleStatusOff : Nat := 0x018
abbrev mbxStaleCntOff : Nat := 0x01C
abbrev instIrqOff : Nat := 0x044

abbrev hubAperture : Nat := 0x1008
abbrev hubErr : Nat := 0x1010
abbrev hubErrAddrLo : Nat := 0x1014
abbrev hubErrAddrHi : Nat := 0x1018

/-- PF BAR0 offset of a register in the block window of C-die `d` (R35). -/
def dieReg (d off : Nat) : Nat := 0x800000 + d * 0x100000 + off

abbrev coreHangCnt : Nat := 0x2008
abbrev coreHangLast : Nat := 0x200C
abbrev coreSplitCnt : Nat := 0x2010
abbrev coreLszeroCnt : Nat := 0x2014
abbrev mtxJointCnt : Nat := 0x3000
abbrev mtxSoloCnt : Nat := 0x3004
abbrev mtxAppendCnt : Nat := 0x3008
abbrev mtxMalformedCnt : Nat := 0x300C
abbrev mtxBusyPm : Nat := 0x3010
abbrev ucReqbufPeak : Nat := 0x4008
abbrev ucHitCnt : Nat := 0x4010
abbrev ucMissCnt : Nat := 0x4014
abbrev ucAtomNearCnt : Nat := 0x4018
abbrev ucAtomFarCnt : Nat := 0x401C
abbrev ucHoldDeferCnt : Nat := 0x4020
abbrev ucDirEvictCnt : Nat := 0x4024
abbrev ucBypassCnt : Nat := 0x4028
abbrev ucInvalCnt : Nat := 0x402C
abbrev ucCoarseInvCnt : Nat := 0x4030
abbrev ucPredCtrl : Nat := 0x4034
abbrev hbmErr : Nat := 0x5008
abbrev hbmErrAddrLo : Nat := 0x500C
abbrev hbmErrAddrHi : Nat := 0x5010
abbrev hbmCeCnt : Nat := 0x5014
abbrev hbmUeCnt : Nat := 0x5018
abbrev hbmUnpopCnt : Nat := 0x501C
abbrev hbmTurnCnt : Nat := 0x5024
abbrev hbmConflictCnt : Nat := 0x5028
abbrev hbmSkinkPeak : Nat := 0x502C
abbrev hbmBwPm : Nat := 0x5030
abbrev hbmTemp : Nat := 0x5034
abbrev sesPoolEmptyCnt : Nat := 0x6010
abbrev sesWaitPageCnt : Nat := 0x6014
abbrev sesAppendDropCnt : Nat := 0x6018
abbrev sesErr : Nat := 0x601C
abbrev xltWalkCnt : Nat := 0x7000
abbrev xltBadPteCnt : Nat := 0x7004
abbrev xltFaultCnt : Nat := 0x7008
abbrev xltPriCnt : Nat := 0x700C
abbrev xltInvalCnt : Nat := 0x7010
abbrev xltLastFaultLo : Nat := 0x7018
abbrev xltLastFaultHi : Nat := 0x701C

/-- PF BAR0 offset of a register of Lenot port `p` of node `n`: C-dies 0 to 7, hub 8 (R335). -/
def lntReg (n p off : Nat) : Nat := if n < 8 then dieReg n (0x8000 + p * 0x400 + off) else 0x410000 + p * 0x400 + off
abbrev lntErrOff : Nat := 0x004
abbrev lntCrcCntOff : Nat := 0x008
abbrev lntReplayCntOff : Nat := 0x00C
abbrev lntTimerReplayCntOff : Nat := 0x010
abbrev lntDupCntOff : Nat := 0x014
abbrev lntRetrainCntOff : Nat := 0x018
abbrev lntPatCtrlOff : Nat := 0x080
abbrev lntPatBitsLoOff : Nat := 0x084
abbrev lntPatBitsHiOff : Nat := 0x088

/-- PF BAR0 offset of a register of Hawser port `p`. -/
def hwsReg (p off : Nat) : Nat := 0x430000 + p * 0x400 + off
abbrev hwsErrOff : Nat := 0x004
abbrev hwsLdpcFailCntOff : Nat := 0x008
abbrev hwsCrcCntOff : Nat := 0x00C
abbrev hwsDupCntOff : Nat := 0x010
abbrev hwsReplayCntOff : Nat := 0x014
abbrev hwsTimerReplayCntOff : Nat := 0x018
abbrev hwsWakeCntOff : Nat := 0x01C
abbrev hwsWakeFailCntOff : Nat := 0x020
abbrev hwsGainCtrlOff : Nat := 0x024
abbrev hwsDeniedCnt : Nat := 0x43200C
abbrev hwsE2eTmoCnt : Nat := 0x432010
abbrev hwsDiscardCnt : Nat := 0x432014

abbrev srvAdmqPeak : Nat := 0x42000C
abbrev twnMirrorLostCnt : Nat := 0x44001C
abbrev twnPromotedCnt : Nat := 0x440020
abbrev twnFenceBadCnt : Nat := 0x440024
abbrev twnRelocatedCnt : Nat := 0x440028
abbrev tntLogSync : Nat := 0x450000
abbrev tntLogMissCnt : Nat := 0x450018
abbrev pwrErr : Nat := 0x460024
abbrev pwrTripCnt : Nat := 0x460028
abbrev pwrDroopLast : Nat := 0x46002C
abbrev pwrWakeCnt : Nat := 0x460030
abbrev staLockErr : Nat := 0x470010
abbrev staLockAddr : Nat := 0x470014
abbrev staTestCtrl : Nat := 0x470018
abbrev sfcAddr : Nat := 0x471000
abbrev sfcStatus : Nat := 0x471008
abbrev cleatCtrl : Nat := 0x480000
abbrev cleatBaud : Nat := 0x480004
abbrev cleatFmt : Nat := 0x480008
abbrev cleatAddrMatch : Nat := 0x48000C
abbrev cleatFlow : Nat := 0x480010
abbrev cleatErr : Nat := 0x480018
abbrev cleatFrameCnt : Nat := 0x480024
abbrev cleatCollCnt : Nat := 0x480028
abbrev cleatDupCnt : Nat := 0x48002C
abbrev cleatDropCnt : Nat := 0x480030
abbrev errCeTotal : Nat := 0x490008
abbrev errUeTotal : Nat := 0x49000C
abbrev errNoticeDrop : Nat := 0x490010

/-- Instance registers (chapter 02). -/
def instFields : Nat → List Field
  | 0x008 => [⟨1, 1, .rw, 1, []⟩, ⟨0, 1, .rw, 1, []⟩]
  | 0x00C => [⟨0, 24, .rw, 0x0186A0, []⟩]
  | 0x010 => w1cBits 2
  | 0x014 => ro32
  | 0x018 => ro32
  | 0x01C => [⟨0, 16, .rc, 0, []⟩]
  | 0x044 => w1cBits 3
  | _ => []

/-- HUB block (chapter 02). -/
def hubFields : Nat → List Field
  | 0x008 => [⟨0, 12, .rw, 0, []⟩]
  | 0x010 => w1cBits 5
  | 0x014 => ro32
  | 0x018 => ro32
  | _ => []

/-- Lenot port registers (chapter 14). Bits 31 and 29:26 of LNT_PAT_CTRL take only the patterns 1 to 4; the rule that ties
ENABLE to PATTERN is in the write itself. -/
def lntFields (off : Nat) : List Field :=
  match off with
  | 0x004 => w1cBits 8
  | 0x008 => rc32
  | 0x00C => rc32
  | 0x010 => rc32
  | 0x014 => rc32
  | 0x018 => rc32
  | 0x080 => [⟨31, 1, .rw, 0, []⟩, ⟨26, 4, .rw, 0, []⟩, ⟨8, 18, .rw, 0, []⟩, ⟨0, 8, .rw, 0, []⟩]
  | 0x084 => ro32
  | 0x088 => ro32
  | _ => if 0x060 ≤ off && off < 0x080 then ro32 else if 0x100 ≤ off && off < 0x340 then rc32 else []

/-- Hawser port registers (chapter 15). -/
def hwsFields : Nat → List Field
  | 0x004 => w1cBits 12
  | 0x008 => rc32
  | 0x00C => rc32
  | 0x010 => rc32
  | 0x014 => rc32
  | 0x018 => rc32
  | 0x01C => rc32
  | 0x020 => rc32
  | 0x024 => [⟨31, 1, .rw, 0, []⟩, ⟨0, 6, .rw, 0, [61, 62, 63]⟩]
  | 0x040 => rc32
  | 0x044 => rc32
  | 0x048 => rc32
  | 0x04C => rc32
  | 0x050 => ro32
  | 0x054 => ro32
  | _ => []

/-- Block registers of a C-die window below the Lenot ports (chapters 05, 07, 09, 11, 12, 13). -/
def dieFields : Nat → List Field
  | 0x2008 => rc32
  | 0x200C => ro32
  | 0x2010 => rc32
  | 0x2014 => rc32
  | 0x3000 => rc32
  | 0x3004 => rc32
  | 0x3008 => rc32
  | 0x300C => rc32
  | 0x3010 => [⟨0, 10, .ro, 0, []⟩]
  | 0x4008 => [⟨0, 10, .rc, 0, []⟩]
  | 0x4010 => rc32
  | 0x4014 => rc32
  | 0x4018 => rc32
  | 0x401C => rc32
  | 0x4020 => rc32
  | 0x4024 => rc32
  | 0x4028 => rc32
  | 0x402C => rc32
  | 0x4030 => rc32
  | 0x5008 => w1cBits 5
  | 0x500C => ro32
  | 0x5010 => [⟨0, 16, .ro, 0, []⟩]
  | 0x5014 => rc32
  | 0x5018 => rc32
  | 0x501C => rc32
  | 0x5024 => rc32
  | 0x5028 => rc32
  | 0x502C => [⟨0, 7, .rc, 0, []⟩]
  | 0x5030 => [⟨16, 10, .ro, 0, []⟩, ⟨0, 10, .ro, 0, []⟩]
  | 0x5034 => [⟨0, 8, .ro, 0, []⟩]
  | 0x6010 => rc32
  | 0x6014 => rc32
  | 0x6018 => rc32
  | 0x601C => w1cBits 4
  | 0x7000 => rc32
  | 0x7004 => rc32
  | 0x7008 => rc32
  | 0x700C => rc32
  | 0x7010 => rc32
  | 0x7018 => ro32
  | 0x701C => ro32
  | _ => []

/-- Hub block window registers outside the ports (chapters 04, 15 to 21). -/
def hubWindowFields : Nat → List Field
  | 0x42000C => [⟨0, 16, .rc, 0, []⟩]
  | 0x43200C => rc32
  | 0x432010 => rc32
  | 0x432014 => rc32
  | 0x44001C => rc32
  | 0x440020 => rc32
  | 0x440024 => rc32
  | 0x440028 => rc32
  | 0x450000 => ro32
  | 0x450018 => rc32
  | 0x460024 => w1cBits 2
  | 0x460028 => [⟨0, 16, .ro, 0, []⟩]
  | 0x46002C => ro32
  | 0x460030 => rc32
  | 0x470010 => w1cBits 1
  | 0x470014 => ro32
  | 0x470018 => [⟨31, 1, .w1s, 0, []⟩, ⟨0, 1, .rwl, 0, []⟩]
  | 0x471000 => [⟨0, 26, .rw, 0, []⟩]
  | 0x471008 => [⟨1, 3, .w1c, 0, []⟩]
  | 0x480000 => [⟨5, 1, .rw, 0, []⟩, ⟨3, 1, .rw, 1, []⟩, ⟨2, 1, .rw, 1, []⟩, ⟨1, 1, .rw, 1, []⟩, ⟨0, 1, .rw, 1, []⟩]
  | 0x480004 => [⟨0, 12, .rw, 3, []⟩]
  | 0x480008 => [⟨2, 2, .rw, 0, [3]⟩, ⟨1, 1, .rw, 0, []⟩, ⟨0, 1, .rw, 1, []⟩]
  | 0x48000C => [⟨18, 1, .rw, 1, []⟩, ⟨17, 1, .rw, 1, []⟩, ⟨8, 8, .rw, 0xFF, []⟩, ⟨0, 8, .rw, 1, []⟩]
  | 0x480010 => [⟨31, 1, .rw, 0, []⟩, ⟨30, 1, .rw, 0, []⟩, ⟨8, 7, .rw, 0x10, []⟩, ⟨0, 7, .rw, 0x30, []⟩]
  | 0x480018 => w1cBits 8
  | 0x480024 => rc32
  | 0x480028 => rc32
  | 0x48002C => rc32
  | 0x480030 => rc32
  | 0x490008 => rc32
  | 0x49000C => rc32
  | 0x490010 => rc32
  | _ => []

/-- The fields of the register at a PF BAR0 offset; an unlisted offset is reserved (R35). -/
def fieldsAt (a : Nat) : List Field :=
  if 0x10000000 ≤ a then instFields (a % 0x10000)
  else if 0x1000 ≤ a && a < 0x1100 then hubFields (a - 0x1000)
  else if 0x2000 ≤ a && a < 0x2100 then instFields (a - 0x2000)
  else if 0x410000 ≤ a && a < 0x411000 then lntFields ((a - 0x410000) % 0x400)
  else if 0x430000 ≤ a && a < 0x432000 then hwsFields ((a - 0x430000) % 0x400)
  else if 0x400000 ≤ a && a < 0x800000 then hubWindowFields a
  else if 0x800000 ≤ a && a < 0x1000000 then
    let o := (a - 0x800000) % 0x100000
    if 0x8000 ≤ o && o < 0x8C00 then lntFields ((o - 0x8000) % 0x400) else dieFields o
  else []

/-- The value of a field list at reset. -/
def resetWord : List Field → Nat
  | [] => 0
  | f :: fs => (f.reset % 2 ^ f.width) * 2 ^ f.lo + resetWord fs

/-- The reset value of the register at a PF BAR0 offset. -/
def regReset (a : Nat) : Word := BitVec.ofNat 32 (resetWord (fieldsAt a))

end Sys2Proof.Machine
end

