-- ==== Sys2Proof/Machine/State.lean ====
section
/-!
DEFINITION. The state of the PX8 block, all of it: every register, table, queue and mode that the spec gives the package,
as plain data, and the queue of commands that wait.
-/

namespace Sys2Proof.Machine

/-! ### The part, its fuses, straps and supplies (chapters 01, 19, 22) -/

/-- The ordering code of the package (R1, R24). -/
inductive Variant where
  | h3 | h2
  deriving DecidableEq, Repr

/-- Values fixed at Grellimbe test (R24 to R27, R472, R474, R484). The spec gives no value for a given part:
each default is a DESIGN CHOICE (log entry 3). -/
structure Fuses where
  variant : Variant := .h3
  serial : DWord := 0
  hubRevMinor : BitVec 4 := 0
  lotTrace : BitVec 20 := 0
  assy : Word := 0
  dieRevMinor : Tab (BitVec 4) := []
  /-- HUB_SEC_STATUS.FUSED_MIN; raised when an image is confirmed (R474) -/
  fusedMin : Nat := 0
  /-- the factory digest of R484 -/
  factoryDigest : List Byte := []
  /-- the Grellimbe firmware-key hash of R472 -/
  fwKeyHash : List Byte := []
  /-- fused lane maps, LNT_FUSE_MAP, keyed 32·port + bundle (R355) -/
  laneMaps : Tab Word := []
  deriving DecidableEq, Repr

/-- Start-up phases with the codes of HUB_STATUS.START_PHASE (R467). -/
inductive Phase where
  | reset | rom | secure | settings | dies | stackIds | service | ready | recovery | failed
  deriving DecidableEq, Repr

/-- STA_START_REPORT.RESULT (R469). -/
inductive StartResult where
  | inProgress | complete | degraded | failed
  deriving DecidableEq, Repr

/-- The start sequence and the secure boot state (chapter 19). -/
structure Start where
  phase : Phase := .reset
  pcfRunning : Bool := false
  /-- the hub answers configuration requests (R31, R468) -/
  hubReady : Bool := false
  result : StartResult := .inProgress
  userTorn : Bool := false
  /-- user layer in force: 0 none, 1 A, 2 B (R482) -/
  userBank : Nat := 0
  fwFallback : Bool := false
  /-- bank running: false A, true B -/
  bank : Bool := false
  /-- C-dies that PCF has discovered (R26) -/
  discovered : BitVec 8 := 0
  stacksFailed : BitVec 8 := 0
  diesFailed : BitVec 8 := 0
  failCode : BitVec 8 := 0
  /-- HUB_TIME at reset release, and STA_START_TIME in µs -/
  releasedAt : Nat := 0
  startTime : Nat := 0
  setIgnored : Nat := 0
  confirmed : Bool := false
  secVersion : Nat := 0
  /-- the start watchdog of R474 is running -/
  watchdog : Bool := false
  /-- firmware build number of the running image (R471) -/
  fwBuild : Half := 0
  /-- PCF restarts, and has not set FW_READY again (R54, R65) -/
  restarting : Bool := false
  deriving DecidableEq, Repr

/-- Supplies, reset sources, straps and management outputs (chapter 22). -/
structure Board where
  powered : Bool := true
  /-- RESET_N held low -/
  resetN : Bool := false
  brownout : Bool := false
  refclkLost : Bool := false
  /-- straps latched at reset release -/
  rstSel : Bool := false
  tmode : BitVec 2 := 0
  /-- THERM_SHDN_N driven low (R464, R547) -/
  thermShdn : Bool := false
  deriving DecidableEq, Repr

/-- CDIE_IDn.STATE (R26). -/
inductive DieCond where
  | notDiscovered | inService | quarantined | failedAtStart
  deriving DecidableEq, Repr

/-- STACK_IDn.STATE (R26, R306). -/
inductive StackCond where
  | notTrained | inService | failed
  deriving DecidableEq, Repr

/-- STACK_IDn as read from the stack (R26). -/
structure StackId where
  cond : StackCond := .notTrained
  mfr : BitVec 8 := 0
  height : BitVec 4 := 0
  density : BitVec 4 := 0
  repairs : Nat := 0
  deriving DecidableEq, Repr

/-! ### Host attachment: functions, MSI-X, mailboxes (chapter 02) -/

/-- PCIe configuration state of one function (R30 to R33). -/
structure PcieFn where
  memSpace : Bool := false
  msixEnable : Bool := false
  msixMask : Bool := false
  ats : Bool := false
  pri : Bool := false
  pasid : Bool := false
  d3hot : Bool := false
  /-- Max Payload Size and Max Read Request Size as codes (128 bytes shifted left), tag enables, ASPM L1 enable (R30): PCIe's
  own reset values (log entry 47) -/
  mps : Nat := 0
  mrrs : Nat := 2
  extTag : Bool := false
  tenBitTag : Bool := false
  aspmL1 : Bool := false
  deriving DecidableEq, Repr

/-- The PCIe attachment (R29 to R44, R526). `msix` holds table bytes, keyed 0x8000·function + offset;
`pending` the pending bits, keyed 0x1000·function + vector. -/
structure Pcie where
  fns : Tab PcieFn := []
  vfEnable : Bool := false
  numVFs : Nat := 0
  /-- BAR2 size: 64 GiB shifted left by this code, 0 to 3 (R34) -/
  bar2Code : Nat := 0
  /-- address bits written to PF BAR0 to BAR5, and to VF BAR0 to BAR5 of the SR-IOV capability (R34) -/
  bars : Tab Word := []
  vfBars : Tab Word := []
  /-- System Page Size of the SR-IOV capability: 4 KiB shifted left by this code (R30) -/
  pageSize : Nat := 0
  aerCorMask : Bool := true
  aerUncMask : Bool := true
  aerUncFatal : Bool := true
  aerCorStatus : Bool := false
  aerUncStatus : Bool := false
  msix : Tab Byte := []
  pending : Tab Bool := []
  deriving DecidableEq, Repr

/-- MBX_STATUS.STATE (R47). -/
inductive MbxState where
  | idle | busy | done | timeout
  deriving DecidableEq, Repr

/-- A response of PCF: STATUS, DETAIL and payload (R45, R60). -/
structure Resp where
  status : Nat
  detail : Nat := 0
  payload : List Byte := []
  deriving DecidableEq, Repr

/-- The frame header of a request, as copied from the request window (R45, R48). -/
structure Hdr where
  opcode : Nat := 0
  tag : Half := 0
  length : Nat := 0
  flags : Word := 0
  deriving DecidableEq, Repr

/-- A request that PCF holds, with its SEQ; `answer` is set when the command has ended (R50, R51, R65). -/
structure Held where
  seq : Half
  hdr : Hdr
  payload : List Byte
  answer : Option Resp := none
  deriving DecidableEq, Repr

/-- One mailbox (R45 to R54). `outstanding` is the request that the hub matches responses against; `doneAt` is HUB_TIME at the last
matching response, for a CANCEL in the same always-on cycle (R52). -/
structure Mailbox where
  state : MbxState := .idle
  doneAt : Option Nat := none
  seq : Half := 0
  fwReady : Bool := false
  outstanding : Option (Half × Half) := none
  timer : Bool := false
  reqWin : Tab Byte := []
  respWin : Tab Byte := []
  held : List Held := []
  deriving DecidableEq, Repr

/-- An event ring in host memory (R67). -/
structure EvRing where
  addr : Nat
  entries : Nat
  next : Word := 1
  deriving DecidableEq, Repr

/-- Who asked for an ACCEPTED operation, and with which SEQ, TAG and opcode (R66). Issuer 64 is the Cleat port (R511). -/
structure OpId where
  issuer : Nat
  seq : Half
  tag : Half
  opcode : Nat
  deriving DecidableEq, Repr

/-! ### Settings, epochs and the flash (chapters 03, 19) -/

/-- The settings epoch (R80 to R82). -/
structure Epoch where
  issuing : Word := 1
  target : Word := 1
  /-- 0 stable, 1 staging, 2 retiring -/
  phase : Nat := 0
  /-- C-dies that have staged the target -/
  staged : BitVec 8 := 0
  /-- C-dies taking part -/
  part : BitVec 8 := 0
  /-- C-dies still holding the old epoch's values in PHASE 2, and bit 8 for the hub -/
  retiring : BitVec 9 := 0
  /-- the values being staged (PHASE 1) -/
  staging : List (Nat × Nat) := []
  /-- the values of the old epoch (PHASE 2) -/
  old : List (Nat × Nat) := []
  deriving DecidableEq, Repr

/-- Run-time settings (R79, R485, R489). `run` lists the values that differ from the catalogue default;
`written` the write-once settings that count as written. -/
structure Settings where
  run : Tab Nat := []
  written : List Nat := []
  epoch : Epoch := {}
  /-- IMMEDIATE serving tunables that take effect at the next step boundary (R110) -/
  due : Tab Nat := []
  deriving DecidableEq, Repr

/-- The settings flash die (R481 to R495): its bytes, keyed by flash offset; an unlisted byte reads 0xFF, as erased. -/
structure Flash where
  bytes : Tab Byte := []
  /-- background erase of a superseded user layer: its flash offset (R486) -/
  erasing : Option Nat := none
  deriving DecidableEq, Repr

/-- The command that the flash controller runs (R493). -/
structure SfcCmd where
  cmd : Nat
  addr : Nat
  deriving DecidableEq, Repr

/-- The flash controller; its registers are in `regs`. `buf` is SFC_BUF. -/
structure Sfc where
  running : Option SfcCmd := none
  buf : Tab Byte := []
  deriving DecidableEq, Repr

/-! ### Serving mode: bundle, turns, steps (chapter 04) -/

/-- A network of a bundle with its attention descriptor (R93, R116). -/
structure Network where
  kind : Nat := 0
  maxTokens : Nat := 0
  offset : Nat := 0
  bytes : Nat := 0
  kvBytesToken : Nat := 0
  layers : Nat := 0
  vocab : Nat := 0
  kvHeads : Nat := 0
  qHeads : Nat := 0
  headDim : Nat := 0
  kvFormat : Nat := 0
  deriving DecidableEq, Repr

/-- A verified bundle (R93 to R96). -/
structure Bundle where
  handle : Nat
  dpa : Nat
  bytes : Nat
  repl : Nat
  nets : List Network
  digest : List Byte
  deriving DecidableEq, Repr

/-- A running BUNDLE_LOAD; `replicating` once verification has passed with no active bundle (R74, R94, R95). -/
structure LoadOp where
  op : OpId
  handle : Nat
  dpa : Nat
  bytes : Nat
  repl : Nat
  replicating : Option Bundle := none
  deriving DecidableEq, Repr

/-- Where a swap stands (R97, R99): `accepted` until the step boundary at which its first drain begins. `drainAll` and `loadAll` belong to
the swap away from a factor-1 bundle. -/
inductive SwapStage where
  | accepted | drainA | loadA | drainB | loadB | drainAll | loadAll
  deriving DecidableEq, Repr

/-- A running BUNDLE_SWAP (R97 to R99). `expired` is set when MAX_DRAIN_MS has passed for the draining half,
so that the next step boundary retires the sessions that remain (R98). -/
structure SwapOp where
  op : OpId
  bundle : Bundle
  drainMs : Nat
  stage : SwapStage
  expired : Bool := false
  /-- the image has been read whole, and its digest held (R95) -/
  written : Bool := false
  /-- the half is loaded, and begins serving at the next step boundary (R97) -/
  loaded : Bool := false
  deriving DecidableEq, Repr

/-- A turn that has been accepted (R101, R102): the command that carries it, the prompt, and how far it has got. -/
structure Turn where
  queue : Nat
  index : Nat
  /-- its place in the order of arrival at the admission queue (R106) -/
  order : Nat := 0
  prompt : List Nat
  /-- prompt tokens appended so far -/
  pos : Nat := 0
  /-- the first chunk has been placed in a step, so the turn has left the admission queue -/
  admitted : Bool := false
  outVA : Nat
  outMax : Nat
  progressVA : Nat
  asid : Nat
  written : Nat := 0
  /-- the next decode entry's input token, once the prompt is appended -/
  nextTok : Option Nat := none
  deriving DecidableEq, Repr

/-- One entry of a step (R106): a decode entry carries its input token and drafts, a chunk the tokens it appends. -/
structure StepEntry where
  session : Nat
  /-- the session's GEN in this step -/
  gen : Half
  decode : Bool
  tokens : List Nat
  deriving DecidableEq, Repr

/-- The step in flight (R105). -/
structure Step where
  epoch : Word
  /-- HUB_TIME at its start -/
  start : Nat
  entries : List StepEntry
  deriving DecidableEq, Repr

/-- The SRV block's live counters (R114), in the order of the register map. -/
structure SrvCnt where
  steps : Nat := 0
  stepsLate : Nat := 0
  decodeTokens : Nat := 0
  prefillTokens : Nat := 0
  draftProposed : Nat := 0
  draftAccepted : Nat := 0
  turnsAdmitted : Nat := 0
  turnsOverloaded : Nat := 0
  createOverloaded : Nat := 0
  retired : Nat := 0
  waitPage : Nat := 0
  deriving DecidableEq, Repr

/-- Serving state of the package (chapter 04). `halfA` and `halfB` are the handles of the bundles that C0–C3 and C4–C7 hold. -/
structure Serving where
  /-- PKG_MODE in force (R92) -/
  mode : Nat := 0
  active : Option Bundle := none
  staged : Option Bundle := none
  load : Option LoadOp := none
  swap : Option SwapOp := none
  halfA : Option Bundle := none
  halfB : Option Bundle := none
  /-- PCF's next bundle handle -/
  nextHandle : Nat := 1
  /-- sessions whose turns wait in the admission queue, oldest first (R102) -/
  admq : List Nat := []
  /-- HUB_TIME at which turns left the queue, within the last 1 s (R104) -/
  left : List Nat := []
  /-- sessions whose turns are in prefill, oldest first (R106) -/
  prefill : List Nat := []
  /-- turns that have arrived at the admission queue -/
  arrivals : Nat := 0
  /-- M0 to M3 hold the transient copy of a factor-1 bundle (R99) -/
  transient : Bool := false
  /-- by stack: offsets of the retired pages that the replica placed last leaves out (R303) -/
  holes : Tab (List Nat) := []
  step : Option Step := none
  /-- sessions to be retired at the next step boundary (R438, R439) -/
  retire : List Nat := []
  /-- decode tokens of the last step, keyed by die (R103) -/
  lastDecode : Tab Nat := []
  stepUsLast : Nat := 0
  cnt : SrvCnt := {}
  snap : SrvCnt := {}
  snapSeq : Word := 0
  deriving DecidableEq, Repr

/-! ### Sessions, pools and merge units (chapter 05) -/

/-- SESSION_QUERY.STATE (R142). -/
inductive SessState where
  | free | active | waitPage | ending | shadow | frozen
  deriving DecidableEq, Repr

/-- A row of a pool: stack and row number (R117). -/
structure RowRef where
  stack : Nat
  row : Nat
  deriving DecidableEq, Repr

/-- Where an address lies after translation: device physical space, or host memory through a function's requester ID, with a
PASID where its requests carry one (R311, R316). -/
inductive Loc where
  | dev (dpa : Nat)
  | host (fn : Nat) (addr : Nat) (pasid : Option Nat := none)
  deriving DecidableEq, Repr

/-- A RESERVE that has not taken effect: what it asked for, its queue command, and the rows popped while their
zero-fill runs (R123, R124). -/
structure PendResv where
  cls : Nat
  stack : Nat
  f : Nat
  d : Nat
  queue : Nat
  index : Nat
  /-- 8-byte counter to increment when the reservation takes effect, as the command held it (R123, R328) -/
  counter : Option Loc := none
  rows : List Nat := []
  deriving DecidableEq, Repr

/-- A session's reservation (R125, R126). -/
inductive Resv where
  | none
  | opened
  /-- parked on a pool's wait list -/
  | pending (p : PendResv)
  /-- rows popped, zero-fill running -/
  | filling (p : PendResv)
  deriving DecidableEq, Repr

/-- One entry of the session table (R115, R125, R139, R142, R410). -/
structure Session where
  state : SessState := .free
  owner : Nat := 0
  network : Nat := 0
  net : Network := {}
  bundle : Nat := 0
  bundleDigest : List Byte := []
  sflags : Nat := 0
  home : Nat := 0
  maxTokens : Nat := 0
  userTag : Nat := 0
  c : Nat := 0
  f : Nat := 0
  t : Nat := 0
  gen : Half := 0
  /-- the model's own: names the session's own state, which its token selections depend on (log entry 1) -/
  seed : Nat := 0
  resv : Resv := .none
  /-- row-map entries that are VALID (R118) -/
  rowMap : Tab RowRef := []
  /-- row-map entries recorded as tentative rows of the open reservation -/
  tent : List Nat := []
  /-- mirrored cursor M and acknowledged cursor A (R139, R409) -/
  m : Nat := 0
  a : Nat := 0
  /-- mirroring of this session has stopped (R410, R530) -/
  mirrorLost : Bool := false
  /-- SH_OPEN has been sent for it in this pairing (R405) -/
  shOpen : Bool := false
  lastEpoch : Word := 0
  turn : Option Turn := none
  /-- the session's tokens so far: prompts and committed replies (R107) -/
  tokens : List Nat := []
  deriving DecidableEq, Repr

/-- The row pool of one stack (R119 to R124). `owner` holds each row's last owner plus one. -/
structure Pool where
  rows : Nat := 0
  free : List Nat := []
  wait : List Nat := []
  owner : Tab Nat := []
  deriving DecidableEq, Repr

/-- A partial record of one source (R136). -/
structure Partial where
  m : Word
  l : Word
  o : List Word
  deriving DecidableEq, Repr

/-- A cached translation (R319): the tag, the page's first VA and size, the leaf, and the tag's generation when it was cached. -/
structure TlbEntry where
  asid : Nat
  va : Nat
  size : Nat
  dpa : Nat
  w : Bool
  x : Bool
  pin : Bool
  gen : Nat := 0
  deriving DecidableEq, Repr

/-- A cached pointer entry (R319): the tag, the level of the table it points to, the first VA it serves, the table, and the tag's
generation when it was cached. -/
structure PtrEntry where
  asid : Nat
  level : Nat
  va : Nat
  table : Nat
  gen : Nat := 0
  deriving DecidableEq, Repr

/-- A host page that ATS has granted to a function, under a PASID where it uses one (R316, R324). -/
structure Grant where
  fn : Nat
  pasid : Option Nat
  page : Nat
  w : Bool
  deriving DecidableEq, Repr

/-- An armed merge slot (R135 to R138). `got` is keyed 8·vector + source. -/
structure MergeSlot where
  owner : Nat
  asid : Nat
  vectors : Nat
  headDim : Nat
  outFormat : Nat
  outVA : Nat
  stride : Nat
  masks : List Byte
  counterVA : Nat
  got : Tab Partial := []
  written : List Nat := []
  /-- the leaves that its addresses lie in (R323) -/
  leaves : List TlbEntry := []
  deriving DecidableEq, Repr

/-- The session table, the pools (keyed by stack) and the merge slots (keyed 64·die + slot). -/
structure Sess where
  table : Tab Session := []
  pools : Tab Pool := []
  slots : Tab MergeSlot := []
  deriving DecidableEq, Repr

/-! ### Engines and queues (chapter 06) -/

/-- A command's outcome; `error` marks an error record (R158, R160). -/
structure CmdRes where
  status : Nat
  detail : Nat := 0
  result : Nat := 0
  error : Bool := false
  deriving DecidableEq, Repr

/-- How far a fetched command has got (R150, R155, R156). -/
inductive CmdStage where
  | fetched
  | started
  /-- its effect has begun and has not ended (a WAIT, a LAUNCH, a TURN, a suspended COPY, an RWRITE) -/
  | running
  /-- its effects have taken place and its record is due -/
  | ended (r : CmdRes)
  deriving DecidableEq, Repr

/-- A fetched command: its 64 bytes, epoch stamp, the generations at fetch of the queue's tag and of the tag that a MERGE_ARM names, and
its addresses as translated then, by byte offset (none where a Copy Engine field is left for the fault path, R151). -/
structure Cmd where
  index : Nat
  bytes : List Byte
  epoch : Word
  gen : Nat
  namedGen : Nat := 0
  xl : List (Nat × Option Loc) := []
  /-- the leaves that it holds in the paged region from its start (R323, R328) -/
  leaves : List TlbEntry := []
  /-- host pages that ATS has granted while it runs (R324, R328) -/
  grants : List Grant := []
  /-- PRI Page Requests sent for it, by host page (R324) -/
  pri : Tab Nat := []
  stage : CmdStage := .fetched
  /-- the record's counter has already been incremented, or is left to another event (R143) -/
  counted : Bool := false
  deriving DecidableEq, Repr

/-- QUEUE_QUERY.STATE (R71). -/
inductive QState where
  | closed | opened | closing | stopped
  deriving DecidableEq, Repr

/-- A queue context (R145 to R159). Indices count modulo 2^32. -/
structure Queue where
  state : QState := .closed
  owner : Nat := 0
  slot : Nat := 0
  engine : Nat := 0
  inst : Nat := 0
  vector : Nat := 0xFFFF
  entries : Nat := 64
  ringVA : Nat := 0
  complVA : Nat := 0
  /-- the pinned mappings of ring and completion area, page by page (R149) -/
  ring : List Loc := []
  compl : List Loc := []
  /-- the leaves that ring and completion area lie in (R323) -/
  leaves : List TlbEntry := []
  asid : Nat := 0
  priority : Nat := 0
  head : Nat := 0
  tail : Nat := 0
  done : Nat := 0
  started : Nat := 0
  epoch : Word := 0
  errors : Nat := 0
  stopIndex : Nat := 0xFFFFFFFF
  dbRange : Bool := false
  /-- starts of higher-priority queues since this queue became ready (R175) -/
  passed : Nat := 0
  /-- commands fetched and not yet below DONE, in index order -/
  cmds : List Cmd := []
  /-- the oldest command that a stop or a close dropped, or that ended in an error record: DONE never passes it (R148) -/
  lost : Option Nat := none
  /-- the QUEUE_CLOSE that is draining this queue, and whether it aborts -/
  closeOp : Option OpId := none
  /-- fetching is held (a frozen tenant, a fatal stop): R434, R532 -/
  held : Bool := false
  deriving DecidableEq, Repr

/-- A running launch (R165 to R167, R199), of queue `queue` and command `index`. `next` holds, per die, the next block index
to start and the end of that die's range. -/
structure Launch where
  queue : Nat
  index : Nat
  entry : Nat
  param : Nat
  blocks : Nat
  groups : Nat
  granules : Nat
  lsConfig : Nat
  lsZero : Bool
  epoch : Word
  next : Tab (Nat × Nat) := []
  /-- blocks that have ended -/
  ended : Nat := 0
  /-- by die, block starts of higher-priority launches there since this launch became ready or last started one (R175) -/
  passed : Tab Nat := []
  /-- the launch is being stopped, and the error record that it ends with (R199) -/
  stopping : Option CmdRes := none
  deriving DecidableEq, Repr

/-- The engines: queues keyed by package queue number, running launches keyed by launch number. -/
structure Engines where
  queues : Tab Queue := []
  launches : Tab Launch := []
  nextLaunch : Nat := 0
  /-- round-robin: the queue served last, keyed 32·engine + instance (R175) -/
  lastServed : Tab Nat := []
  deriving DecidableEq, Repr
/-- Who waits on a device-memory location: a WAIT command, or an LDWAIT of one thread (R164, R261). -/
inductive Waiter where
  | cmd (queue index : Nat)
  | thread (core slot lane dst : Nat)
  deriving DecidableEq, Repr

/-- A wait on the 8 bytes at a location. `cond` is WAIT's COND, `seen` the value last read (R164, R261). -/
structure MemWait where
  who : Waiter
  loc : Loc
  cond : Nat
  value : Nat
  seen : Nat := 0
  /-- the VA of an LDWAIT, and the leaf that it goes through (R327) -/
  va : Nat := 0
  leaf : Option TlbEntry := none
  deriving DecidableEq, Repr


/-! ### The unified cache and its protocol (chapter 11) -/

/-- A line in a slice's data array: its way, the valid, dirty and poisoned sectors, the bytes. -/
structure UcLine where
  way : Nat
  valid : Nat
  dirty : Nat
  data : List Byte
  poison : Nat := 0
  deriving DecidableEq, Repr

/-- A line as a message carries it: its bytes, the dirty sectors, and the sectors that carry the poison mark (R285). -/
structure LineCopy where
  bytes : List Byte
  dirty : Nat := 0
  poison : Nat := 0
  deriving DecidableEq, Repr

/-- A directory state with an entry (R266); a line without an entry is in U. -/
inductive DirSt where
  | s (cores : List Nat)
  | coarse (clusters : Nat)
  | o (core : Nat)
  deriving DecidableEq, Repr

structure DirEnt where
  way : Nat
  st : DirSt
  deriving DecidableEq, Repr

/-- A valid predictor entry (R276). -/
structure PredEnt where
  tag : Nat
  last : Nat
  ctr : Nat
  deriving DecidableEq, Repr

/-- Who sends a request to a home: a core, or another agent (an engine command, BAR2, a merge unit, a remote write). -/
inductive Node where
  | home
  | core (c : Nat)
  | agent
  deriving DecidableEq, Repr

/-- The messages of R269, and `evict`, which is none of them: the home's own recall of a directory entry's copies (R268). Offsets are within
the line. -/
inductive MsgKind where
  | getS
  | getM
  | getMFull
  | atom (seq off : Nat) (op : AtomOp) (operand : List Byte)
  | red (seq off : Nat) (op : AtomOp) (fmt : RedFmt) (operand : List Byte)
  | farWrite (off : Nat) (bytes : List Byte)
  | cohRead (off size : Nat)
  | bypass (off : Nat) (bytes : List Byte)
  | inval (seq : Nat)
  | fwdS (req : Node)
  | fwdM (req : Node) (full : Bool)
  | recallLine
  | inv (ackTo : Node)
  | gnt (acks : Nat)
  | invAck
  | noline
  | atomRes (seq : Nat) (old : List Byte)
  | data (m : Bool) (acks : Nat) (copy : LineCopy)
  | wb (solicited : Bool) (copy : LineCopy)
  | unblock
  | wbDone
  | evict
  deriving DecidableEq, Repr

/-- A message in flight. -/
structure Msg where
  src : Node
  dst : Node
  line : Nat
  kind : MsgKind
  /-- TXN of the Lenot message that still carries it to another die (R340) -/
  txn : Option Nat := none
  /-- the receiving port, pool and slots that a REQ or FWD occupies until it is handled (R270, R343) -/
  buffer : Option (Nat × Nat × Nat) := none
  deriving DecidableEq, Repr

/-- An open transaction of a line (R267): the request, INV_ACKs that the home waits for, the owner whose answer it waits for,
what of that answer has come, and whether it closes at UNBLOCK. -/
structure Txn where
  req : Msg
  acks : Nat := 0
  owner : Option Nat := none
  wb : Bool := false
  noline : Bool := false
  /-- the owner answered with a WB of its own (R268) -/
  solicited : Bool := false
  unblock : Bool := false
  deriving DecidableEq, Repr

/-- The unified cache. Lines and directory entries are keyed by global line number (address ÷ 128); the replacement trees by
slice and set; the predictor by 1024 × slice + 4 × set + way. -/
structure Uc where
  lines : Tab UcLine := []
  plru : Tab Nat := []
  dir : Tab DirEnt := []
  dirPlru : Tab Nat := []
  pred : Tab PredEnt := []
  txns : Tab Txn := []
  /-- requests that wait for a busy line, in order of arrival -/
  waitq : List Msg := []
  /-- messages in flight -/
  msgs : List Msg := []
  /-- the TXN of the next message between dies -/
  nextTxn : Nat := 0
  deriving DecidableEq, Repr

/-! ### Cores (chapters 07 to 10) -/

/-- What a thread waits at (R192, R193, R236). -/
inductive WaitPoint where
  | converge (mask : Nat)
  | repack
  | bar
  /-- MMAJ: format codes, registers, scales -/
  | mmaj (fa fb d a b c : Nat) (sa sb : Option Nat)
  /-- MAPPEND: source registers, descriptor, rows -/
  | mappend (d desc rows : Nat)
  /-- LDWAIT, until its condition or its timeout (R261) -/
  | ldwait
  deriving DecidableEq, Repr

/-- A thread (R182, R185, R222): the address of its next instruction, the registers that are not zero, SR_FLAGS. -/
structure Thread where
  pc : Nat := 0
  regs : Tab Word := []
  flags : Nat := 0
  exited : Bool := false
  wait : Option WaitPoint := none
  /-- where the thread goes on once it is released -/
  resume : Nat := 0
  deriving DecidableEq, Repr

/-- A group resident on a core (R177, R197), by slot: the block it belongs to, its index in the block, its 64 threads. -/
structure Group where
  block : Nat
  index : Nat
  threads : Tab Thread := []
  hung : Bool := false
  /-- HUB_TIME of the last release of a wait of the group, which set its watchdog back (R10, R197) -/
  freed : Option Nat := none
  deriving DecidableEq, Repr

/-- A block resident on a core (R178, R179): its launch, its block index, its group slots and banks, and SR_CYCLES' start. -/
structure Block where
  launch : Nat
  index : Nat
  slots : List Nat
  banks : List Nat
  granules : Nat
  start : Nat := 0
  deriving DecidableEq, Repr

/-- An issue context (R186 to R190): its group's slot, its threads, the current thread and count, and the consecutive issues
made while it held two or more sets. -/
structure Ctx where
  slot : Nat
  threads : List Nat
  cur : Nat := 0
  count : Nat := 0
  divergent : Nat := 0
  deriving DecidableEq, Repr

/-- A bank B0 to B3 (R179, R183): its bytes, the tag of the last block that held it, and whether it has served as L1 data
cache since. -/
structure Bank where
  bytes : Tab Byte := []
  tag : Option Nat := none
  cached : Bool := false
  deriving DecidableEq, Repr

/-- A store in a core's store queue (R243): who issued it, the core's sequence number, the bytes, and the scope of a release. -/
structure QueuedStore where
  slot : Nat
  lane : Nat
  seq : Nat
  dpa : Nat
  bytes : List Byte
  rel : Option Scope
  va : Nat := 0
  /-- the leaf that it goes through (R327) -/
  leaf : Option TlbEntry := none
  deriving DecidableEq, Repr

/-- What an outstanding access of a thread does when it is performed. -/
inductive AccOp where
  | load (dst : Nat) (acquire : Bool)
  | atom (op : AtomOp) (operand : List Byte) (dst : Nat) (acquire : Bool)
  | red (op : AtomOp) (fmt : RedFmt) (operand : List Byte)
  | cinv
  deriving DecidableEq, Repr

/-- An access that a thread has issued and that has not been performed. -/
structure MemAcc where
  slot : Nat
  lane : Nat
  seq : Nat
  dpa : Nat
  size : Nat
  op : AccOp
  /-- a read of host memory: where it lies -/
  host : Option Loc := none
  va : Nat := 0
  /-- the leaf that it goes through (R327) -/
  leaf : Option TlbEntry := none
  deriving DecidableEq, Repr

/-- A line in an L1 (R266, R273): M or S, the dirty and the poisoned sectors, the bytes, whether it is in claim hold, and the messages that
wait for the hold's end. -/
structure L1Line where
  line : Nat
  m : Bool
  dirty : Nat := 0
  data : List Byte
  poison : Nat := 0
  hold : Bool := false
  deferred : List Msg := []
  deriving DecidableEq, Repr

/-- A request of an L1 for a line that has not been granted: which request, the INV_ACKs counted and expected, the grant once it
has arrived (M or not, and the line), and the access or store that caused it. -/
structure LineReq where
  line : Nat
  /-- 0 GETS, 1 GETM, 2 GETM_FULL, 3 ATOM, 4 RED or CINV at the home -/
  kind : Nat
  seq : Nat
  expected : Option Nat := none
  acks : Nat := 0
  grant : Option (Bool × LineCopy) := none
  deriving DecidableEq, Repr

/-- A matrix operation in the unit's queue (R230 to R238). `thread` is the issuing thread of a solo operation. An empty `cfrag`
means that C is the D of the operation before it; an append holds the fragments of its source tile. -/
inductive MtxOp where
  | joint (fa fb d c : Nat) (scaled : Bool) (afrag bfrag cfrag : List (List Word)) (sa sb : List Word) (lanes : List Nat)
  | solo (fa fb ad aa ab ac : Nat) (asa asb : Option Nat) (thread : Nat)
  | append (dfrag : List (List Word)) (desc : List Word) (rows : Nat) (lane : Nat)
  | appendS (ad : Nat) (desc : List Word) (rows : Nat) (thread : Nat)
  deriving DecidableEq, Repr

/-- An entry of the matrix unit: its group slot, the operation, and the accumulator that its C gave at the start. -/
structure MtxEntry where
  slot : Nat
  op : MtxOp
  /-- the instruction that it belongs to -/
  instr : Nat := 0
  /-- the 1,024 words of D in row order, once the unit has run; empty where nothing is performed (R233) -/
  result : List Word := []
  deriving DecidableEq, Repr

/-- A write that a thread has sent to another unit and that has not arrived (R203, R237). -/
inductive Sent where
  | merge (die asid : Nat) (p : MergeRec)
  | append (tag : AppendTag) (data : List Word) (asid : Nat)
  deriving DecidableEq, Repr

/-- A write on its way, with its core, group slot, thread and sequence number. -/
structure Posted where
  core : Nat
  slot : Nat
  lane : Nat
  seq : Nat
  what : Sent
  deriving DecidableEq, Repr

/-- A core (chapter 07). Blocks are keyed by a number of the model's own. -/
structure Core where
  blocks : Tab Block := []
  groups : Tab Group := []
  ctxs : Tab Ctx := []
  banks : Tab Bank := []
  lastCtx : Nat := 0
  nextSeq : Nat := 0
  storeQ : List QueuedStore := []
  accs : List MemAcc := []
  l1 : List L1Line := []
  reqs : List LineReq := []
  /-- lines written back unasked whose WB_DONE has not come (R282) -/
  wbs : List Nat := []
  mtxQ : List MtxEntry := []
  /-- operations of the instruction that the unit is accepting, for which its queue has no place yet (R230) -/
  mtxFeed : List MtxEntry := []
  /-- operations that have started and have not written their results, oldest first (R230) -/
  mtxRun : List MtxEntry := []
  /-- the last instruction counted in MTX_MALFORMED_CNT from the unit -/
  mtxBad : Option Nat := none
  /-- core cycles: one for each issue, and what a read of SR_CYCLES has added to them (R185) -/
  cycles : Nat := 0
  /-- D tiles that an integer operation wrote and nothing has overwritten (R237): registers as (slot, first register), local store
  as (lowest slot of the block, address) -/
  intTiles : List (Nat × Nat) := []
  intLs : List (Nat × Nat) := []
  deriving DecidableEq, Repr

/-! ### Stack controllers (chapter 12) -/

/-- A request that a stack controller has accepted (R292 to R294): its path, its line and the sectors of it, the bytes that it writes from
an offset within the line (none for a read), and HUB_TIME at its acceptance. -/
structure StackReq where
  skink : Bool
  line : Nat
  mask : Nat
  write : Option (Nat × List Byte) := none
  since : Nat := 0
  deriving DecidableEq, Repr

/-- The scheduler of a pseudo-channel (R293, R295): its command slot of 16, whether the bus is turned to writes, the sectors written since
it turned, and the consecutive row hits by 2 × bank + path. -/
structure PcSched where
  slot : Nat := 0
  writing : Bool := false
  batch : Nat := 0
  hits : Tab Nat := []
  deriving DecidableEq, Repr

/-- A stack controller: accepted requests, oldest first; open rows keyed by bank, and schedulers by pseudo-channel; the fill; refresh;
corrected errors per page since start; pages marked and not yet listed; the retirement list in flash. -/
structure StackCtl where
  q : List StackReq := []
  openRows : Tab Nat := []
  sched : Tab PcSched := []
  fill : Bool := false
  selfRefresh : Bool := false
  /-- a scrub pass is under way, and the offset of the sector that it reads next (R301) -/
  scrub : Bool := false
  scrubAt : Nat := 0
  temp : Nat := 0
  refMode : Nat := 0
  /-- refreshes performed; the bank refreshed last, and HUB_TIME when that refresh began (R297) -/
  refreshes : Nat := 0
  refBank : Nat := 0
  refSince : Option Nat := none
  /-- activations of a bank since its last refresh, and the number at which the stack asks for refresh management, 0 none (R298) -/
  acts : Tab Nat := []
  threshold : Nat := 0
  pageCe : Tab Nat := []
  marked : List Nat := []
  retired : List Nat := []
  deriving DecidableEq, Repr

/-! ### Translation (chapter 13) -/

/-- What a suspended Copy Engine command waits for (R324). -/
inductive FaultWait where
  /-- an ATS Translation Completion -/
  | ats
  /-- a PRI response, with its timer running -/
  | pri
  /-- a free outstanding page request (R30) -/
  | room
  deriving DecidableEq, Repr

/-- A suspended Copy Engine command (R324, R325). -/
structure Suspended where
  queue : Nat
  index : Nat
  inst : Nat
  fn : Nat
  asid : Nat
  /-- command byte offset of the field, the VA that missed, and whether the access writes -/
  off : Nat
  va : Nat
  w : Bool := false
  /-- the host pages of its page request group (R324) -/
  pages : List Nat := []
  wait : FaultWait
  deriving DecidableEq, Repr

/-- An invalidation past its instant (R327, R331): the XLAT_INVAL command, or the function whose host sent it; and the started
commands, thread accesses (core, sequence number) and LDWAITs that it waits for. -/
structure InvalWait where
  cmd : Option (Nat × Nat)
  fn : Nat := 0
  cmds : List (Nat × Nat)
  accs : List (Nat × Nat)
  waits : List Waiter
  deriving DecidableEq, Repr

/-- Translation state: root pointers read, generations per tag, cached translations and pointer entries, host pages that ATS has
granted, suspended commands, invalidations that wait. -/
structure Xlat where
  roots : Tab Nat := []
  gens : Tab Nat := []
  tlb : List TlbEntry := []
  ptrs : List PtrEntry := []
  granted : List Grant := []
  susp : List Suspended := []
  invals : List InvalWait := []
  deriving DecidableEq, Repr

/-! ### Lenot (chapter 14) -/

/-- A lane map in force (R354): skipped physical lanes, ascending, and whether a lane test chose it. -/
structure LaneMap where
  skip : List Nat
  tested : Bool := false
  deriving DecidableEq, Repr

/-- A message that waits for an output port, and the receiving port and pool whose buffer it still occupies. -/
structure LntWaiting where
  msg : LntMsg
  origin : Option (Nat × Nat) := none
  deriving DecidableEq, Repr

/-- A flit on its way: its bundle, and by physical lane the bits that the lane carries, 8 UI to a byte, the first in bit 0 (R337, R354). -/
structure LntFlight where
  bundle : Nat
  lanes : List (List Byte)
  deriving DecidableEq, Repr

/-- An unacknowledged PAYLOAD flit (R349): SEQ, HEAD_MASK, payload. -/
structure LntHeld where
  seq : Nat
  heads : Nat
  payload : List Byte
  deriving DecidableEq, Repr

/-- One port (R335 to R358). `state` has the codes of LINK_QUERY.STATE. -/
structure LntPort where
  state : Nat := 0
  version : Nat := 0
  /-- enabled bundles, bit b -/
  bundles : Nat := 0
  next : Nat := 0
  expect : Nat := 0
  gap : Bool := false
  held : List LntHeld := []
  /-- sequence numbers that a replay has still to send -/
  resend : List Nat := []
  /-- flits on their way to this port, in the order in which it checks them -/
  wire : List LntFlight := []
  /-- scrambler registers by bundle, one for each logical lane: of the direction that this port sends, and of the one it receives (R337) -/
  tx : Tab (List (BitVec 23)) := []
  rx : Tab (List (BitVec 23)) := []
  waiting : List LntWaiting := []
  /-- per pool: slots in use at the far end, slots freed here, and the far end's total as last seen (R343) -/
  used : Tab Nat := []
  freed : Tab Nat := []
  seen : Tab Nat := []
  nextPool : Nat := 0
  /-- flits sent while a class was passed over -/
  passed : Tab Nat := []
  /-- oldest flit of the last replay, consecutive replays from it, and rounds of 4 ns since -/
  lastOldest : Option Nat := none
  consec : Nat := 0
  age : Nat := 0
  /-- HUB_TIME at which the replay timer was last restarted (R351) -/
  restarted : Option Nat := none
  /-- HUB_TIME at which the port last had a PAYLOAD flit to send or held one, and at which its request to sleep was last ended (R358) -/
  busyAt : Option Nat := none
  endedAt : Option Nat := none
  asking : Bool := false
  /-- the answer to a SLEEP_REQ that is due: true SLEEP_ACK -/
  answer : Option Bool := none
  sentAck : Bool := false
  /-- maps in force by bundle; an unlisted bundle has its fused map -/
  maps : Tab LaneMap := []
  ltResult : Tab Nat := []
  deriving DecidableEq, Repr

/-- A route change in progress (R346): MARKs and MARK_DONEs awaited by class, messages held, and the new route. -/
structure LntChange where
  src : Nat
  dst : Nat
  marks : List Nat
  dones : List Nat
  held : List LntMsg := []
  route : List Nat
  deriving DecidableEq, Repr

/-- Ports keyed 4 × node + port; routes, as lists of link numbers, keyed 9 × source + destination; route changes; register accesses
that have arrived, with their nodes. -/
structure Lnt where
  ports : Tab LntPort := []
  routes : Tab (List Nat) := []
  changes : List LntChange := []
  inbox : List (Nat × LntMsg) := []
  deriving DecidableEq, Repr


/-! ### Hawser (chapter 15) -/

/-- A Hawser message (R369): CLASS, SUB, TYPE, source package, ROUTE, destination package, TXN, ADDR and the bytes after the header. -/
structure HwsMsg where
  cls : Nat
  sub : Bool := false
  type : Nat
  src : Nat
  route : Nat := 0
  dst : Nat
  txn : Nat := 0
  addr : Nat := 0
  data : List Byte := []
  deriving DecidableEq, Repr

/-- A message that waits for a port, and the port whose receive buffer it still occupies. -/
structure HwsWaiting where
  msg : HwsMsg
  origin : Option (Nat × Nat) := none
  deriving DecidableEq, Repr

/-- One port (R361 to R386). `state` has the codes of LINK_QUERY.STATE; `rate` and `width` those of HWS_PORT_STATUS. -/
structure HwsPort where
  state : Nat := 0
  rate : Nat := 0
  width : Nat := 0
  fallback : Bool := false
  /-- in training: it has been in service since package start -/
  trained : Bool := false
  next : Nat := 0
  expect : Nat := 0
  gap : Bool := false
  /-- unacknowledged PAYLOAD frames: SEQ and payload -/
  held : List (Nat × List Byte) := []
  waiting : List HwsWaiting := []
  used : Tab Nat := []
  freed : Tab Nat := []
  seen : Tab Nat := []
  nextPool : Nat := 0
  passed : Tab Nat := []
  /-- oldest frame of the last replay, consecutive replays from it, and HUB_TIME then -/
  lastOldest : Option Nat := none
  consec : Nat := 0
  replayAt : Nat := 0
  /-- HUB_TIME at which the replay timer was last restarted (R375) -/
  restarted : Option Nat := none
  /-- HUB_TIME at which the port last had a PAYLOAD frame to send or held one, and at which its request to sleep was last ended (R379) -/
  busyAt : Option Nat := none
  endedAt : Option Nat := none
  asking : Bool := false
  sentAck : Bool := false
  /-- woken, and no usable frame received since; bursts sent since for want of one -/
  waking : Bool := false
  bursts : Nat := 0
  /-- HUB_TIME of the last burst sent on request -/
  burstAt : Option Nat := none
  burstAcq : Bool := false
  rburst : Bool := false
  /-- frames discarded in a row, and whether a usable one has come since the last delimiter -/
  bad : Nat := 0
  good : Bool := false
  /-- training runs from T0 though the port has been in service (R381, R382) -/
  full : Bool := false
  /-- by lane: the trained scrambler seeds of this port and of its peer, and the registers of both directions (R365) -/
  seeds : List (BitVec 31) := []
  peerSeeds : List (BitVec 31) := []
  tx : List (BitVec 31) := []
  rx : List (BitVec 31) := []
  /-- gain of each lane in 1/16 dB, and whether burst mode has frozen it -/
  gain : List Nat := [0, 0, 0, 0]
  frozen : Bool := false
  /-- the peer's capability word, once taken (R383) -/
  peer : Option Nat := none
  deriving DecidableEq, Repr

/-- An RWRITE whose WDONE is awaited (R392, R395). -/
structure OutTxn where
  txn : Nat
  queue : Nat
  index : Nat
  dst : Nat
  deriving DecidableEq, Repr

/-- An inbound TXN (R394): WDATA messages performed, bytes performed, whether a byte was refused, and its CLOSE once it has come. -/
structure InTxn where
  src : Nat
  txn : Nat
  pieces : Nat := 0
  bytes : Nat := 0
  denied : Bool := false
  close : Option (Nat × Nat) := none
  deriving DecidableEq, Repr

/-- The ports, open RWRITEs and inbound TXNs, delivered messages in order of arrival with their ports, torus links that PCF's fabric map
shows out of service as (package, port), and the route last used to each package. -/
structure Hws where
  ports : Tab HwsPort := []
  outTxns : List OutTxn := []
  inTxns : List InTxn := []
  inbox : List (Nat × HwsMsg) := []
  down : List (Nat × Nat) := []
  lastRoute : Tab Nat := []
  deriving DecidableEq, Repr


/-! ### Twin pairs and die operations (chapter 16) -/

/-- An accepted pair or attach action (R402): who asked, the partner serial expected or 0, and the state it started from (R405). -/
structure TwinAct where
  op : OpId
  attach : Bool
  partner : Nat
  prev : Nat
  deriving DecidableEq, Repr

/-- The peer's PAIR_REQ (R408): its pair ID and side, or 0 and 0xFF, its variant, mode, row size and serial. -/
structure PairReq where
  pairId : Nat
  side : Nat
  variant : Nat
  mode : Nat
  rowPages : Nat
  serial : Nat
  deriving DecidableEq, Repr

/-- A running DIE_CTRL action of a die (R418, R421). `back` is a return to service. -/
structure DieOp where
  op : OpId
  back : Bool
  drainMs : Nat
  /-- MAX_DRAIN_MS has passed -/
  expired : Bool := false
  deriving DecidableEq, Repr

/-- The twin unit and PCF's twin state (R401 to R416). `heard` and `heardAt` hold LIVE and HUB_TIME of the last live heartbeat of
channels 6, 7 and 8, the Cleat bus; `dieOps` is keyed by die. -/
structure Twin where
  /-- the code of R406 -/
  state : Nat := 0
  act : Option TwinAct := none
  peerReq : Option PairReq := none
  partner : Nat := 0
  syncSent : Bool := false
  syncRcvd : Bool := false
  live : Word := 0
  hbSeq : Nat := 0
  heard : Tab Nat := []
  heardAt : Tab Nat := []
  /-- STATE of the last heartbeat received -/
  peerState : Option Nat := none
  fenced : Bool := false
  /-- FENCE_NAK received in this SUSPECT -/
  refused : Bool := false
  detach : Option OpId := none
  /-- sessions that ended while no twin port served, with their home stacks: SH_END is due -/
  endsDue : List (Nat × Nat) := []
  dieOps : Tab DieOp := []
  deriving DecidableEq, Repr

/-! ### Tenants (chapter 17) -/

/-- TENANT_QUERY.STATE (R433). -/
inductive TenState where
  | unconfigured | running | freezing | frozen | saving | restoring
  deriving DecidableEq, Repr

/-- What a TENANT_CONFIG sets (R425 to R428): quotas, row budgets and assigned ranges per stack, tags. -/
structure TenantCfg where
  queues : Nat := 0
  sessions : Nat := 0
  /-- MEM_MIB, the assigned range's base A and length Z in bytes, and the row budget R, keyed by stack -/
  memMib : Tab Nat := []
  base : Tab Nat := []
  len : Tab Nat := []
  rows : Tab Nat := []
  asidBase : Nat := 0
  asidCount : Nat := 0
  deriving DecidableEq, Repr

/-- The operation that runs on a tenant: its identity, and the buffer of a save or restore (R433, R440, R443). -/
structure TenantOp where
  op : Option OpId := none
  bufAddr : Nat := 0
  bufBytes : Nat := 0
  /-- a configuration waiting for its zero-fill -/
  cfg : Option TenantCfg := none
  /-- sessions promoted to the tenant during the save -/
  promoted : Nat := 0
  /-- the blob that a save writes -/
  blob : List Byte := []
  /-- the state that a failed restore goes back to (R443) -/
  prior : TenState := .frozen
  deriving DecidableEq, Repr

/-- One tenant, keyed by VF number. -/
structure Tenant where
  state : TenState := .unconfigured
  cfg : TenantCfg := {}
  op : Option TenantOp := none
  /-- a VF Function Level Reset is in progress, and the tenant state that its end restores -/
  resetting : Option TenState := none
  /-- event records held while frozen, 32 bytes each (R436, R437) -/
  heldEvents : List (List Byte) := []
  /-- turns held by a freeze, as session numbers in arrival order (R434) -/
  heldTurns : List Nat := []
  /-- running dirty log: buffer address, LOG_BASE, LOG_BYTES (R445, R446) -/
  log : Option (Nat × Nat × Nat) := none
  deriving DecidableEq, Repr

/-! ### Power (chapter 18) -/

/-- A cluster's state (R450, R451, PWR_CLUSTER). -/
inductive ClusterPwr where
  | run | cg | pg | waking
  deriving DecidableEq, Repr

/-- A C-die's state (R452, R453, PWR_DIE_STATE). -/
inductive DiePwr where
  | awake | waking | retention | deep
  deriving DecidableEq, Repr

/-- A host request that waits, in order of arrival, because a BAR2 access before it waits for a package or die wake (R55, R56, R457):
a BAR2 read of some bytes, or a write; a mailbox command (1 GO, 2 ACK, 3 CANCEL); a doorbell write; a register write. -/
inductive HostOp where
  | bar2 (dpa bytes : Nat) (data : Option (List Byte))
  | mbxCmd (fn cmd : Nat)
  | tail (fn slot : Nat) (v : Word) (be : BitVec 4)
  | regWrite (fn addr : Nat) (w : Word) (be : BitVec 4)
  deriving DecidableEq, Repr

/-- Power and clocks (R449 to R465). Clusters are keyed 8·die + cluster. -/
structure Power where
  clusters : Tab ClusterPwr := []
  dies : Tab DiePwr := []
  scp : Bool := true
  /-- the package is in DEEP_IDLE (R455) -/
  deep : Bool := false
  /-- a DEEP_IDLE entry is under way (R455) -/
  entering : Bool := false
  /-- a wake from DEEP_IDLE to ready is under way (R456) -/
  waking : Bool := false
  /-- host requests that wait, in order of arrival -/
  held : List HostOp := []
  coreMhz : Nat := 1500
  trip : Bool := false
  /-- die of the sensor that last engaged the trip -/
  tripSource : Nat := 0
  /-- POWER_QUERY.TRIPS -/
  trips : Nat := 0
  /-- highest sensor of each C-die, 0 to 7, and of the hub, 8, in 0.1 °C -/
  tj : Tab Nat := []
  /-- every sensor has read below 100 °C since this trip's release timer was started -/
  releasing : Bool := false
  /-- thermal shutdown: nothing further until package reset (R464) -/
  shutdown : Bool := false
  deriving DecidableEq, Repr

/-! ### Cleat port (chapter 20). A character is 9 bits; bit 8 is the address mark. -/

/-- A frame that the twin unit has waiting (R506, R514). -/
structure CleatTwin where
  chars : List Nat
  heartbeat : Bool
  deriving DecidableEq, Repr

/-- A received PCF frame that passed R510. -/
structure CleatFrame where
  dst : Nat
  src : Nat
  type : Nat
  seq : Nat
  seg : Nat
  payload : List Byte
  deriving DecidableEq, Repr

/-- A request from the bus: gathered so far, complete, or being served (R509, R511). `next` is the next segment index. -/
structure CleatReq where
  src : Nat
  seq : Nat
  broadcast : Bool
  next : Nat := 0
  bytes : List Byte := []
  deriving DecidableEq, Repr

/-- A kept response (R511). -/
structure CleatKept where
  src : Nat
  seq : Nat
  bytes : List Byte
  deriving DecidableEq, Repr

/-- The port, the twin unit's frames, and what PCF holds of the bus. -/
structure Cleat where
  rx : List Nat := []
  tx : List Nat := []
  /-- characters at the front of `tx` that SEND has released -/
  released : Nat := 0
  /-- an address character and SRC, held back (R500) -/
  hold : List Nat := []
  /-- 0 no frame under way, 1 a frame for the FIFO, 2 a frame for the twin unit, 3 the rest of a frame that the twin unit has
  taken or discarded -/
  into : Nat := 0
  /-- characters received of the frame under way -/
  count : Nat := 0
  /-- bytes that the frame under way still needs, once LEN is known -/
  left : Option Nat := none
  twinAsm : List Nat := []
  twinIn : List (List Nat) := []
  rtsHigh : Bool := false
  /-- CLEAT_CTS_N reads low -/
  ctsLow : Bool := false
  /-- a transmitter waits for CLEAT_CTS_N -/
  waitCts : Bool := false
  lineBusy : Bool := false
  /-- attempts made at the frame that is sent, and whether it is a frame of the twin unit (R505, R506) -/
  attempts : Nat := 0
  twinTurn : Bool := false
  /-- HUB_TIME at the last character of a frame, and at the last change of MUTE by the port (R10, R499, R510) -/
  heardAt : Option Nat := none
  muteAt : Option Nat := none
  dupLock : Bool := false
  twinOut : List CleatTwin := []
  /-- PCF: the frame being read from the FIFO, and for each gap within a frame the FIFO entries before it -/
  asm : List Nat := []
  gaps : List Nat := []
  frames : List CleatFrame := []
  parts : List CleatReq := []
  reqs : List CleatReq := []
  running : List CleatReq := []
  kept : List CleatKept := []
  /-- PCF: frames to send, and the rest of the one being written -/
  sends : List (List Nat) := []
  writing : List Nat := []
  deriving DecidableEq, Repr

/-! ### Errors (chapter 21) -/

/-- One error record (R520); `index` is its place in the log that holds this copy. -/
structure ErrRec where
  index : Nat := 0
  code : Nat
  cls : Nat
  source : Nat := 0
  time : Nat := 0
  die : Nat := 8
  unit : Nat := 0
  inst : Nat := 0xFFFF
  status : Nat := 0
  count : Nat := 1
  arg : Nat := 0
  deriving DecidableEq, Repr

/-- A coalescing hold of R522: occurrences held, and the latest of them. -/
structure ErrHold where
  count : Nat := 0
  last : Option ErrRec := none
  deriving DecidableEq, Repr

/-- One error log (R523): next INDEX, the records held, oldest first, and the running holds keyed by code. -/
structure ErrLog where
  next : Nat := 0
  recs : List ErrRec := []
  holds : Tab ErrHold := []
  deriving DecidableEq, Repr

/-- Corrected occurrences of one source in the running window (R528). `a` and `b` split the ARG of the link codes. -/
structure CeCount where
  a : Nat := 0
  b : Nat := 0
  reported : Bool := false
  deriving DecidableEq, Repr

/-- Error state (R522 to R533). Log 0 is the PF's. `ce` is keyed 0x100·kind + unit with kind 0 stack, 1 Lenot link, 2 Hawser port. -/
structure Err where
  logs : Tab ErrLog := []
  fatal : Bool := false
  fatalCode : Nat := 0
  ce : Tab CeCount := []
  /-- ERR_CE_WINDOW_S of the running window, in seconds -/
  ceWindow : Nat := 60
  /-- notices waiting for the Cleat bus, oldest first (R527): SEQ and the 33 payload bytes -/
  notices : List (Nat × List Byte) := []
  noticeSeq : Nat := 0
  deriving DecidableEq, Repr

/-- The test result of one link, as LINK_QUERY reports it (R85, R534). -/
structure LinkResult where
  result : Nat := 0
  failLanes : Word := 0
  errors : DWord := 0
  bits : DWord := 0
  deriving DecidableEq, Repr

/-- A running LINK_TEST (R86). -/
structure LinkTest where
  op : OpId
  pattern : Nat
  laneMask : Word
  durationMs : Nat
  deriving DecidableEq, Repr

/-- The IEEE 1149.1 instruction in force (R538). -/
inductive JtagIr where
  | bypass | idcode | sample | extest | clamp | highz
  deriving DecidableEq, Repr

/-- The IEEE 1149.1 port: its instruction, and the boundary register's preloaded value. -/
structure Jtag where
  ir : JtagIr := .idcode
  boundary : Word := 0
  deriving DecidableEq, Repr

/-! ### Outcomes and the state -/

/-- Why the block stops. -/
inductive Fault where
  /-- raised by nothing in the spec: the block has no command that the spec leaves without an effect; kept so that the
  outcome type has a fault. Safe: it never occurs. -/
  | none
  deriving DecidableEq, Repr

/-- Why a command has no meaning here. -/
inductive Refusal where
  /-- raised by an arm of `exec` whose command has no meaning yet; safe -/
  | notModelled (mnemonic : String)
  deriving DecidableEq, Repr

/-- What the package sends outward, in order (the model's own record of its outputs, log entry 2). -/
inductive Out where
  /-- a PCIe completion: 0 Successful Completion, 1 Unsupported Request, 2 Request Retry Status; data and poison -/
  | completion (status : Nat) (data : List Byte) (poisoned : Bool)
  /-- a read at a stack is answered: address, bytes, and the sectors of the line that are poisoned (R294, R300) -/
  | stackData (addr : Nat) (data : List Byte) (poisoned : Nat)
  /-- an MSI-X message of a function: address and data from its table entry -/
  | msix (fn : Nat) (vector : Nat) (addr : Nat) (data : Nat)
  /-- an AER message: true uncorrectable, and whether fatal -/
  | aer (uncorrectable fatal : Bool)
  /-- an ATS Translation Request for a page, and a PRI Page Request (R324): function, PASID, host page -/
  | atsRequest (fn : Nat) (pasid : Option Nat) (page : Nat)
  | pageRequest (fn : Nat) (pasid : Option Nat) (pages : List Nat)
  /-- an ATS Invalidation Completion (R331) -/
  | atsInvalDone (fn : Nat)
  /-- a frame with its parity, and a burst, of a Hawser port: the symbols of each lane in service (R364, R365, R378) -/
  | hwsFrame (port : Nat) (lanes : List (List Pam4))
  | hwsBurst (port : Nat) (lanes : List (List Pam4))
  /-- a frame of the Cleat transmitter, as 9-bit characters (R504) -/
  | cleatFrame (chars : List Nat)
  /-- the 32 bits that the boundary-scan port shifts out (R538) -/
  | jtagShift (word : Word)
  deriving DecidableEq, Repr

/-- The whole state. -/
structure State where
  fuse : Fuses := {}
  board : Board := {}
  start : Start := {}
  dies : Tab DieCond := []
  stackIds : Tab StackId := []
  pcie : Pcie := {}
  mbxs : Tab Mailbox := []
  rings : Tab EvRing := []
  /-- register values that differ from reset, keyed by PF BAR0 offset (VF instance registers above 0x1000_0000) -/
  regs : Tab Word := []
  /-- HUB_TIME (R59) and its snapshot -/
  hubTime : Nat := 0
  hubTimeHi : Word := 0
  /-- block windows open for host writes: bit 0 the hub, bit 1 + d C-die d (R88) -/
  windows : BitVec 9 := 0
  err : Err := {}
  linkResults : Tab LinkResult := []
  linkTests : Tab LinkTest := []
  settings : Settings := {}
  flash : Flash := {}
  sfc : Sfc := {}
  serving : Serving := {}
  sess : Sess := {}
  eng : Engines := {}
  cores : Tab Core := []
  uc : Uc := {}
  /-- writes that threads have sent to other units -/
  posted : List Posted := []
  memWaits : List MemWait := []
  hbm : Tab StackCtl := []
  lnt : Lnt := {}
  hws : Hws := {}
  twin : Twin := {}
  cleat : Cleat := {}
  jtag : Jtag := {}
  power : Power := {}
  tenants : Tab Tenant := []
  xlat : Xlat := {}
  /-- sectors that carry the poison code at the stack (R300) -/
  stackPoison : List Nat := []
  /-- ACCEPTED operations that a PCF restart ended and whose OP_DONE is still to be written (R65) -/
  endedOps : List OpId := []
  /-- device memory at the stacks, by device physical address; an unlisted byte reads 0 (R304) -/
  mem : Tab Byte := []
  /-- host memory, by PCIe bus address; an unlisted byte reads 0 -/
  hostMem : Tab Byte := []
  /-- the model's own counter of free values used (`Config.freeWord`) -/
  free : Nat := 0
  out : List Out := []
  /-- commands waiting, first in first out -/
  pending : List Instr := []
  deriving DecidableEq, Repr

/-- The package right after a package reset has been released: phase RESET, with nothing yet read from the flash (R466, R467). -/
def State.reset : State := {}

end Sys2Proof.Machine
end

