-- ==== Sys2Proof/Machine/Ops.lean ====
section
/-!
DEFINITION. The named operations every meaning is built from: sparse tables, bytes, memory, registers and counters,
interrupts, host memory, event records, error records, settings, mailboxes.
-/

namespace Sys2Proof.Machine

/-! ### Sparse tables -/

/-- The entry of a key, or the table's default. -/
def tget {α : Type} (d : α) : Tab α → Nat → α
  | [], _ => d
  | (k, v) :: t, n => if k = n then v else tget d t n

/-- Sets the entry of a key, keeping keys strictly rising. -/
def tput {α : Type} : Tab α → Nat → α → Tab α
  | [], n, x => [(n, x)]
  | (k, v) :: t, n, x =>
    if n < k then (n, x) :: (k, v) :: t
    else if n = k then (n, x) :: t
    else (k, v) :: tput t n x

/-- Removes the entry of a key. -/
def tdel {α : Type} : Tab α → Nat → Tab α
  | [], _ => []
  | (k, v) :: t, n => if k = n then tdel t n else (k, v) :: tdel t n

/-- Keys strictly rising. -/
def tsorted {α : Type} : Tab α → Bool
  | [] => true
  | [_] => true
  | (k, _) :: (k', v') :: t => k < k' && tsorted ((k', v') :: t)

/-! ### Bytes -/

/-- The `n` bytes of a value, least significant first (R6). -/
def leBytes : Nat → Nat → List Byte
  | 0, _ => []
  | n + 1, x => BitVec.ofNat 8 x :: leBytes n (x / 256)

/-- The value of bytes, least significant first (R6). -/
def leNat : List Byte → Nat
  | [] => 0
  | b :: bs => b.toNat + 256 * leNat bs

/-- The little-endian field of `size` bytes at `off`; bytes past the end read zero. -/
def field (bs : List Byte) (off size : Nat) : Nat := leNat ((bs.drop off).take size)

/-- `n` zero bytes. -/
def zeros (n : Nat) : List Byte := List.replicate n 0

/-- Bits [lo + w − 1 : lo] of a value. -/
def bits (x lo w : Nat) : Nat := x / 2 ^ lo % 2 ^ w

/-- Bit `n` of a value. -/
def bit (x n : Nat) : Bool := x / 2 ^ n % 2 == 1

/-- 1 for true. -/
def b2n (b : Bool) : Nat := if b then 1 else 0

/-! ### Memory in canonical form: an unlisted byte reads 0 -/

/-- One byte of a memory. -/
def mget (t : Tab Byte) (a : Nat) : Byte := tget 0 t a

/-- Writes one byte, keeping the canonical form: a zero byte is not listed. -/
def mset (t : Tab Byte) (a : Nat) (b : Byte) : Tab Byte := if b = 0 then tdel t a else tput t a b

/-- `n` bytes from `a`. -/
def mread (t : Tab Byte) (a : Nat) : Nat → List Byte
  | 0 => []
  | n + 1 => mget t a :: mread t (a + 1) n

/-- Writes bytes at consecutive addresses from `a`. -/
def mwrite (t : Tab Byte) (a : Nat) : List Byte → Tab Byte
  | [] => t
  | b :: bs => mwrite (mset t a b) (a + 1) bs

/-- The canonical form of a memory: addresses strictly rising, and no byte listed that an unlisted address reads as. -/
def Memory.wf (t : Tab Byte) : Bool := tsorted t && t.all (fun c => c.2 != 0)

/-! ### Registers -/

/-- The value a register holds (R3); reset values come from the register map. -/
def reg (s : State) (a : Nat) : Word := tget (regReset a) s.regs a

/-- Sets a register's value. -/
def setReg (s : State) (a : Nat) (w : Word) : State := { s with regs := tput s.regs a w }

/-- Sets bits of a register: how the device raises W1C flags. -/
def orReg (s : State) (a : Nat) (mask : Nat) : State := setReg s a (reg s a ||| BitVec.ofNat 32 mask)

/-- Adds `n` to a counter of `w` bits, saturating. -/
def bumpBy (s : State) (a w n : Nat) : State :=
  setReg s a (BitVec.ofNat 32 (min ((reg s a).toNat + n) (2 ^ w - 1)))

/-- Adds 1 to a 32-bit saturating counter. -/
def bump (s : State) (a : Nat) : State := bumpBy s a 32 1

/-- Raises a peak register to at least `n`. -/
def peak (s : State) (a n : Nat) : State := if (reg s a).toNat < n then setReg s a (BitVec.ofNat 32 n) else s

/-- The new value of one field under its access code (R3, R5); `lock` is RW-L's lock, `written` W1O's. -/
def writeField (old new : Nat) (lock : Bool) (f : Field) : Nat :=
  let o := bits old f.lo f.width
  let w := bits new f.lo f.width
  match f.acc with
  | .rw => if f.reserved.contains w then o else w
  | .rwl => if lock then o else if f.reserved.contains w then o else w
  | .ro => o
  | .wo => 0
  | .w1c => o - (o &&& w)
  | .w1s => o ||| w
  | .w1o => if lock then o else w
  | .rc => o

/-- A register after a write of all four bytes: every field under its own access code, reserved bits zero (R3 to R5). -/
def writeFields (old new : Nat) (lock : Bool) : List Field → Nat
  | [] => 0
  | f :: fs => writeField old new lock f * 2 ^ f.lo + writeFields old new lock fs

/-- A register after a read that clears its RC fields to reset (R3). -/
def clearRc (old : Nat) : List Field → Nat
  | [] => 0
  | f :: fs => (if f.acc = .rc then f.reset % 2 ^ f.width else bits old f.lo f.width) * 2 ^ f.lo + clearRc old fs

/-- Sets a bit of HUB_ERR, and latches its address when no bit was set (chapter 02, HUB_ERR_ADDR). -/
def hubError (s : State) (b : Nat) (addr : Nat) : State :=
  let s1 := if reg s hubErr = 0 then
      setReg (setReg s hubErrAddrLo (BitVec.ofNat 32 addr)) hubErrAddrHi (BitVec.ofNat 32 (addr / 2 ^ 32))
    else s
  orReg s1 hubErr (2 ^ b)

/-! ### Settings -/

/-- The value in force of a setting for new work (R79, R485). -/
def setting (s : State) (id : Nat) : Nat := tget (settingDefault id) s.settings.run id

/-- The value of a setting for work stamped with epoch `e` (R81): in PHASE 2 the old epoch's values are still held. -/
def settingAt (s : State) (e : Word) (id : Nat) : Nat :=
  let ep := s.settings.epoch
  if ep.phase = 2 && e ≠ ep.issuing then
    match ep.old.find? (fun p => p.1 == id) with
    | some p => p.2
    | none => setting s id
  else setting s id

/-! ### Dies and functions -/

def dieCond (s : State) (d : Nat) : DieCond := tget .notDiscovered s.dies d
def dieInService (s : State) (d : Nat) : Bool := dieCond s d == .inService
def dieCode : DieCond → Nat
  | .notDiscovered => 0
  | .inService => 1
  | .quarantined => 2
  | .failedAtStart => 3
/-- C-dies in service, in ascending order. -/
def diesInService (s : State) : List Nat := (List.range 8).filter (dieInService s)
/-- One bit for each die of a list. -/
def dieMask (l : List Nat) : Nat := (l.map (2 ^ ·)).sum

def pcieFn (s : State) (n : Nat) : PcieFn := tget {} s.pcie.fns n
/-- The function exists: the PF, or an enabled VF (R30, R423). -/
def fnEnabled (s : State) (n : Nat) : Bool := n = 0 || (s.pcie.vfEnable && n ≤ s.pcie.numVFs)
/-- Memory requests to the function are taken (R31); in D3hot the PCIe specification has none taken (R30). -/
def memSpaceOn (s : State) (n : Nat) : Bool :=
  s.start.hubReady && fnEnabled s n && (pcieFn s n).memSpace && !(pcieFn s n).d3hot

def emit (s : State) (o : Out) : State := { s with out := s.out ++ [o] }

/-! ### Interrupts (R43, R44) -/

/-- A byte of a function's MSI-X table; at reset every vector is masked, as the PCIe specification provides. -/
def msixByte (s : State) (fn off : Nat) : Byte := tget (if off % 16 = 12 then 1 else 0) s.pcie.msix (0x8000 * fn + off)

def vecMasked (s : State) (fn v : Nat) : Bool := (pcieFn s fn).msixMask || (msixByte s fn (16 * v + 12)).getLsbD 0

def sendMsix (s : State) (fn v : Nat) : State :=
  emit s (.msix fn v (leNat ((List.range 8).map fun i => msixByte s fn (16 * v + i)))
    (leNat ((List.range 4).map fun i => msixByte s fn (16 * v + 8 + i))))

def setPending (s : State) (fn v : Nat) (b : Bool) : State :=
  { s with pcie := { s.pcie with pending := tput s.pcie.pending (0x1000 * fn + v) b } }

/-- Sends a vector's message, or sets its pending bit while masked (R44). -/
def raiseVec (s : State) (fn v : Nat) : State :=
  if (pcieFn s fn).msixEnable then
    if vecMasked s fn v then setPending s fn v true else sendMsix s fn v
  else s

/-- Signals vector 0, 1 or 2 of an instance: its INST_IRQ_STATUS bit first, then the message (R44). -/
def signalInst (s : State) (fn v : Nat) : State := raiseVec (orReg s (instBase fn + instIrqOff) (2 ^ v)) fn v

/-- Sends every pending message whose vector is now unmasked (R44). -/
def flushPending (s : State) (fn : Nat) : State :=
  (s.pcie.pending.filter (fun p => p.2 && p.1 / 0x1000 == fn)).foldl
    (fun s p =>
      let v := p.1 % 0x1000
      if (pcieFn s fn).msixEnable && !vecMasked s fn v then sendMsix (setPending s fn v false) fn v else s) s

/-! ### Error records (R520 to R527) -/

def errLog (s : State) (n : Nat) : ErrLog := tget {} s.err.logs n
def setErrLog (s : State) (n : Nat) (l : ErrLog) : State := { s with err := { s.err with logs := tput s.err.logs n l } }

/-- The 32 bytes of an error record (R520). -/
def errBytes (r : ErrRec) : List Byte :=
  leBytes 4 r.index ++ leBytes 2 r.code ++ leBytes 1 r.cls ++ leBytes 1 r.source ++ leBytes 8 r.time ++ leBytes 1 r.die
    ++ leBytes 1 r.unit ++ leBytes 2 r.inst ++ leBytes 2 r.status ++ leBytes 2 r.count ++ leBytes 8 r.arg

/-- Queues a Cleat notice; PCF holds at most 64 and drops the oldest beyond that (R527). -/
def notice (s : State) (kind : Nat) (body : List Byte) : State :=
  let l := s.err.notices ++ [(s.err.noticeSeq, leBytes 1 kind ++ body)]
  let s1 := if 64 < l.length then bump s errNoticeDrop else s
  { s1 with err := { s1.err with notices := l.drop (l.length - 64), noticeSeq := (s.err.noticeSeq + 1) % 256 } }

/-- Whether a record of a class goes out as a Cleat notice (R526). -/
def noticeWanted (s : State) (cls : Nat) : Bool :=
  let m := setting s idErrNoticeMin
  setting s idCleatNoticeDest ≠ 0xFF &&
    (match cls with
     | 0 => m == 0
     | 1 => m ≤ 1
     | 2 => m ≤ 1
     | 3 => true
     | 4 => true
     | 6 => m ≤ 6
     | _ => false)

/-- AER on a record of the PF log (R526): the status bit is set, and a message sent unless masked. -/
def aerReport (s : State) (cls : Nat) : State :=
  match cls with
  | 0 =>
    let s1 := { s with pcie := { s.pcie with aerCorStatus := true } }
    if s.pcie.aerCorMask then s1 else emit s1 (.aer false false)
  | 3 =>
    let s1 := { s with pcie := { s.pcie with aerUncStatus := true } }
    if s.pcie.aerUncMask then s1 else emit s1 (.aer true s.pcie.aerUncFatal)
  | 4 =>
    let s1 := { s with pcie := { s.pcie with aerUncStatus := true } }
    if s.pcie.aerUncMask then s1 else emit s1 (.aer true s.pcie.aerUncFatal)
  | _ => s

/-- Records a log holds: 4,096 for the PF, 256 for a VF (R523). -/
def logCap (n : Nat) : Nat := if n = 0 then 4096 else 256

/-- Writes one record into a log: INDEX, the ring, INST_IRQ_STATUS.ERR and vector 1, and for the PF log the totals, AER and
the notice (R523, R526). -/
def pushErr (s : State) (n : Nat) (r : ErrRec) : State :=
  let l := errLog s n
  let r' := { r with index := l.next }
  let recs := l.recs ++ [r']
  let s1 := setErrLog s n { l with next := l.next + 1, recs := recs.drop (recs.length - logCap n) }
  let s2 := signalInst s1 n 1
  if n = 0 then
    let s3 := if r.cls = 0 then bump s2 errCeTotal else if r.cls ≤ 4 then bump s2 errUeTotal else s2
    let s4 := aerReport s3 r.cls
    if noticeWanted s4 r.cls then notice s4 1 (errBytes r') else s4
  else s2

/-- Codes whose records are coalesced (R522). -/
def coalesced (code : Nat) : Bool := [0x1032, 0x1031, 0x1033, 0x1005, 0x1022, 0x1037].contains code

/-- Enters an occurrence in one log: held while a hold of its code runs, else written, which starts a hold (R522). It wakes a halted
SCP (R454). -/
def logErr (s0 : State) (n : Nat) (r : ErrRec) : State :=
  let s := { s0 with power := { s0.power with scp := true } }
  let r' := { r with time := s.hubTime }
  if coalesced r.code then
    let l := errLog s n
    match l.holds.find? (fun h => h.1 == r.code) with
    | some h => setErrLog s n { l with holds := tput l.holds r.code { count := h.2.count + 1, last := some r' } }
    | none => pushErr (setErrLog s n { l with holds := tput l.holds r.code {} }) n r'
  else pushErr s n r'

/-- A record for the PF, and for the owner when it is a VF (R521). -/
def logPfOwner (s : State) (owner : Nat) (r : ErrRec) : State :=
  let s1 := logErr s 0 r
  if owner = 0 then s1 else logErr s1 owner r

/-! ### Host memory and event records (R66 to R69) -/

/-- One mark of a VF's dirty log: the page's byte becomes 1, or the miss is counted (R333, R445 to R447). -/
def dirtyMark (s : State) (log : Nat × Nat × Nat) (page : Nat) : State :=
  let base := log.2.1
  if base ≤ page * 4096 && page * 4096 < base + log.2.2 then
    setReg { s with hostMem := mset s.hostMem (log.1 + (page * 4096 - base) / 4096) 1 } tntLogSync (reg s tntLogSync + 1)
  else bump s tntLogMissCnt

/-- A posted write of host memory on behalf of function `fn`; while the VF's dirty log runs, one mark for each 4 KiB page
is posted before it (R333, R447). -/
def hostWrite (s : State) (fn a : Nat) (bs : List Byte) : State :=
  let s1 := match (tget {} s.tenants fn).log with
    | some l =>
      if bs.isEmpty then s
      else ((List.range ((a + bs.length - 1) / 4096 + 1 - a / 4096)).map (· + a / 4096)).foldl (fun s p => dirtyMark s l p) s
    | none => s
  { s1 with hostMem := mwrite s1.hostMem a bs }

/-- The 32 bytes of an event record (R68). -/
def evBytes (typ inst seq time status detail object arg : Nat) : List Byte :=
  leBytes 2 typ ++ leBytes 2 inst ++ leBytes 4 seq ++ leBytes 8 time ++ leBytes 2 status ++ leBytes 2 detail
    ++ leBytes 4 object ++ leBytes 8 arg

/-- A tenant that is frozen, saving or restoring (R436). -/
def tenantHeld (s : State) (n : Nat) : Bool :=
  n ≠ 0 && (match (tget {} s.tenants n).state with
    | .frozen => true
    | .saving => true
    | .restoring => true
    | _ => false)

/-- Nothing of the instance's queues is fetched or started: its tenant is freezing, frozen, saving or restoring, or is being reset
(R432, R434, R436). -/
def tenantStops (s : State) (n : Nat) : Bool :=
  n ≠ 0 && (tenantHeld s n || (tget {} s.tenants n).state == .freezing || (tget {} s.tenants n).resetting.isSome)

/-- A C-die that drains for its quarantine: its queues neither fetch nor start, and nothing new is placed on it (R418). -/
def dieDraining (s : State) (d : Nat) : Bool := s.twin.dieOps.any fun p => p.1 == d && !p.2.back

/-- Puts an event record into its slot of an instance's ring, and signals vector 2 (R67). -/
def putEvent (s : State) (n : Nat) (body : List Byte) : State :=
  match s.rings.find? (fun r => r.1 == n) with
  | none => s
  | some r => signalInst (hostWrite s n (r.2.addr + (field body 4 4 - 1) % r.2.entries * 32) body) n 2

/-- Holds an event record of a frozen tenant: at most 256, the oldest dropped beyond that (R436). -/
def holdEvent (s : State) (n : Nat) (body : List Byte) : State :=
  let t := tget {} s.tenants n
  let l := t.heldEvents ++ [body]
  { s with tenants := tput s.tenants n { t with heldEvents := l.drop (l.length - 256) } }

/-- Writes one event record into the ring of instance `n`, on behalf of owner `inst` (R67, R68); without a ring it is dropped
(R66), and so it is for a VF that is being reset (R432); a frozen tenant's is held. A record written to the PF is also sent as a
notice (R527). -/
def eventTo (s : State) (n inst typ object arg status detail : Nat) : State :=
  match s.rings.find? (fun r => r.1 == n) with
  | none => s
  | some r =>
    if (tget {} s.tenants n).resetting.isSome then s
    else
      let body := evBytes typ inst r.2.next.toNat s.hubTime status detail object arg
      let nx := if r.2.next + 1 = 0 then 1 else r.2.next + 1
      let s1 := { s with rings := tput s.rings n { r.2 with next := nx } }
      if tenantHeld s n then holdEvent s1 n body
      else
        let s2 := putEvent s1 n body
        if n = 0 && setting s2 idCleatNoticeDest ≠ 0xFF then notice s2 2 body else s2

/-- An event of an object's owner that also goes to the PF (R69, "PF"). -/
def eventPf (s : State) (owner typ object arg status detail : Nat) : State :=
  let s1 := if owner = 0 then s else eventTo s owner owner typ object arg status detail
  eventTo s1 0 owner typ object arg status detail

/-- The instance of an issuer: the Cleat port's requests are PF requests (R511). -/
def opInst (issuer : Nat) : Nat := if issuer < 64 then issuer else 0

/-- The OP_DONE event of an ACCEPTED operation (R66). -/
def opDone (s : State) (op : OpId) (status detail : Nat) : State :=
  eventTo s (opInst op.issuer) (opInst op.issuer) 0x0001 (op.seq.toNat * 65536 + op.tag.toNat) op.opcode status detail

/-! ### Status codes (R62, R143, R160, R392) -/

abbrev stOk : Nat := 0x0000
abbrev stTransition : Nat := 0x0001
abbrev stAccepted : Nat := 0x0002
abbrev stBadRequest : Nat := 0x0010
abbrev stUnknownOpcode : Nat := 0x0011
abbrev stVersion : Nat := 0x0012
abbrev stDenied : Nat := 0x0020
abbrev stBusy : Nat := 0x0021
abbrev stNotFound : Nat := 0x0022
abbrev stQuota : Nat := 0x0023
abbrev stIncompatible : Nat := 0x0024
abbrev stWrongState : Nat := 0x0025
abbrev stFrozen : Nat := 0x0026
abbrev stPoolEmpty : Nat := 0x0030
abbrev stOverloaded : Nat := 0x0031
abbrev stBundleRetired : Nat := 0x0032
abbrev stWaitPage : Nat := 0x0033
abbrev stVerifyFail : Nat := 0x0040
abbrev stStoreFail : Nat := 0x0041
abbrev stGroupHang : Nat := 0x0050
abbrev stXlateFault : Nat := 0x0051
abbrev stPageFault : Nat := 0x0052
abbrev stPoisoned : Nat := 0x0053
abbrev stRemoteDenied : Nat := 0x0060
abbrev stUnreachable : Nat := 0x0061
abbrev stDeviceError : Nat := 0x00FF

/-! ### Thermal shutdown -/

/-- What a package that has shut down for its temperature does of anything but a package reset: nothing (R464). -/
def whenLive (s : State) (o : Host.Outcome State Fault Refusal) : Host.Outcome State Fault Refusal :=
  if s.power.shutdown then .next s else o

/-! ### Mailboxes -/

def mbx (s : State) (n : Nat) : Mailbox := tget {} s.mbxs n
def setMbx (s : State) (n : Nat) (m : Mailbox) : State := { s with mbxs := tput s.mbxs n m }

/-- The bytes of a window. -/
def winRead (w : Tab Byte) (n : Nat) : List Byte := mread w 0 n

/-- The frame of a response as it lies in the response window (R45). -/
def frameBytes (opcode : Nat) (tag : Half) (flags status detail : Nat) (payload : List Byte) : List Byte :=
  leBytes 2 opcode ++ leBytes 2 tag.toNat ++ leBytes 4 payload.length ++ leBytes 4 flags ++ leBytes 2 status
    ++ leBytes 2 detail ++ payload

/-- Enters DONE with a response in the response window, INST_IRQ_STATUS.MBX, and vector 0 under RESP_IE (R50). The window is the
frame alone: the spec does not say what lies past the frame, and the model has zero there (log entry 48). -/
def deliver (s : State) (n : Nat) (frame : List Byte) : State :=
  let m := mbx s n
  let s1 := setMbx s n { m with state := .done, doneAt := some s.hubTime, respWin := mwrite [] 0 frame, outstanding := none,
                                timer := false }
  let s2 := orReg s1 (instBase n + instIrqOff) 1
  if (reg s2 (instBase n + mbxCtrlOff)).getLsbD 0 then raiseVec s2 n 0 else s2

end Sys2Proof.Machine
end

