-- ==== Sys2Proof/Machine/QueueBase.lean ====
section
/-! DEFINITION. Queue contexts and the commands they hold: looking one up and ending it (chapter 06). -/

namespace Sys2Proof.Machine

def queue (s : State) (q : Nat) : Queue := tget {} s.eng.queues q
def setQueue (s : State) (q : Nat) (x : Queue) : State := { s with eng := { s.eng with queues := tput s.eng.queues q x } }

/-- The command of index `i` that a queue holds. -/
def findCmd (x : Queue) (i : Nat) : Option Cmd := x.cmds.find? (·.index == i)

/-- Replaces the command with the same index. -/
def putCmd (x : Queue) (c : Cmd) : Queue := { x with cmds := x.cmds.map fun d => if d.index == c.index then c else d }

def cmdOpcode (c : Cmd) : Nat := field c.bytes 0 1
def cmdFlags (c : Cmd) : Nat := field c.bytes 1 1
def cmdOpflags (c : Cmd) : Nat := field c.bytes 4 4

/-- Where an address field of a command lies, as translated at fetch or start (R151). -/
def cmdLoc (c : Cmd) (off : Nat) : Option Loc := match c.xl.find? (fun p => p.1 == off) with
  | some (_, some l) => some l
  | _ => none

/-- Distance of an index from a queue's DONE, modulo 2^32. -/
def doneDist (x : Queue) (i : Nat) : Nat := (i + 2 ^ 32 - x.done) % 2 ^ 32

/-- The one of two indices that is nearer to DONE. -/
def nearer (x : Queue) (i j : Nat) : Nat := if doneDist x i < doneDist x j then i else j

/-- DONE: one past the last command of the unbroken run of completed ones (R145, R148). A command that was dropped, or that ended in an
error record, has not completed. -/
def doneOf (x : Queue) : Nat := (x.cmds.map (·.index) ++ x.lost.toList).foldl (nearer x) x.head

/-- Commands that will not complete. -/
def loseCmds (x : Queue) (l : List Nat) : Queue := match l ++ x.lost.toList with
  | [] => x
  | i :: t => { x with lost := some (t.foldl (nearer x) i) }

/-- Drops the commands that have been fetched and not started: they write no record (R159). -/
def dropFetched (x : Queue) : Queue :=
  loseCmds { x with cmds := x.cmds.filter fun c => c.stage != CmdStage.fetched }
    ((x.cmds.filter fun c => c.stage == CmdStage.fetched).map (·.index))

/-- Takes a command from the queue's context. -/
def removeCmd (x : Queue) (i : Nat) : Queue := { x with cmds := x.cmds.filter fun d => d.index != i }

/-- The command of index `i` with opcode `op` that queue `q` has started (R155). -/
def startedCmd (s : State) (q i op : Nat) : Option Cmd :=
  match findCmd (queue s q) i with
  | some c => if cmdOpcode c = op && c.stage = .started then some c else none
  | none => none

/-- The command of index `i` with opcode `op` whose effect is under way. -/
def runningCmd (s : State) (q i op : Nat) : Option Cmd :=
  match findCmd (queue s q) i with
  | some c => if cmdOpcode c = op && c.stage = .running then some c else none
  | none => none

/-- Sets the stage of a command. -/
def setStage (s : State) (q i : Nat) (st : CmdStage) : State :=
  let x := queue s q
  match findCmd x i with
  | some c => setQueue s q (putCmd x { c with stage := st })
  | none => s

/-- The effects of a command have taken place with this outcome; its record is due at COMMAND_COMPLETE (R156). -/
def endCmd (s : State) (q i : Nat) (r : CmdRes) : State := setStage s q i (.ended r)

/-- Marks the command's counter as incremented, or left to another event. -/
def markCounted (s : State) (q i : Nat) : State :=
  let x := queue s q
  match findCmd x i with
  | some c => setQueue s q (putCmd x { c with counted := true })
  | none => s

end Sys2Proof.Machine
end

