-- ==== Sys2Proof/Machine/Flags.lean ====
section
/-!
DEFINITION. The sticky flags of a thread (R222) and the integer operations that raise them (R218 to R221).
-/

namespace Sys2Proof.Machine

/-- Bits of SR_FLAGS. -/
abbrev flNX : Nat := 1
abbrev flUF : Nat := 2
abbrev flOF : Nat := 4
abbrev flDZ : Nat := 8
abbrev flNV : Nat := 16
abbrev flIOV : Nat := 32
abbrev flIDZ : Nat := 64

/-- Width in bits of an integer type. -/
def intWidth : IntTy → Nat
  | .i8 => 8
  | .u8 => 8
  | .i16 => 16
  | .u16 => 16
  | .i32 => 32
  | .u32 => 32
  | .i64 => 64
  | .u64 => 64

def intSigned : IntTy → Bool
  | .i8 => true
  | .i16 => true
  | .i32 => true
  | .i64 => true
  | _ => false

/-- The value of a `w`-bit word as a signed integer. -/
def sval (w x : Nat) : Int := if 2 ^ (w - 1) ≤ x % 2 ^ w then (x % 2 ^ w : Nat) - 2 ^ w else (x % 2 ^ w : Nat)

/-- The value of a `w`-bit word in the signedness of an instruction. -/
def ival (sg : Bool) (w x : Nat) : Int := if sg then sval w x else (x % 2 ^ w : Nat)

/-- An integer modulo 2^w. -/
def wrap (w : Nat) (v : Int) : Nat := (v % 2 ^ w).toNat

/-- Least and greatest value of an integer type. -/
def intMin (sg : Bool) (w : Nat) : Int := if sg then -(2 ^ (w - 1)) else 0
def intMax (sg : Bool) (w : Nat) : Int := if sg then 2 ^ (w - 1) - 1 else 2 ^ w - 1

/-- The clamped value and IOV exactly when it clamps (R221). -/
def saturate (sg : Bool) (w : Nat) (v : Int) : Nat × Nat :=
  if v < intMin sg w then (wrap w (intMin sg w), flIOV)
  else if intMax sg w < v then (wrap w (intMax sg w), flIOV)
  else (wrap w v, 0)

/-- Integer quotient with the edge cases of R219; `sat` is DIV.SAT. -/
def intDivVal (sg sat : Bool) (w a b : Nat) : Nat × Nat :=
  let x := ival sg w a
  let y := ival sg w b
  if y = 0 then (2 ^ w - 1, flIDZ)
  else if sg && x == intMin true w && y == -1 then (if sat then 2 ^ (w - 1) - 1 else 2 ^ (w - 1), flIOV)
  else (wrap w (x.tdiv y), 0)

/-- Integer remainder (R219): the sign of the dividend, or zero. -/
def intRemVal (sg : Bool) (w a b : Nat) : Nat × Nat :=
  let x := ival sg w a
  let y := ival sg w b
  if y = 0 then (wrap w x, flIDZ) else (wrap w (x.tmod y), 0)

/-- Shifts and rotates with an unmasked 32-bit amount (R220). -/
def shlVal (w x n : Nat) : Nat := if n < w then x * 2 ^ n % 2 ^ w else 0
def shrVal (w x n : Nat) : Nat := if n < w then x % 2 ^ w / 2 ^ n else 0
def sarVal (w x n : Nat) : Nat :=
  if n < w then wrap w (sval w x / 2 ^ n) else if sval w x < 0 then 2 ^ w - 1 else 0
def rolVal (w x n : Nat) : Nat :=
  let k := n % w
  (x % 2 ^ w * 2 ^ k + x % 2 ^ w / 2 ^ (w - k)) % 2 ^ w
def rorVal (w x n : Nat) : Nat := rolVal w x (w - n % w)

/-- Leading zeros; `w` for 0 (R220). -/
def clzVal (w x : Nat) : Nat := if x % 2 ^ w = 0 then w else w - 1 - Nat.log2 (x % 2 ^ w)

/-- Trailing zeros of the low bits, counted upwards (R220). -/
def ctzFrom (x : Nat) : Nat → Nat
  | 0 => 0
  | n + 1 => if x % 2 = 1 then 0 else 1 + ctzFrom (x / 2) n
def ctzVal (w x : Nat) : Nat := ctzFrom (x % 2 ^ w) w

end Sys2Proof.Machine
end

