-- ==== Sys2Proof/Machine/Operands.lean ====
section
/-!
DEFINITION. Floating-point values and formats: decoding, exact arithmetic, one rounding, conversions, minimum, maximum,
comparison, the correctly rounded functions, microscaling (R205 to R217). A finite value is `m × 2^e` with a sign.
-/

namespace Sys2Proof.Machine

/-- A floating-point value. `sig` marks a signalling NaN (R209). -/
inductive FVal where
  | nan (sig : Bool)
  | inf (neg : Bool)
  | fin (neg : Bool) (m : Nat) (e : Int)
  deriving DecidableEq, Repr

/-- Exponent bits, mantissa bits, bias of a format (R205, R206). -/
def fmtEb : FpFmt → Nat
  | .fp32 => 8
  | .fp16 => 5
  | .bf16 => 8
  | .e4m3 => 4
  | .e5m2 => 5
  | .e2m1 => 2
def fmtMb : FpFmt → Nat
  | .fp32 => 23
  | .fp16 => 10
  | .bf16 => 7
  | .e4m3 => 3
  | .e5m2 => 2
  | .e2m1 => 1
def fmtBias : FpFmt → Nat
  | .fp32 => 127
  | .fp16 => 15
  | .bf16 => 127
  | .e4m3 => 7
  | .e5m2 => 15
  | .e2m1 => 1
/-- Largest exponent of a finite value, and its largest mantissa there, hidden bit included. -/
def fmtEmax : FpFmt → Int
  | .fp32 => 127
  | .fp16 => 15
  | .bf16 => 127
  | .e4m3 => 8
  | .e5m2 => 15
  | .e2m1 => 2
def fmtMaxMant : FpFmt → Nat
  | .e4m3 => 14
  | f => 2 ^ ((fmtMb f) + 1) - 1
/-- Bits of an encoding. -/
def fmtWidth (f : FpFmt) : Nat := 1 + (fmtEb f) + (fmtMb f)
/-- FP32, FP16 and BF16 follow IEEE 754 (R205). -/
def fmtIeee : FpFmt → Bool
  | .fp32 => true
  | .fp16 => true
  | .bf16 => true
  | _ => false

/-- The default NaN (R209); a NaN into FP4 gives +0 (R213). -/
def defaultNan : FpFmt → Nat
  | .fp32 => 0x7FC00000
  | .fp16 => 0x7E00
  | .bf16 => 0x7FC0
  | .e4m3 => 0x7F
  | .e5m2 => 0x7F
  | .e2m1 => 0

/-- The value of an encoding (R205, R206, R208, R209). -/
def fdecode (f : FpFmt) (x : Nat) : FVal :=
  let neg := bitOf x ((fmtWidth f) - 1)
  let ex := x / 2 ^ (fmtMb f) % 2 ^ (fmtEb f)
  let mt := x % 2 ^ (fmtMb f)
  let top := ex = 2 ^ (fmtEb f) - 1
  let special := match f with
    | .e4m3 => top && mt == 7
    | .e2m1 => false
    | _ => top
  if special then
    match f with
    | .e4m3 => .nan false
    | .e5m2 => if mt = 0 then .inf neg else .nan false
    | _ => if mt = 0 then .inf neg else .nan (mt < 2 ^ ((fmtMb f) - 1))
  else if ex = 0 then .fin neg mt (1 - ((fmtBias f) : Int) - (fmtMb f))
  else .fin neg (2 ^ (fmtMb f) + mt) ((ex : Int) - (fmtBias f) - (fmtMb f))
where bitOf (x n : Nat) : Bool := x / 2 ^ n % 2 == 1

/-- A result's encoding with the flags it raises. -/
abbrev FRes := Nat × Nat

def signBit (f : FpFmt) (neg : Bool) : Nat := if neg then 2 ^ ((fmtWidth f) - 1) else 0
def infBits (f : FpFmt) (neg : Bool) : Nat := signBit f neg + (2 ^ (fmtEb f) - 1) * 2 ^ (fmtMb f)
def maxBits (f : FpFmt) (neg : Bool) : Nat :=
  signBit f neg + (((fmtEmax f) + (fmtBias f)).toNat * 2 ^ (fmtMb f) + ((fmtMaxMant f) - 2 ^ (fmtMb f)))

/-- Whether a rounding adds one unit, from the part cut off (R207). -/
def roundUp (rm : Rm) (neg odd : Bool) (rem half : Nat) (sticky : Bool) : Bool :=
  match rm with
  | .rne => half < rem || (rem == half && (sticky || odd))
  | .rz => false
  | .ru => !neg && (rem != 0 || sticky)
  | .rd => neg && (rem != 0 || sticky)

/-- `m` cut by `sh` bits and rounded, and whether that was inexact. -/
def cutRound (rm : Rm) (neg : Bool) (m sh : Nat) (sticky : Bool) : Nat × Bool :=
  let q := m / 2 ^ sh
  let rem := m % 2 ^ sh
  (q + (if roundUp rm neg (q % 2 == 1) (2 * rem) (2 ^ sh) sticky then 1 else 0), rem != 0 || sticky)

/-- The outcome of an overflow (R213): infinity or the largest finite value as IEEE 754 gives for RM, or saturation. -/
def overflowRes (f : FpFmt) (rm : Rm) (sat neg : Bool) : FRes :=
  let toInf := match rm with
    | .rne => true
    | .rz => false
    | .ru => !neg
    | .rd => neg
  (if sat || !(fmtIeee f) || !toInf then maxBits f neg else infBits f neg, flOF ||| flNX)

/-- The exact value (m + δ) × 2^e, 0 < δ < 1 when `sticky`, rounded once into a format, with OF, UF and NX (R207, R208, R213).
A sticky value carries at least two bits more than the format keeps. -/
def fround (f : FpFmt) (rm : Rm) (sat neg : Bool) (m : Nat) (e : Int) (sticky : Bool) : FRes :=
  if m = 0 && !sticky then (signBit f neg, 0)
  else
    let emin : Int := 1 - (fmtBias f)
    let top : Int := e + Nat.log2 m
    let q : Int := max (top - (fmtMb f)) (emin - (fmtMb f))
    let sh : Int := q - e
    let r := if sh ≤ 0 then (m * 2 ^ (-sh).toNat, sticky) else cutRound rm neg m sh.toNat sticky
    let big := r.1 = 2 ^ ((fmtMb f) + 1)
    let mant := if big then 2 ^ (fmtMb f) else r.1
    let q' := if big then q + 1 else q
    let unb := cutRound rm neg m (top - (fmtMb f) - e).toNat sticky
    let tiny := top < emin - 1 || (top < emin && !(top - (fmtMb f) - e > 0 && unb.1 == 2 ^ ((fmtMb f) + 1)))
    if q' + (fmtMb f) > (fmtEmax f) || (q' + (fmtMb f) == (fmtEmax f) && mant > (fmtMaxMant f)) then overflowRes f rm sat neg
    else
      let enc := if mant < 2 ^ (fmtMb f) then mant else (q' + (fmtMb f) + (fmtBias f)).toNat * 2 ^ (fmtMb f) + (mant - 2 ^ (fmtMb f))
      (signBit f neg + enc, if r.2 then (if tiny then flUF ||| flNX else flNX) else 0)

/-- An infinite result in a format: the largest finite value under saturation, with OF (R213). -/
def infRes (f : FpFmt) (sat neg : Bool) : FRes := if sat || !(fmtIeee f) then (maxBits f neg, flOF) else (infBits f neg, 0)

/-- A NaN result: the default NaN, and NV where a signalling NaN or an invalid operation gave it (R209). -/
def nanRes (f : FpFmt) (nv : Bool) : FRes := (defaultNan f, if nv then flNV else 0)

/-- Whether any of some operands is a signalling NaN. -/
def anySig (l : List FVal) : Bool := l.any fun v => match v with
  | .nan s => s
  | _ => false
def isNan : FVal → Bool
  | .nan _ => true
  | _ => false

/-! ### Addition and fused multiply-add -/

/-- A finite value's mantissa as a signed integer at exponent `q ≤ e`. -/
def scaledMant (neg : Bool) (m : Nat) (e q : Int) : Int :=
  let v : Int := m * 2 ^ (e - q).toNat
  if neg then -v else v

/-- The exact sum of finite terms, as a signed mantissa and an exponent. -/
def exactSum (l : List (Bool × Nat × Int)) : Int × Int :=
  let q := l.foldl (fun a t => min a t.2.2) (match l with
    | [] => 0
    | t :: _ => t.2.2)
  ((l.map fun t => scaledMant t.1 t.2.1 t.2.2 q).sum, q)

/-- An exact sum rounded once; a zero sum is −0 when every term is −0, +0 otherwise, or −0 under RD (R210). -/
def roundSum (f : FpFmt) (rm : Rm) (l : List (Bool × Nat × Int)) : FRes :=
  let s := exactSum l
  if s.1 = 0 then
    let allNeg := l.all (·.1)
    let somePos := l.any (fun t => !t.1)
    (signBit f (allNeg || (rm == .rd && l.any (·.1) && somePos)), 0)
  else fround f rm false (s.1 < 0) s.1.natAbs s.2 false

/-- FMA: a × b + c rounded once (R207, R210). -/
def fmaVal (f : FpFmt) (rm : Rm) (a b c : FVal) : FRes :=
  let zi := match a, b with
    | .fin _ 0 _, .inf _ => true
    | .inf _, .fin _ 0 _ => true
    | _, _ => false
  if zi then nanRes f true
  else if isNan a || isNan b || isNan c then nanRes f (anySig [a, b, c])
  else match a, b, c with
    | .fin na ma ea, .fin nb mb eb, .fin nc mc ec => roundSum f rm [(na != nb, ma * mb, ea + eb), (nc, mc, ec)]
    | .fin _ _ _, .fin _ _ _, .inf nc => (infBits f nc, 0)
    | .fin na _ _, .inf nb, .inf nc => if (na != nb) != nc then nanRes f true else (infBits f nc, 0)
    | .inf na, .fin nb _ _, .inf nc => if (na != nb) != nc then nanRes f true else (infBits f nc, 0)
    | .inf na, .inf nb, .inf nc => if (na != nb) != nc then nanRes f true else (infBits f nc, 0)
    | .fin na _ _, .inf nb, _ => (infBits f (na != nb), 0)
    | .inf na, .fin nb _ _, _ => (infBits f (na != nb), 0)
    | .inf na, .inf nb, _ => (infBits f (na != nb), 0)
    | _, _, _ => nanRes f false

/-- a + b rounded once. -/
def faddVal (f : FpFmt) (rm : Rm) (a b : FVal) : FRes :=
  if isNan a || isNan b then nanRes f (anySig [a, b])
  else match a, b with
    | .fin na ma ea, .fin nb mb eb => roundSum f rm [(na, ma, ea), (nb, mb, eb)]
    | .inf na, .inf nb => if na != nb then nanRes f true else (infBits f na, 0)
    | .inf na, _ => (infBits f na, 0)
    | _, .inf nb => (infBits f nb, 0)
    | _, _ => nanRes f false

/-- a × b rounded once. -/
def fmulVal (f : FpFmt) (rm : Rm) (a b : FVal) : FRes :=
  if isNan a || isNan b then nanRes f (anySig [a, b])
  else match a, b with
    | .fin na ma ea, .fin nb mb eb => fround f rm false (na != nb) (ma * mb) (ea + eb) false
    | .inf na, .inf nb => (infBits f (na != nb), 0)
    | .inf na, .fin nb mb _ => if mb = 0 then nanRes f true else (infBits f (na != nb), 0)
    | .fin na ma _, .inf nb => if ma = 0 then nanRes f true else (infBits f (na != nb), 0)
    | _, _ => nanRes f false

/-! ### Division, roots, exponential and logarithm (R210, R211) -/

/-- a ÷ b rounded once. -/
def fdivVal (f : FpFmt) (rm : Rm) (a b : FVal) : FRes :=
  if isNan a || isNan b then nanRes f (anySig [a, b])
  else match a, b with
    | .inf _, .inf _ => nanRes f true
    | .inf na, .fin nb _ _ => (infBits f (na != nb), 0)
    | .fin na _ _, .inf nb => (signBit f (na != nb), 0)
    | .fin na ma ea, .fin nb mb eb =>
      if mb = 0 then (if ma = 0 then nanRes f true else (infBits f (na != nb), flDZ))
      else fround f rm false (na != nb) (ma * 2 ^ 64 / mb) (ea - eb - 64) (ma * 2 ^ 64 % mb != 0)
    | _, _ => nanRes f false

/-- The integer square root of `n`, by bits from 2^k down. -/
def isqrtFrom (n : Nat) : Nat → Nat → Nat
  | 0, r => r
  | k + 1, r => isqrtFrom n k (if (r + 2 ^ k) * (r + 2 ^ k) ≤ n then r + 2 ^ k else r)
def isqrt (n : Nat) : Nat := isqrtFrom n (Nat.log2 n / 2 + 1) 0

def fsqrtVal (f : FpFmt) (rm : Rm) (a : FVal) : FRes :=
  match a with
  | .nan s => nanRes f s
  | .inf n => if n then nanRes f true else (infBits f false, 0)
  | .fin n m e =>
    if m = 0 then (signBit f n, 0)
    else if n then nanRes f true
    else
      let m1 := if e % 2 = 0 then m * 2 ^ 64 else m * 2 ^ 65
      let e1 := if e % 2 = 0 then e - 64 else e - 65
      let r := isqrt m1
      fround f rm false false r (e1 / 2) (r * r != m1)

def frcpVal (f : FpFmt) (rm : Rm) (a : FVal) : FRes := fdivVal f rm (.fin false 1 0) a

def frsqrtVal (f : FpFmt) (rm : Rm) (a : FVal) : FRes :=
  match a with
  | .nan s => nanRes f s
  | .inf n => if n then nanRes f true else (signBit f false, 0)
  | .fin n m e =>
    if m = 0 then (infBits f n, flDZ)
    else if n then nanRes f true
    else
      let m1 := if e % 2 = 0 then m else 2 * m
      let e1 := if e % 2 = 0 then e else e - 1
      let r := isqrt (2 ^ 160 / m1)
      fround f rm false false r (-80 - e1 / 2) (r * r * m1 != 2 ^ 160)

/-- Fixed-point fraction bits of the exponential and logarithm: far beyond the 149 that an FP32 argument can hold, so that one
rounding of the evaluation is the rounding of the exact value (DEDUCED, log entry 20). -/
abbrev fxBits : Nat := 240
/-- ln 2 in fixed point. -/
abbrev ln2Fx : Nat := 1224685061431752149387114016819916847747660333428801675508466606222838698

/-- Σ y^k / k! from term `t` on, in fixed point. -/
def expSeries (y : Nat) : Nat → Nat → Nat → Nat
  | 0, _, _ => 0
  | fuel + 1, k, t => t + expSeries y fuel (k + 1) (t * y / 2 ^ fxBits / (k + 1))
/-- 2^x for a fixed-point fraction. -/
def exp2Frac (x : Nat) : Nat := expSeries (x * ln2Fx / 2 ^ fxBits) 60 0 (2 ^ fxBits)

/-- EXP2. -/
def fexp2Val (f : FpFmt) (rm : Rm) (a : FVal) : FRes :=
  match a with
  | .nan s => nanRes f s
  | .inf n => if n then (signBit f false, 0) else (infBits f false, 0)
  | .fin n m e =>
    let v := scaledMant n m e (-fxBits)
    let i := v / 2 ^ fxBits
    let fr := (v % 2 ^ fxBits).toNat
    let i' := max (-400) (min 400 i)
    if fr = 0 then fround f rm false false 1 i' false
    else fround f rm false false (exp2Frac fr) (i' - fxBits) true

/-- Σ z^(2k+1) / (2k+1) from term `t` on, in fixed point. -/
def atanhSeries (z2 : Nat) : Nat → Nat → Nat → Nat
  | 0, _, _ => 0
  | fuel + 1, k, t => t / (2 * k + 1) + atanhSeries z2 fuel (k + 1) (t * z2 / 2 ^ fxBits)

/-- log2 of a mantissa m / 2^p in [1, 2), in fixed point. -/
def log2Frac (m p : Nat) : Nat :=
  let z := (m - 2 ^ p) * 2 ^ fxBits / (m + 2 ^ p)
  2 * atanhSeries (z * z / 2 ^ fxBits) 80 0 z * 2 ^ fxBits / ln2Fx

/-- LOG2. -/
def flog2Val (f : FpFmt) (rm : Rm) (a : FVal) : FRes :=
  match a with
  | .nan s => nanRes f s
  | .inf n => if n then nanRes f true else (infBits f false, 0)
  | .fin n m e =>
    if m = 0 then (infBits f true, flDZ)
    else if n then nanRes f true
    else
      let p := Nat.log2 m
      let ei : Int := e + p
      if m = 2 ^ p then fround f rm false (ei < 0) ei.natAbs 0 false
      else
        let v : Int := ei * 2 ^ fxBits + log2Frac m p
        fround f rm false (v < 0) (v.natAbs / 2 ^ 40) (-200) true

/-! ### Minimum, maximum, comparison (R212) -/

/-- Strict order of two numbers with −0 below +0. -/
def numLt (zeroOrder : Bool) : FVal → FVal → Bool
  | .inf na, .inf nb => na && !nb
  | .inf na, .fin _ _ _ => na
  | .fin _ _ _, .inf nb => !nb
  | .fin na ma ea, .fin nb mb eb =>
    if ma = 0 && mb = 0 then zeroOrder && na && !nb
    else
      let q := min ea eb
      scaledMant na ma ea q < scaledMant nb mb eb q
  | _, _ => false

/-- minimumNumber or maximumNumber of two encodings. -/
def minMaxVal (f : FpFmt) (isMax : Bool) (x y : Nat) : FRes :=
  let a := fdecode f x
  let b := fdecode f y
  let fl := if anySig [a, b] then flNV else 0
  if isNan a && isNan b then (defaultNan f, fl)
  else if isNan a then (y, fl)
  else if isNan b then (x, fl)
  else
    let aLess := numLt true a b
    ((if aLess != isMax then x else y), fl)

/-- A comparison and its flags. -/
def cmpVal (c : FpCmp) (a b : FVal) : Bool × Nat :=
  let nan := isNan a || isNan b
  let quiet := c == .eq || c == .ne
  let fl := if nan && (!quiet || anySig [a, b]) then flNV else 0
  let lt := numLt false a b
  let gt := numLt false b a
  let r := match c with
    | .eq => !nan && !lt && !gt
    | .ne => nan || lt || gt
    | .lt => !nan && lt
    | .le => !nan && !gt
    | .gt => !nan && gt
    | .ge => !nan && !lt
  (r, fl)

/-! ### Conversions (R213 to R216) -/

/-- A value times 2^k into a format (R213): SAT for the narrow formats always. -/
def convVal (f : FpFmt) (rm : Rm) (sat : Bool) (v : FVal) (k : Int) : FRes :=
  let st := sat || !(fmtIeee f)
  match v with
  | .nan s => (defaultNan f, if s || f == .e2m1 then flNV else 0)
  | .inf n => infRes f st n
  | .fin n m e => fround f rm st n m (e + k) false

/-- A value rounded to an integer, exactly (sign, magnitude) with inexactness. -/
def roundInt (rm : Rm) (neg : Bool) (m : Nat) (e : Int) : Int × Bool :=
  let r := if 0 ≤ e then (m * 2 ^ e.toNat, false) else cutRound rm neg m (-e).toNat false
  (if neg then -(r.1 : Int) else r.1, r.2)

/-- Floating point to integer (R214). -/
def toIntVal (t : IntTy) (rm : Rm) (v : FVal) : Nat × Nat :=
  let w := intWidth t
  let lo := intMin (intSigned t) w
  let hi := intMax (intSigned t) w
  match v with
  | .nan _ => (0, flNV)
  | .inf n => (wrap w (if n then lo else hi), flNV)
  | .fin n m e =>
    let r := roundInt rm n m e
    if r.1 < lo then (wrap w lo, flNV)
    else if hi < r.1 then (wrap w hi, flNV)
    else (wrap w r.1, if r.2 then flNX else 0)

/-- Integer to floating point (R215). -/
def fromIntVal (f : FpFmt) (rm : Rm) (sat : Bool) (v : Int) : FRes := fround f rm (sat || !(fmtIeee f)) (v < 0) v.natAbs 0 false

/-- A scaled element conversion (R216). -/
def scaledConvVal (f : FpFmt) (rm : Rm) (sat : Bool) (v : FVal) (x : Nat) : FRes :=
  if x = 0xFF then (defaultNan f, 0)
  else match v with
    | .nan _ => (defaultNan f, 0)
    | _ => convVal f rm sat v ((x : Int) - 127)

/-! ### QMX (R217) -/

/-- Largest exponent of a QMX element format. -/
def qmxEmax : FpFmt → Int
  | .e4m3 => 8
  | .e5m2 => 15
  | _ => 2

/-- ⌊log2⌋ of a non-zero finite magnitude. -/
def floorLog2 : FVal → Int
  | .fin _ m e => e + Nat.log2 m
  | _ => 0
def isZeroVal : FVal → Bool
  | .fin _ m _ => m == 0
  | _ => false
def isFinite : FVal → Bool
  | .fin _ _ _ => true
  | _ => false

/-- One block quantised: the scale, the element encodings, the union of the flags. -/
def qmxVal (f : FpFmt) (rm : Rm) (vs : List FVal) : Nat × List Nat × Nat :=
  if vs.any (fun v => !isFinite v) then (0xFF, vs.map fun _ => defaultNan f, flNV)
  else if vs.all isZeroVal then (0, vs.map fun _ => 0, 0)
  else
    let nz := vs.filter (fun v => !isZeroVal v)
    let a := nz.foldl (fun m v => max m (floorLog2 v)) (match nz with
      | [] => 0
      | v :: _ => floorLog2 v)
    let e : Int := max (-127) (min 127 (a - qmxEmax f))
    let rs := vs.map fun v => convVal f rm true v (-e)
    ((e + 127).toNat, rs.map (·.1), rs.foldl (fun m r => m ||| r.2) 0)

/-! ### Exact sums of products for the matrix unit (R227, R228) -/

/-- Adds the exact sum of some products to an accumulator, rounded once to nearest even into FP32. -/
def chunkAdd (acc : FVal) (ps : List (FVal × FVal)) : FRes :=
  let prods : List FVal := ps.map fun p => match p.1, p.2 with
    | .nan _, _ => .nan false
    | _, .nan _ => .nan false
    | .inf na, .inf nb => .inf (na != nb)
    | .inf na, .fin nb m _ => if m = 0 then .nan false else .inf (na != nb)
    | .fin na m _, .inf nb => if m = 0 then .nan false else .inf (na != nb)
    | .fin na ma ea, .fin nb mb eb => .fin (na != nb) (ma * mb) (ea + eb)
  let all := acc :: prods
  let posInf := all.any (fun v => v == FVal.inf false)
  let negInf := all.any (fun v => v == FVal.inf true)
  if all.any isNan || (posInf && negInf) then (defaultNan .fp32, 0)
  else if posInf then (infBits .fp32 false, 0)
  else if negInf then (infBits .fp32 true, 0)
  else roundSum .fp32 .rne (all.filterMap fun v => match v with
    | .fin n m e => some (n, m, e)
    | _ => none)

end Sys2Proof.Machine
end

