-- ==== Sys2Proof/WellFormed.lean ====
section
/-!
DEFINITION. Well-formed commands: operands that lie in the ranges that the spec gives their fields, beyond what their types say. The
meanings are total and do not need this; a statement about a command's fields may.
-/

namespace Sys2Proof

/-- A register number: a thread has at most 256 registers (R177). -/
def isReg (r : Nat) : Bool := decide (r < 256)

/-- The threads of an issue that go elsewhere, and the lowest threads of the sets that are not ready, are threads of a group (R187). -/
def issueWf (i : Issue) : Bool := i.branch.all (fun b => decide (b.1 < 64)) && i.stalled.all fun b => decide (b.2 < 64)

/-- Sizes of a load or store: a power of two up to 16 bytes (R262). -/
def accessSize (n : Nat) : Bool := [1, 2, 4, 8, 16].contains n

/-- Sizes in bytes that an operation has (R278). -/
def atomSizes : AtomOp → List Nat
  | .cas => [4, 8, 16]
  | .fadd => [4]
  | .faddBf16 => [4]
  | .faddFp16 => [4]
  | .fmin => [4]
  | .fmax => [4]
  | _ => [4, 8]

/-- Bytes of a reduction element. -/
def redSize : RedFmt → Nat
  | .int32 => 4
  | .int64 => 8
  | .fp32 => 4
  | .bf16 => 2
  | .fp16 => 2

/-- The formats that a reduction operation takes (R279). -/
def redAllowed (op : AtomOp) (f : RedFmt) : Bool :=
  match op with
  | .add => true
  | .smin => f == .int32 || f == .int64
  | .smax => f == .int32 || f == .int64
  | .umin => f == .int32 || f == .int64
  | .umax => f == .int32 || f == .int64
  | .fmin => f == .fp32 || f == .bf16 || f == .fp16
  | .fmax => f == .fp32 || f == .bf16 || f == .fp16
  | .and => f == .int32 || f == .int64
  | .or => f == .int32 || f == .int64
  | .xor => f == .int32 || f == .int64
  | _ => false

/-- A reduction's operation takes its format, and its length is 4 to 128 bytes and a multiple of the element (R279). -/
def redWf (op : AtomOp) (f : RedFmt) (n : Nat) : Bool := redAllowed op f && decide (4 ≤ n) && decide (n ≤ 128) && n % redSize f == 0

/-- A register's place in BAR0: a multiple of 4 within 16 MiB (R35, R36). -/
def barWord (a : Nat) : Bool := a % 4 == 0 && decide (a < 2 ^ 24)

/-- A Hawser frame is 6,144 symbols on 2 or 4 lanes (R363, R365). -/
def lineWf (f : HwsLine) : Bool :=
  (f.lanes.length == 2 || f.lanes.length == 4) && f.lanes.all fun l => l.length * f.lanes.length == 6144

/-- The fields of an append's tag (R129), with as many elements as it counts. -/
def tagWf (t : AppendTag) (n : Nat) : Bool :=
  decide (t.session < 16384) && decide (t.kv ≤ 1) && decide (t.srcFormat ≤ 1) && t.count == n && decide (n ≤ 256)

/-- The fields of a partial record (R136). -/
def mergeWf (p : MergeRec) : Bool := decide (p.slot < 64) && decide (p.source < 8) && [64, 128, 256].contains p.o.length

/-- A request at a stack controller asks within one line, and a table write within one sector (R292). -/
def askWf (r : StackAsk) : Bool := decide (r.addr < 2 ^ 48) && (match r.use with
  | .tableWrite => decide (r.addr % 32 + r.data.length ≤ 32)
  | .firmwareWrite => decide (r.addr % 128 + r.data.length ≤ 128)
  | .bypassWrite => decide (r.addr % 128 + r.data.length ≤ 128)
  | .writeBack _ => r.addr % 128 == 0 && r.data.length == 128
  | _ => r.data.isEmpty)

/-- A Lenot message has at most 8 slots after its header, and a destination that exists (R340). -/
def lntWf (m : LntMsg) : Bool := decide (m.body.length ≤ 128) && decide (m.dst.val ≤ 8)

/-- The checks of each command. -/
def Instr.wf : Instr → Bool
  | .configRequest _ _ => true
  | .hotReset => true
  | .linkDownReset => true
  | .pfFunctionLevelReset => true
  | .vfFunctionLevelReset _ => true
  | .flrLaunchTimeout _ => true
  | .vfResetComplete _ => true
  | .vfEnableSet _ => true
  | .vfEnableClear => true
  | .bar2Read _ _ => true
  | .bar2Write _ d_data => !d_data.isEmpty
  | .bar2Atomicop _ => true
  | .hubBar2ApertureWrite _ _ => true
  | .blockWindowWrite addr _ _ => barWord addr
  | .qdbTailWrite _ slot _ _ => decide (slot < 1024)
  | .responseWindowWrite _ offset _ _ => decide (offset < 4096)
  | .registerWrite _ addr _ _ => barWord addr
  | .readClearRead _ r => barWord r.addr
  | .hubTimeLoRead => true
  | .srvSnapRead => true
  | .tntLogSyncRead => true
  | .go _ => true
  | .ack _ => true
  | .cancel _ => true
  | .mbxResponsePost _ => true
  | .mbxTimeoutExpiry _ => true
  | .pcfRestart => true
  | .discover _ => true
  | .capsQuery _ => true
  | .eventRingSet _ => true
  | .queueOpen _ _ _ _ => true
  | .queueClose _ => true
  | .queueCloseDrainComplete _ => true
  | .queueQuery _ => true
  | .bundleLoad _ => true
  | .bundleLoadVerifyComplete => true
  | .bundleReplicationComplete => true
  | .bundleSwap _ => true
  | .swapDrainEnd => true
  | .swapDrainExpiry => true
  | .swapHalfReplicated => true
  | .bundleQuery _ => true
  | .sessionCreate _ => true
  | .sessionEnd _ => true
  | .sessionQuery _ => true
  | .settingGet _ => true
  | .settingSet _ _ _ _ => true
  | .userLayerEraseComplete => true
  | .epochQuery _ => true
  | .epochDieStaged => true
  | .epochRetire _ => true
  | .tenantConfig _ => true
  | .rangeZeroFillComplete _ => true
  | .freeze _ => true
  | .freezeQuiesceComplete _ => true
  | .freezeLimitExpiry _ => true
  | .thaw _ => true
  | .save _ => true
  | .saveComplete _ => true
  | .restore _ => true
  | .restoreComplete _ => true
  | .startDirtyLog _ => true
  | .stopDirtyLog _ => true
  | .tenantQuery _ => true
  | .linkTest _ => true
  | .linkTestComplete _ _ _ _ _ _ => true
  | .linkQuery _ => true
  | .twinPair _ => true
  | .twinAttach _ => true
  | .twinDetach _ => true
  | .twinQuery _ => true
  | .blockAccessOpen _ => true
  | .blockAccessClose _ => true
  | .errRead _ => true
  | .dieQuarantine _ => true
  | .quarantineDrainComplete _ => true
  | .quarantineDrainExpiry _ => true
  | .dieReturnToService _ => true
  | .returnToServiceComplete _ => true
  | .enterDeepIdle _ => true
  | .wakeToIdle _ => true
  | .powerQuery _ => true
  | .stepBoundary => true
  | .turn _ index => decide (index < 2 ^ 32)
  | .reserve _ index => decide (index < 2 ^ 32)
  | .rowZeroFillComplete session => decide (session < 16384)
  | .commit _ index => decide (index < 2 ^ 32)
  | .rollback _ index => decide (index < 2 ^ 32)
  | .stat _ index => decide (index < 2 ^ 32)
  | .mergeArm _ index => decide (index < 2 ^ 32)
  | .mergeAbort _ index => decide (index < 2 ^ 32)
  | .appendWrite issuerAsid tag d_data => decide (issuerAsid < 4096) && tagWf tag d_data.length
  | .mergeWrite _ asid p => decide (asid < 4096) && mergeWf p
  | .mirrorSend session => decide (session < 16384)
  | .commandFetch _ => true
  | .commandStart _ index => decide (index < 2 ^ 32)
  | .commandComplete _ index => decide (index < 2 ^ 32)
  | .nop _ index => decide (index < 2 ^ 32)
  | .fence _ index => decide (index < 2 ^ 32)
  | .waitCmd _ index => decide (index < 2 ^ 32)
  | .waitTimeout _ index => decide (index < 2 ^ 32)
  | .waitHostPoll _ index => decide (index < 2 ^ 32)
  | .signal _ index => decide (index < 2 ^ 32)
  | .launch _ index => decide (index < 2 ^ 32)
  | .copy _ index => decide (index < 2 ^ 32)
  | .fill _ index => decide (index < 2 ^ 32)
  | .ucInval _ index => decide (index < 2 ^ 32)
  | .xlatInval _ index => decide (index < 2 ^ 32)
  | .xlatInvalWaitEnd _ => true
  | .rwrite _ i => decide (i < 2 ^ 32)
  | .rfence _ index => decide (index < 2 ^ 32)
  | .blockStart _ _ => true
  | .blockEnd _ _ => true
  | .groupWatchdogExpiry _ _ => true
  | .hangStopComplete _ => true
  | .autoSplit _ _ => true
  | .split at_ => issueWf at_
  | .repack at_ => issueWf at_
  | .converge at_ _ => issueWf at_
  | .yieldSet at_ => issueWf at_
  | .barBlock at_ => issueWf at_
  | .exitThread at_ => issueWf at_
  | .sgather at_ dst desc => issueWf at_ && isReg dst && isReg desc
  | .mwrite at_ die addr dim => issueWf at_ && isReg die && isReg addr && isReg dim
  | .fma at_ _ _ d a b c => issueWf at_ && isReg d && isReg a && isReg b && isReg c
  | .fpDiv at_ _ _ d a b => issueWf at_ && isReg d && isReg a && isReg b
  | .sqrt at_ _ _ d a => issueWf at_ && isReg d && isReg a
  | .rcp at_ _ _ d a => issueWf at_ && isReg d && isReg a
  | .rsqrt at_ _ _ d a => issueWf at_ && isReg d && isReg a
  | .exp2 at_ _ _ d a => issueWf at_ && isReg d && isReg a
  | .log2 at_ _ _ d a => issueWf at_ && isReg d && isReg a
  | .fpMin at_ _ d a b => issueWf at_ && isReg d && isReg a && isReg b
  | .fpMax at_ _ d a b => issueWf at_ && isReg d && isReg a && isReg b
  | .fpCompare at_ _ _ d a b => issueWf at_ && isReg d && isReg a && isReg b
  | .fpConvert at_ _ _ _ _ d a => issueWf at_ && isReg d && isReg a
  | .convertToInteger at_ _ _ _ d a => issueWf at_ && isReg d && isReg a
  | .convertFromInteger at_ _ _ _ _ d a => issueWf at_ && isReg d && isReg a
  | .scaledConvert at_ _ _ _ _ d a scale => issueWf at_ && isReg d && isReg a && isReg scale
  | .qmx at_ _ _ src _ scale => issueWf at_ && isReg src && isReg scale
  | .intAdd at_ _ d a b => issueWf at_ && isReg d && isReg a && isReg b
  | .intSub at_ _ d a b => issueWf at_ && isReg d && isReg a && isReg b
  | .intMul at_ _ d a b => issueWf at_ && isReg d && isReg a && isReg b
  | .intNeg at_ _ d a => issueWf at_ && isReg d && isReg a
  | .intAbs at_ _ d a => issueWf at_ && isReg d && isReg a
  | .mulhi at_ _ _ d a b => issueWf at_ && isReg d && isReg a && isReg b
  | .intDiv at_ _ _ d a b => issueWf at_ && isReg d && isReg a && isReg b
  | .rem at_ _ _ d a b => issueWf at_ && isReg d && isReg a && isReg b
  | .shl at_ _ d a b => issueWf at_ && isReg d && isReg a && isReg b
  | .shr at_ _ d a b => issueWf at_ && isReg d && isReg a && isReg b
  | .sar at_ _ d a b => issueWf at_ && isReg d && isReg a && isReg b
  | .rol at_ _ d a b => issueWf at_ && isReg d && isReg a && isReg b
  | .ror at_ _ d a b => issueWf at_ && isReg d && isReg a && isReg b
  | .clz at_ _ d a => issueWf at_ && isReg d && isReg a
  | .ctz at_ _ d a => issueWf at_ && isReg d && isReg a
  | .addSat at_ _ _ d a b => issueWf at_ && isReg d && isReg a && isReg b
  | .subSat at_ _ _ d a b => issueWf at_ && isReg d && isReg a && isReg b
  | .mulSat at_ _ _ d a b => issueWf at_ && isReg d && isReg a && isReg b
  | .negSat at_ _ _ d a => issueWf at_ && isReg d && isReg a
  | .absSat at_ _ _ d a => issueWf at_ && isReg d && isReg a
  | .divSat at_ _ _ d a b => issueWf at_ && isReg d && isReg a && isReg b
  | .rdsr at_ _ dst => issueWf at_ && isReg dst
  | .clrflags at_ _ => issueWf at_
  | .mmaj at_ _ _ d a b c sa sb => issueWf at_ && isReg d && isReg a && isReg b && isReg c && sa.all isReg && sb.all isReg
  | .mmas at_ _ _ ad aa ab ac asa asb => issueWf at_ && isReg ad && isReg aa && isReg ab && isReg ac && asa.all isReg && asb.all isReg
  | .mfenceS at_ => issueWf at_
  | .mappend at_ d desc _ => issueWf at_ && isReg d && isReg desc
  | .mappends at_ ad desc _ => issueWf at_ && isReg ad && isReg desc
  | .matrixOpStart _ => true
  | .matrixOpComplete _ => true
  | .ld at_ dst addr size => issueWf at_ && isReg dst && isReg addr && accessSize size
  | .st at_ addr src size => issueWf at_ && isReg addr && isReg src && accessSize size
  | .storeQueueDrain _ _ => true
  | .ldAcq at_ _ dst addr size => issueWf at_ && isReg dst && isReg addr && accessSize size
  | .stRel at_ _ addr src size => issueWf at_ && isReg addr && isReg src && accessSize size
  | .atom at_ op _ _ dst addr src size => issueWf at_ && isReg dst && isReg addr && isReg src && (atomSizes op).contains size
  | .red at_ op fmt addr src length => issueWf at_ && isReg addr && isReg src && redWf op fmt length
  | .threadFence at_ _ => issueWf at_
  | .ldwait at_ dst addr value => issueWf at_ && isReg dst && isReg addr && isReg value
  | .ldwaitTimeout _ _ _ => true
  | .ldwaitHostPoll _ _ _ => true
  | .cinv at_ addr => issueWf at_ && isReg addr
  | .ldl at_ dst addr size => issueWf at_ && isReg dst && isReg addr && accessSize size
  | .stl at_ addr src size => issueWf at_ && isReg addr && isReg src && accessSize size
  | .gets _ line => decide (line < 2 ^ 32)
  | .getm _ line => decide (line < 2 ^ 32)
  | .getmFull _ line => decide (line < 2 ^ 32)
  | .atomMessage _ line => decide (line < 2 ^ 32)
  | .redMessage _ line => decide (line < 2 ^ 32)
  | .farWrite dpa _ => decide (dpa < 2 ^ 39)
  | .coherentRead dpa _ => decide (dpa < 2 ^ 39)
  | .bypassWrite dpa _ => decide (dpa < 2 ^ 39)
  | .invalidation line => decide (line < 2 ^ 32)
  | .fwdS _ line => decide (line < 2 ^ 32)
  | .fwdM _ line => decide (line < 2 ^ 32)
  | .recallLine _ line => decide (line < 2 ^ 32)
  | .inv _ line => decide (line < 2 ^ 32)
  | .gnt _ line => decide (line < 2 ^ 32)
  | .invAck _ line => decide (line < 2 ^ 32)
  | .noline _ line => decide (line < 2 ^ 32)
  | .atomRes _ line => decide (line < 2 ^ 32)
  | .data _ line => decide (line < 2 ^ 32)
  | .wb _ line => decide (line < 2 ^ 32)
  | .unblock _ line => decide (line < 2 ^ 32)
  | .wbDone _ line => decide (line < 2 ^ 32)
  | .claimHoldEnd _ line => decide (line < 2 ^ 32)
  | .predictorDecay => true
  | .ucPredFlush _ _ _ => true
  | .stackRequestAccept _ r => askWf r
  | .stackRequestServe _ _ _ => true
  | .refresh _ => true
  | .hbmTemperatureReadout _ _ => true
  | .ecsReadout _ _ => true
  | .patrolScrubRead _ addr _ => decide (addr < 2 ^ 39)
  | .retirementListUpdate _ => true
  | .stackZeroFillComplete _ => true
  | .stackTrainingComplete _ _ _ _ _ _ => true
  | .tableWalk _ asid va => decide (asid < 4096) && decide (va < 2 ^ 48)
  | .copyFault _ index => decide (index < 2 ^ 32)
  | .atsCompletion _ index _ _ => decide (index < 2 ^ 32)
  | .priResponse _ index _ => decide (index < 2 ^ 32)
  | .priTimeout _ index => decide (index < 2 ^ 32)
  | .hostReadCompletion _ _ => true
  | .atsInvalidateRequest _ _ _ _ => true
  | .lenotFlitRound _ offered => offered.all lntWf
  | .lenotPayloadFlit _ => true
  | .lenotAckOnlyFlit _ => true
  | .lenotSleepReq _ => true
  | .lenotSleepAck _ => true
  | .lenotSleepNak _ => true
  | .lenotSleepIdleExpiry _ => true
  | .lenotWake _ => true
  | .lenotReplayTimerExpiry _ => true
  | .laneLockLoss _ _ _ => true
  | .lenotRetrain _ => true
  | .lenotRetrainComplete _ _ _ _ => true
  | .lenotLaneTestComplete _ _ _ => true
  | .mark _ _ _ => true
  | .markDone _ _ _ => true
  | .registerAccessMessage _ => true
  | .lntPatCtrlWrite _ _ _ => true
  | .hwsPayloadFrame _ line => lineWf line
  | .hwsAckOnlyFrame _ line => lineWf line
  | .hwsSleepReq _ line => lineWf line
  | .hwsSleepAck _ line => lineWf line
  | .hwsSleepNak _ line => lineWf line
  | .hwsSleepIdleExpiry _ => true
  | .hwsReplayTimerExpiry _ => true
  | .gainUpdate _ want => want.length == 4
  | .startOfBurstDelimiter _ b => b.seen.length == 4 && b.gains.length == 4
  | .gainHandover _ => true
  | .signalDetect _ => true
  | .hwsWake _ => true
  | .burstAcquisitionFailure _ => true
  | .wakeBurstTimeout _ => true
  | .capabilityWord _ _ => true
  | .hwsTrainingComplete _ t => t.seeds.length == 4
  | .hwsFrameLossTimeout _ => true
  | .hwsRetrainRetryTimer _ => true
  | .wdata => true
  | .close => true
  | .wdone => true
  | .e2eTimerExpiry _ index => decide (index < 2 ^ 32)
  | .inboundTxnTimeout src _ => decide (src < 1024)
  | .pcfMessage _ => true
  | .hb => true
  | .twinFence => true
  | .fenceAck => true
  | .fenceNak => true
  | .pairReq => true
  | .shOpen => true
  | .shData => true
  | .shCommit => true
  | .shEnd => true
  | .shNak => true
  | .handover => true
  | .promoteReq => true
  | .syncDone => true
  | .shAck => true
  | .heartbeatTick => true
  | .liveIncrement => true
  | .twinDeadTimeout => true
  | .fenceResendTick => true
  | .fenceAnswerTimeout => true
  | .fencedSessionCleanup => true
  | .promoteShadow => true
  | .twinPairWaitTimeout => true
  | .detachDrainExpiry => true
  | .uncontainedDieError _ _ _ => true
  | .uncontainedPackageError _ _ => true
  | .clusterClockGate _ => true
  | .clusterPowerGate _ => true
  | .clusterWakeComplete _ => true
  | .dieRetentionEntry _ => true
  | .dieWakeComplete _ => true
  | .scpHalt => true
  | .scpWake => true
  | .deepIdleAutoEntry => true
  | .deepIdleEntryComplete => true
  | .packageWakeComplete => true
  | .coreRailDroop _ => true
  | .thermalSensorSample tj => tj.length == 9
  | .thermalTripRelease => true
  | .powerOn => true
  | .resetNAssert _ => true
  | .perstAssert => true
  | .resetNRelease _ _ => true
  | .vddAonBrownout => true
  | .refclk25Loss => true
  | .romPhaseEnd => true
  | .securePhaseEnd => true
  | .settingsPhaseEnd => true
  | .dieDiscoveryTimeout _ => true
  | .diesPhaseEnd => true
  | .stacksPhaseEnd => true
  | .readyTransition => true
  | .startWatchdogExpiry => true
  | .sfcRead => true
  | .sfcProgram => true
  | .sfcErase => true
  | .sfcReboot => true
  | .sfcCommandComplete _ => true
  | .cleatCharacter _ _ _ => true
  | .cleatBreak => true
  | .cleatGapExpiry => true
  | .cleatRequest => true
  | .cleatTwinFrame => true
  | .claim => true
  | .claimReply => true
  | .cleatTransmitStart _ => true
  | .cleatTxDataWrite _ => true
  | .cleatRxDataRead _ => true
  | .cleatSend _ => true
  | .ceWindowEnd => true
  | .coalesceHoldEnd _ code => decide (code < 2 ^ 16)
  | .bypass => true
  | .idcode => true
  | .samplePreload _ => true
  | .extest => true
  | .clamp => true
  | .highz => true
  | .corruptedFlit _ _ => true
  | .discardedFrame _ line => lineWf line
  | .pcfRestartFwReady => true
  | .vddAonRecovery _ _ => true
  | .refclk25Return _ _ => true
  | .resetPhaseEnd => true
  | .cleatCtsChange _ => true

end Sys2Proof
end

