-- ==== Sys2Proof/Machine/Atom.lean ====
section
/-! DEFINITION. Atomic and reduction arithmetic (R224, R278, R279). -/

namespace Sys2Proof.Machine

/-- The new value of an atomic on a `w`-bit location (CAS apart). -/
def atomNew (op : AtomOp) (w m v : Nat) : Nat :=
  match op with
  | .add => (m + v) % 2 ^ w
  | .and => m &&& v
  | .or => m ||| v
  | .xor => m ^^^ v
  | .smin => if sval w m ≤ sval w v then m else v
  | .smax => if sval w m ≤ sval w v then v else m
  | .umin => min m v
  | .umax => max m v
  | .exch => v
  | .cas => m
  | .fadd => (faddVal .fp32 .rne (fdecode .fp32 m) (fdecode .fp32 v)).1
  | .faddBf16 =>
    (faddVal .bf16 .rne (fdecode .bf16 (m % 65536)) (fdecode .bf16 (v % 65536))).1
      + 65536 * (faddVal .bf16 .rne (fdecode .bf16 (m / 65536)) (fdecode .bf16 (v / 65536))).1
  | .faddFp16 =>
    (faddVal .fp16 .rne (fdecode .fp16 (m % 65536)) (fdecode .fp16 (v % 65536))).1
      + 65536 * (faddVal .fp16 .rne (fdecode .fp16 (m / 65536)) (fdecode .fp16 (v / 65536))).1
  | .fmin => (minMaxVal .fp32 false m v).1
  | .fmax => (minMaxVal .fp32 true m v).1

/-- The bytes of a location after an atomic; CAS carries the compared value, then the new one. -/
def atomBytes (op : AtomOp) (size : Nat) (old operand : List Byte) : List Byte :=
  match op with
  | .cas => if old = operand.take size then (operand.drop size).take size else old
  | _ => leBytes size (atomNew op (8 * size) (leNat old) (leNat (operand.take size)))

/-- One element of a reduction. -/
def redNew (op : AtomOp) (f : RedFmt) (m v : Nat) : Nat :=
  let fp (g : FpFmt) : Nat := match op with
    | .fmin => (minMaxVal g false m v).1
    | .fmax => (minMaxVal g true m v).1
    | _ => (faddVal g .rne (fdecode g m) (fdecode g v)).1
  match f with
  | .int32 => atomNew op 32 m v
  | .int64 => atomNew op 64 m v
  | .fp32 => fp .fp32
  | .bf16 => fp .bf16
  | .fp16 => fp .fp16

/-- Applies a reduction to its elements in ascending address order. The fuel is the number of elements. -/
def redBytes (op : AtomOp) (f : RedFmt) : Nat → List Byte → List Byte → List Byte
  | 0, _, _ => []
  | n + 1, old, operand =>
    let z := redSize f
    leBytes z (redNew op f (leNat (old.take z)) (leNat (operand.take z))) ++ redBytes op f n (old.drop z) (operand.drop z)

end Sys2Proof.Machine
end

