-- ==== Sys2Proof/Machine/CoreBase.lean ====
section
/-!
DEFINITION. Cores, groups, threads and their registers as operations (R177, R182, R185, R199, R222).
-/

namespace Sys2Proof.Machine

def coreAt (s : State) (c : Nat) : Core := tget {} s.cores c
def setCore (s : State) (c : Nat) (x : Core) : State := { s with cores := tput s.cores c x }
/-- The C-die of a core (R14). -/
def coreDie (c : Nat) : Nat := c / 512

/-- The group in a slot of a core, if one is resident. -/
def groupAt (x : Core) (slot : Nat) : Option Group := (x.groups.find? (fun p => p.1 == slot)).map (·.2)
def setGroup (x : Core) (slot : Nat) (g : Group) : Core := { x with groups := tput x.groups slot g }
def blockOf (x : Core) (g : Group) : Option Block := (x.blocks.find? (fun p => p.1 == g.block)).map (·.2)
def launchAt (s : State) (l : Nat) : Option Launch := (s.eng.launches.find? (fun p => p.1 == l)).map (·.2)
def setLaunch (s : State) (l : Nat) (x : Launch) : State := { s with eng := { s.eng with launches := tput s.eng.launches l x } }

/-- The block and launch of the group in a slot. -/
def launchOf (s : State) (c slot : Nat) : Option (Block × Launch) :=
  match groupAt (coreAt s c) slot with
  | none => none
  | some g => match blockOf (coreAt s c) g with
    | none => none
    | some b => (launchAt s b.launch).map fun l => (b, l)

/-- The tag under which a group's accesses are translated. -/
def launchTag (s : State) (l : Launch) : Nat := (queue s l.queue).asid

def thread (g : Group) (t : Nat) : Thread := tget {} g.threads t
def setThread (g : Group) (t : Nat) (x : Thread) : Group := { g with threads := tput g.threads t x }

/-- Changes one thread of a core. -/
def modThread (s : State) (c slot t : Nat) (f : Thread → Thread) : State :=
  match groupAt (coreAt s c) slot with
  | none => s
  | some g => setCore s c (setGroup (coreAt s c) slot (setThread g t (f (thread g t))))

/-- Registers that a group's threads have (R177). -/
def regCount (x : Core) (g : Group) : Nat := match blockOf x g with
  | some b => 8 * b.granules
  | none => 0

/-- A register of a thread; beyond the allocation it reads zero (R233). -/
def regOf (x : Core) (g : Group) (t r : Nat) : Word := if r < regCount x g then tget 0 (thread g t).regs r else 0

def rd (s : State) (c slot t r : Nat) : Word := match groupAt (coreAt s c) slot with
  | none => 0
  | some g => regOf (coreAt s c) g t r

/-- Two registers as a 64-bit value, low word first (R261). -/
def rd64 (s : State) (c slot t r : Nat) : Nat := (rd s c slot t r).toNat + 2 ^ 32 * (rd s c slot t (r + 1)).toNat

/-- Writes a register; a write beyond the allocation has no effect (R233). -/
def wr (s : State) (c slot t r : Nat) (v : Nat) : State :=
  match groupAt (coreAt s c) slot with
  | none => s
  | some g =>
    if r < regCount (coreAt s c) g then
      let x := coreAt s c
      let s := setCore s c { x with intTiles := x.intTiles.filter fun p => !(p.1 == slot && p.2 ≤ r && r < p.2 + 16) }
      modThread s c slot t fun x => { x with regs := if v % 2 ^ 32 = 0 then tdel x.regs r else tput x.regs r (BitVec.ofNat 32 v) }
    else s

/-- Writes a little-endian value into consecutive registers. -/
def wrMany (s : State) (c slot t r v : Nat) : Nat → State
  | 0 => s
  | n + 1 => wrMany (wr s c slot t r v) c slot t (r + 1) (v / 2 ^ 32) n

/-- Bytes of consecutive registers, least significant first. -/
def rdBytes (s : State) (c slot t r n : Nat) : List Byte :=
  ((List.range ((n + 3) / 4)).flatMap fun k => leBytes 4 (rd s c slot t (r + k)).toNat).take n

/-- Raises sticky flags (R222). -/
def raiseFlags (s : State) (c slot t fl : Nat) : State :=
  if fl = 0 then s else modThread s c slot t fun x => { x with flags := x.flags ||| fl }

/-- The slot under which the operations of a block that has ended stay outstanding: 32 + its launch (R201). -/
def lateSlot (launch : Nat) : Nat := 32 + launch

/-- The launch of a group's slot, or of what an ended block has left outstanding. -/
def launchNo (s : State) (c slot : Nat) : Option Nat :=
  if slot < 32 then (launchOf s c slot).map (·.1.launch) else some (slot - 32)

/-- The launch of a group is to stop with this error record, by the steps of R199; the first report stands. -/
def stopLaunch (s : State) (c slot : Nat) (r : CmdRes) : State :=
  match launchNo s c slot with
  | none => s
  | some n => match launchAt s n with
    | none => s
    | some l => if l.stopping.isSome then s else setLaunch s n { l with stopping := some { r with error := true } }

/-- Operations of blocks of a launch that have ended are still under way (R156, R201). -/
def lateOps (s : State) (n : Nat) : Bool :=
  s.cores.any (fun p => p.2.accs.any (fun a => a.slot == lateSlot n) || p.2.storeQ.any fun e => e.slot == lateSlot n)
    || s.posted.any fun p => p.slot == lateSlot n

/-- Registers that an outstanding access of a thread will write (R186). -/
def accDst (a : MemAcc) : List Nat := match a.op with
  | .load d _ => (List.range ((a.size + 3) / 4)).map (d + ·)
  | .atom _ _ d _ => (List.range ((a.size + 3) / 4)).map (d + ·)
  | .red _ _ _ => []
  | .cinv => []

/-- D registers that a queued joint operation will write. -/
def mtxDst (e : MtxEntry) : List Nat := match e.op with
  | .joint _ _ d _ _ _ _ _ _ _ _ => (List.range 16).map (d + ·)
  | _ => []

/-- The operations of a core's matrix unit that have not written their results, in unit order. -/
def mtxAll (x : Core) : List MtxEntry := x.mtxRun ++ x.mtxQ ++ x.mtxFeed

/-- A register of a thread that an outstanding access will write. -/
def accPending (x : Core) (slot t r : Nat) : Bool := x.accs.any fun a => a.slot == slot && a.lane == t && (accDst a).contains r

/-- A register of a thread whose value is still to come. -/
def regPending (x : Core) (slot t r : Nat) : Bool :=
  accPending x slot t r || (mtxAll x).any fun e => e.slot == slot && (mtxDst e).contains r

/-- The next sequence number of a core. -/
def nextSeq (s : State) (c : Nat) : State × Nat :=
  let x := coreAt s c
  (setCore s c { x with nextSeq := x.nextSeq + 1 }, x.nextSeq)

end Sys2Proof.Machine
end

