-- ==== Sys2Proof/Machine/ErrOps.lean ====
section
/-! DEFINITION. Corrected occurrences and their thresholds (R528), and the first free values an event takes. -/

namespace Sys2Proof.Machine

/-- What a corrected occurrence is counted against (R528): a stack, a Lenot link, a Hawser port. -/
inductive CeKind where
  | stack | link | port
  deriving DecidableEq, Repr

def ceKey (k : CeKind) (unit : Nat) : Nat := match k with
  | .stack => unit
  | .link => 0x100 + unit
  | .port => 0x200 + unit

/-- The two ends of each Lenot link, as (node, port) twice: C-dies 0 to 7, the hub 8 (R335). -/
def linkEnds : List (Nat × Nat × Nat × Nat) :=
  [(0, 0, 1, 1), (1, 0, 2, 1), (2, 0, 3, 1), (3, 0, 7, 1), (7, 0, 6, 1), (6, 0, 5, 1), (5, 0, 4, 1), (4, 0, 0, 1),
   (8, 0, 1, 2), (8, 1, 2, 2), (8, 2, 5, 2), (8, 3, 6, 2)]

/-- The die at the first end of Lenot link `l` (R335, R520). -/
def linkFirstDie (l : Nat) : Nat := (linkEnds.getD l (8, 0, 8, 0)).1

/-- The threshold record of a source (R521, R528). -/
def ceRecord (k : CeKind) (unit n : Nat) (a b addr : Nat) : ErrRec :=
  let two := min a (2 ^ 32 - 1) + min b (2 ^ 32 - 1) * 2 ^ 32
  match k with
  | .stack => { code := 0x1001, cls := 0, source := 3, die := unit, unit := unit, count := n, arg := addr }
  | .link => { code := 0x1010, cls := 0, source := 4, die := linkFirstDie unit, unit := unit, count := n, arg := two }
  | .port => { code := 0x1020, cls := 0, source := 5, die := 8, unit := unit, count := n, arg := two }

/-- Counts `da` + `db` corrected occurrences of a source; one threshold record per window when the count reaches
ERR_CE_REPORT (R528). -/
def noteCe (s : State) (k : CeKind) (unit da db addr : Nat) : State :=
  let c := tget {} s.err.ce (ceKey k unit)
  let a := c.a + da
  let b := c.b + db
  let t := setting s idErrCeReport
  let due := !c.reported && t ≤ a + b
  let s1 := { s with err := { s.err with ce := tput s.err.ce (ceKey k unit) { a := a, b := b, reported := c.reported || due } } }
  if due then logErr s1 0 (ceRecord k unit t a b addr) else s1

/-- The next free value, and the state that has used it (log entry 1). -/
def takeFree (s : State) : State × Nat := ({ s with free := s.free + 1 }, (Config.freeWord s.free).toNat)

end Sys2Proof.Machine
end

