-- ==== Sys2Proof/Machine/LenotBase.lean ====
section
/-!
DEFINITION. Lenot as the units that send over it see it: ports, links and routes, messages and their pools, and a message's entry into the
network (R335, R340, R342 to R344, R346).
-/

namespace Sys2Proof.Machine

/-! ### Ports, links and routes (R335, R344) -/

/-- The link and far end of a port. -/
structure Peer where
  link : Nat
  node : Nat
  port : Nat
  deriving DecidableEq, Repr

/-- Links with their numbers. -/
def numberedLinks : List (Nat × Nat × Nat × Nat × Nat) := (List.range 12).zip linkEnds

def portPeer (n p : Nat) : Option Peer := numberedLinks.findSome? fun (l, a, pa, b, pb) =>
  if a = n && pa = p then some { link := l, node := b, port := pb }
  else if b = n && pb = p then some { link := l, node := a, port := pa }
  else none

def portKey (n p : Nat) : Nat := 4 * n + p
def lntPort (s : State) (k : Nat) : LntPort := tget {} s.lnt.ports k
def setLntPort (s : State) (k : Nat) (p : LntPort) : State := { s with lnt := { s.lnt with ports := tput s.lnt.ports k p } }

/-- The port key at each end of a link. -/
def linkPorts (l : Nat) : Nat × Nat := match linkEnds[l]? with
  | some (a, pa, b, pb) => (portKey a pa, portKey b pb)
  | none => (0, 0)

/-- A link carries traffic: up, retraining or asleep. -/
def linkUp (s : State) (l : Nat) : Bool := let st := (lntPort s (linkPorts l).1).state; 1 ≤ st && st ≤ 3

/-- The far node of a link from a node, if the link ends there. -/
def acrossLink (l n : Nat) : Option Nat := match linkEnds[l]? with
  | some (a, _, b, _) => if a = n then some b else if b = n then some a else none
  | none => none

/-- Simple routes from a node to a destination over some links, as lists of links; the fuel bounds their length. -/
def routesFrom (links : List Nat) (dst : Nat) : Nat → Nat → List Nat → List (List Nat)
  | 0, _, _ => []
  | fuel + 1, n, seen =>
    if n = dst then [[]]
    else links.flatMap fun l => match acrossLink l n with
      | some m => if seen.contains m then [] else (routesFrom links dst fuel m (m :: seen)).map (l :: ·)
      | none => []

/-- Rule 1 of R344. -/
def routeAllowed (r : List Nat) : Bool := !(r.contains 7 && r.any (8 ≤ ·))

/-- Order of choice between two routes (R344, rules 2 and 3). -/
def routeBetter (a b : List Nat) : Bool :=
  let key (r : List Nat) : List Nat := [r.length, b2n (r.any (8 ≤ ·)), b2n (r.contains 7)] ++ r
  decide (key a < key b)

/-- The route of a pair over some links; none where no route reaches (R344). -/
def bestRoute (links : List Nat) (src dst : Nat) : Option (List Nat) :=
  (((routesFrom links dst 9 src [src]).filter routeAllowed).foldl (fun m r => match m with
    | none => some r
    | some b => if routeBetter r b then some r else some b) none)

/-- The routes of every pair over the links in service, as PCF computes them at start (R344). -/
def allRoutes (s : State) : Tab (List Nat) :=
  let links := (List.range 12).filter (linkUp s)
  (List.range 81).filterMap fun k =>
    if k / 9 = k % 9 then none else (bestRoute links (k / 9) (k % 9)).map fun r => (k, r)

def routeOf (s : State) (src dst : Nat) : Option (List Nat) := (s.lnt.routes.find? (fun p => p.1 == 9 * src + dst)).map (·.2)

/-- The link that a route takes from a node. -/
def hopAt (n : Nat) (at_ : Nat) : List Nat → Option Nat
  | [] => none
  | l :: r => if at_ = n then some l else match acrossLink l at_ with
    | some m => hopAt n m r
    | none => none

/-- The port of a link at a node. -/
def portOn (l n : Nat) : Nat := match linkEnds[l]? with
  | some (a, pa, _, pb) => if a = n then pa else pb
  | none => 0

/-- The output port of a pair's route at a node (R344). -/
def outPort (s : State) (n src dst : Nat) : Option (Nat × Nat) :=
  match routeOf s src dst with
  | none => none
  | some r => (hopAt n src r).map fun l => (l, portOn l n)

/-- The port by which a node forwards a message of a pair: on the pair's route, else on the node's own route to the destination (chapter 14,
Registers). None where the pair's source is no node, or where no route reaches. -/
def lntNext (s : State) (n src dst : Nat) : Option (Nat × Nat) :=
  if 8 < src then none
  else match outPort s n src dst with
    | some r => some r
    | none => outPort s n n dst

/-! ### Messages (R340, R342, R343) -/

def msgSlots (m : LntMsg) : Nat := 1 + (m.body.length + 15) / 16

/-- Pool of a message, and its size (R343). -/
def poolOf (m : LntMsg) : Nat := if m.cls.val = 5 then 10 else 2 * m.cls.val + b2n m.sub
def poolSlots (k : Nat) : Nat :=
  if k < 2 then 128 else if k < 6 then 64 else if k < 8 then 288 else if k < 10 then 32 else 64

/-- SUB of a message on a link from a node (R342). -/
def subOn (m : LntMsg) (l n : Nat) : Bool := m.cls.val ≠ 5 && (m.sub || l = 7 || (8 ≤ l && n = 8))

/-- Slots of a message leave a receiving port's buffer (R343). -/
def freeSlots (s : State) (k pool n : Nat) : State :=
  let p := lntPort s k
  setLntPort s k { p with freed := tput p.freed pool ((tget 0 p.freed pool + n) % 4096) }

/-- A message enters the network at its source, or waits for its pair's route change (R346); at another node it goes on by its pair's
route, or by the node's own where that does not pass here (R344). -/
def offerMsg (s : State) (n : Nat) (m : LntMsg) (origin : Option (Nat × Nat)) : State :=
  if s.lnt.changes.any (fun c => c.src == m.src.val && c.dst == m.dst.val && c.src == n) then
    { s with lnt := { s.lnt with changes := s.lnt.changes.map fun c =>
        if c.src == m.src.val && c.dst == m.dst.val then { c with held := c.held ++ [m] } else c } }
  else match lntNext s n m.src.val m.dst.val with
    | some (l, p) =>
      let k := portKey n p
      let x := lntPort s k
      setLntPort s k { x with waiting := x.waiting ++ [{ msg := { m with sub := subOn m l n }, origin := origin }] }
    | none => s

end Sys2Proof.Machine
end

