-- ==== Sys2Proof/Machine/PowerBase.lean ====
section
/-! DEFINITION. Sleep states as the rest of the package sees them, and what wakes a part (R450 to R458). -/

namespace Sys2Proof.Machine

def diePwr (s : State) (d : Nat) : DiePwr := tget .awake s.power.dies d
def setDiePwr (s : State) (d : Nat) (p : DiePwr) : State := { s with power := { s.power with dies := tput s.power.dies d p } }
def setPower (s : State) (p : Power) : State := { s with power := p }

/-- The SCP is awake or wakes (R454). -/
def wakeScp (s : State) : State := { s with power := { s.power with scp := true } }

/-- A package in DEEP_IDLE begins its wake to ready; an entry that is under way is abandoned (R456, R459). -/
def wakePackage (s : State) : State :=
  if s.power.deep then wakeScp { s with power := { s.power with waking := true } }
  else { s with power := { s.power with entering := false } }

/-- A message for a die wakes it, and with it the package and the SCP (R453, R454, R456). -/
def wakeDie (s : State) (d : Nat) : State :=
  if s.power.deep then wakePackage s
  else if diePwr s d = .retention then wakeScp (wakePackage (setDiePwr s d .waking)) else s

/-- A die serves requests. -/
def dieAwake (s : State) (d : Nat) : Bool := !s.power.deep && diePwr s d == .awake

def clusterPwr (s : State) (k : Nat) : ClusterPwr := tget .pg s.power.clusters k
def setCluster (s : State) (k : Nat) (p : ClusterPwr) : State := { s with power := { s.power with clusters := tput s.power.clusters k p } }

/-- A clock-gated cluster wakes (R450). -/
def wakeCluster (s : State) (k : Nat) : State := if clusterPwr s k = .cg then setCluster s k .waking else s

/-- The package is ready (R449). -/
def pkgReady (s : State) : Bool := !s.power.deep && (List.range 8).all fun d => diePwr s d == .awake || !dieInService s d

end Sys2Proof.Machine
end

