-- ==== Sys2Proof/Machine/StackBase.lean ====
section
/-!
DEFINITION. The stacks as the home slices see them: populated space, the mapping of an address, the requests that wait in a stack's
controller, and their performance in order of acceptance (R287 to R296).
-/

namespace Sys2Proof.Machine

/-! ### Addresses (R263, R287 to R290) -/

def lineOf (a : Nat) : Nat := a / 128
def lineAddr (l : Nat) : Nat := l * 128
/-- The slice, stack and die that are home for a line (R263). -/
def sliceOf (l : Nat) : Nat := l / 2 ^ 29 % 8

/-- Populated device physical space (R287, R306); a stack under test is out of reach (R419). Link test 32 + n is that of stack n. -/
def populated (s : State) (a : Nat) : Bool :=
  a / 2 ^ 39 = 0 && a % 2 ^ 36 < 0xC00000000 && (tget {} s.stackIds (a / 2 ^ 36 % 8)).cond != .failed
    && !(s.linkTests.any fun p => p.1 == 32 + a / 2 ^ 36 % 8)

/-- The firmware reserve (R289). -/
def inReserve (a : Nat) : Bool := a % 2 ^ 36 < 0x20000000

/-- Space that agents other than the firmware reach. -/
def reachable (s : State) (a : Nat) : Bool := populated s a && !inReserve a

/-- Sets a bit of a stack's HBM_ERR and latches the address when no bit was set (chapter 12, Registers). -/
def hbmError (s : State) (d b addr : Nat) : State :=
  let s1 := if reg s (dieReg d hbmErr) = 0 then
      setReg (setReg s (dieReg d hbmErrAddrLo) (BitVec.ofNat 32 addr)) (dieReg d hbmErrAddrHi) (BitVec.ofNat 32 (addr / 2 ^ 32))
    else s
  orReg s1 (dieReg d hbmErr) (2 ^ b)

/-- An access handled under R288 or R289 is counted and recorded. -/
def noteUnpop (s : State) (a : Nat) : State :=
  let d := a / 2 ^ 36 % 8
  hbmError (bump s (dieReg d hbmUnpopCnt)) d (if populated s a then 2 else 1) a

/-- The first byte of a range that no agent but the firmware reaches: its start, or a place where a stack or a reserve begins or ends. -/
def firstUnreachable (s : State) (a n : Nat) : Option Nat :=
  let edges := (List.range 8).flatMap fun k => [k * 2 ^ 36, k * 2 ^ 36 + 0x20000000, k * 2 ^ 36 + 0xC00000000]
  (a :: (edges.filter fun e => a < e && e < a + n)).find? fun e => !reachable s e

def stackCtl (s : State) (d : Nat) : StackCtl := tget {} s.hbm d
def setStackCtl (s : State) (d : Nat) (c : StackCtl) : State := { s with hbm := tput s.hbm d c }

/-- Pseudo-channel of a stack offset (R290). -/
def pcOf (o : Nat) : Nat := bits o 7 6 ^^^ bits o 13 6
/-- Bank group, bank and stack ID of a stack offset, with its pseudo-channel, as one number (R290). -/
def bankOf (o : Nat) : Nat := ((pcOf o * 4 + (bits o 16 2 ^^^ bits o 20 2)) * 4 + bits o 18 2) * 4 + bits o 34 2
/-- Row of a stack offset (R290). -/
def rowOf (o : Nat) : Nat := bits o 20 14
/-- Offset of a line within its stack. -/
def lineOffset (l : Nat) : Nat := lineAddr l % 2 ^ 36

/-! ### Sectors and bytes -/

/-- Sectors of a line that `n` bytes from an offset touch, as a mask. -/
def touched (off n : Nat) : Nat :=
  (((List.range 4).filter fun k => off < 32 * k + 32 && 32 * k < off + n).map (2 ^ ·)).sum
/-- Sectors that `n` bytes from an offset cover whole. -/
def covered (off n : Nat) : Nat :=
  (((List.range 4).filter fun k => off ≤ 32 * k && 32 * k + 32 ≤ off + n).map (2 ^ ·)).sum

/-- Puts bytes into a list of bytes from an offset. -/
def overlay (bs : List Byte) (off : Nat) (w : List Byte) : List Byte := bs.take off ++ w ++ bs.drop (off + w.length)

/-- Takes the sectors of a mask from the first list, the others from the second. -/
def pickSectors (mask : Nat) (a b : List Byte) : List Byte :=
  (List.range 4).flatMap fun k => if bit mask k then (a.drop (32 * k)).take 32 else (b.drop (32 * k)).take 32

/-! ### What a controller holds (R294, R296) -/

/-- Sectors of its line that a request writes whole. -/
def reqWhole (r : StackReq) : Nat := match r.write with
  | none => 0
  | some (off, bs) => r.mask &&& covered off bs.length

/-- A line with a request's bytes in it. -/
def reqApply (r : StackReq) (bs : List Byte) : List Byte := match r.write with
  | none => bs
  | some (off, w) => pickSectors r.mask (overlay bs off w) bs

/-- The requests to a line that wait in its stack's controller, in order of acceptance. -/
def waitingOn (s : State) (l : Nat) : List StackReq := (stackCtl s (sliceOf l)).q.filter fun r => r.line == l

/-- A line as a read accepted now finds it: what waits in the controller is performed before it (R294). -/
def stackLine (s : State) (l : Nat) : List Byte :=
  (waitingOn s l).foldl (fun bs r => reqApply r bs) (mread s.mem (lineAddr l) 128)

/-- The sectors of a line that such a read finds poisoned: they hold the poison code, and no write of the whole sector waits (R300). -/
def stackMarks (s : State) (l : Nat) : Nat :=
  let whole := (waitingOn s l).foldl (fun m r => m ||| reqWhole r) 0
  (((List.range 4).filter fun k => s.stackPoison.contains (4 * l + k) && !bit whole k).map (2 ^ ·)).sum

/-- The scheduler of a pseudo-channel. -/
def pcSched (c : StackCtl) (pc : Nat) : PcSched := tget {} c.sched pc

/-- A bank's row is closed by a refresh, and its activations count anew (R297, R298). -/
def refreshBank (c : StackCtl) (b : Nat) : StackCtl := { c with openRows := tdel c.openRows b, acts := tdel c.acts b }

/-- A request uses its row: a same-bank row conflict and a turn of the bus are counted, the row is open, consecutive hits and an activation are
counted, and refresh management comes at the stack's threshold (R293, R295, R298). -/
def useRow (s : State) (d l : Nat) (skink write : Bool) (n : Nat) : State :=
  let c := stackCtl s d
  let o := lineOffset l
  let b := bankOf o
  let p := pcSched c (pcOf o)
  let row := (c.openRows.find? (fun e => e.1 == b)).map (·.2)
  let hit := row == some (rowOf o)
  let k := 2 * b + b2n skink
  let p1 := { p with writing := write
                     batch := if p.writing == write then p.batch + b2n write * n else b2n write * n
                     hits := tput (tdel p.hits (2 * b + b2n (!skink))) k (if hit then tget 0 p.hits k + 1 else 0) }
  let acts := if hit then tget 0 c.acts b else tget 0 c.acts b + 1
  let c1 := { c with openRows := tput c.openRows b (rowOf o), sched := tput c.sched (pcOf o) p1, acts := tput c.acts b acts }
  let c2 := if c.threshold ≠ 0 && !hit && c.threshold ≤ acts then { refreshBank c1 b with refreshes := c1.refreshes + 1 } else c1
  let s1 := setStackCtl s d c2
  let s2 := if row.isSome && !hit then bump s1 (dieReg d hbmConflictCnt) else s1
  if p.writing != write then bump s2 (dieReg d hbmTurnCnt) else s2

/-- Writes some sectors of a line to the stack: each has the poison code or valid check bits. -/
def putSectors (s : State) (l mask : Nat) (bs : List Byte) (marks : Nat) : State :=
  (List.range 4).foldl (fun s k =>
    if bit mask k then
      { s with mem := mwrite s.mem (lineAddr l + 32 * k) ((bs.drop (32 * k)).take 32)
               stackPoison := s.stackPoison.filter (· != 4 * l + k) ++ (if bit marks k then [4 * l + k] else []) }
    else s) s

/-- Sectors of a line that hold the poison code at the stack. -/
def codeMarks (s : State) (l : Nat) : Nat :=
  (((List.range 4).filter fun k => s.stackPoison.contains (4 * l + k)).map (2 ^ ·)).sum

/-- Performs a request at the stack (R294, R296, R300): a write clears the poison of the sectors that it covers whole, and leaves that of the
others; a read is answered. -/
def performReq (s : State) (d : Nat) (r : StackReq) : State :=
  let n := ((List.range 4).filter (bit r.mask)).length
  let s1 := useRow s d r.line r.skink r.write.isSome n
  let old := mread s1.mem (lineAddr r.line) 128
  match r.write with
  | some _ => putSectors s1 r.line r.mask (reqApply r old) (codeMarks s1 r.line - (codeMarks s1 r.line &&& reqWhole r))
  | none => emit s1 (.stackData (lineAddr r.line) ((List.range 4).flatMap fun k => if bit r.mask k then (old.drop (32 * k)).take 32 else [])
      (codeMarks s1 r.line &&& r.mask))

/-- Where requests wait for sectors of a line, performs those that wait for the line, in order of acceptance (R294). -/
def drainLine (s : State) (l mask : Nat) : State :=
  let d := sliceOf l
  let c := stackCtl s d
  if (waitingOn s l).any fun r => (r.mask &&& mask) != 0 then
    (waitingOn s l).foldl (fun s r => performReq s d r) (setStackCtl s d { c with q := c.q.filter fun r => r.line != l })
  else s

/-- A slice writes sectors of a line to the stack, after what waits for them in the controller: the write is accepted and performed in one
step (log entry 21). A write of one sector takes the Skink path (R292). -/
def stackPut (s : State) (l mask : Nat) (bs : List Byte) (marks : Nat) : State :=
  if mask = 0 then s
  else
    let n := ((List.range 4).filter (bit mask)).length
    putSectors (useRow (drainLine s l mask) (sliceOf l) l (n == 1) true n) l mask bs marks

end Sys2Proof.Machine
end

