-- ==== Sys2Proof/Machine/Cache.lean ====
section
/-!
DEFINITION. The unified cache: slices, directory, predictor, L1 lines and the coherence protocol, message by message
(R240 to R286). A device physical address `a` lies in line `a / 128`; lines are numbered over the whole package.
-/

namespace Sys2Proof.Machine

/-! ### Tree pseudo-LRU over 16 ways (R264) -/

/-- Points the tree away from a way: nodes 1 to 15, a set bit meaning that the victim lies in the upper half. -/
def plruTouch (t way : Nat) : Nat :=
  let step (p : Nat × Nat) (k : Nat) : Nat × Nat :=
    let b := bit way k
    let cleared := if bit p.1 p.2 then p.1 - 2 ^ p.2 else p.1
    (if b then cleared else cleared + 2 ^ p.2, 2 * p.2 + b2n b)
  ([3, 2, 1, 0].foldl step (t, 1)).1

/-- The way that the tree points to. -/
def plruVictim (t : Nat) : Nat :=
  (([3, 2, 1, 0].foldl (fun (p : Nat × Nat) _ => (2 * p.1 + b2n (bit t p.2), 2 * p.2 + b2n (bit t p.2))) (0, 1)).1)

/-! ### The data array (R264, R265) -/

def setUc (s : State) (u : Uc) : State := { s with uc := u }
def ucLine (s : State) (l : Nat) : Option UcLine := (s.uc.lines.find? (fun p => p.1 == l)).map (·.2)
def putUcLine (s : State) (l : Nat) (x : UcLine) : State := setUc s { s.uc with lines := tput s.uc.lines l x }
/-- Data-array set of a line, with its slice (R264). -/
def dataSet (l : Nat) : Nat := sliceOf l * 49152 + l % 2 ^ 29 % 49152

/-- The line as slice and stack hold it: a sector that the slice lacks is the stack's. -/
def ucBytes (s : State) (l : Nat) : List Byte := match ucLine s l with
  | some x => pickSectors x.valid x.data (stackLine s l)
  | none => stackLine s l

/-- Takes the bits of a mask from the first number, the others from the second, of 4. -/
def pickMarks (mask a b : Nat) : Nat := ((List.range 4).map fun k => if bit mask k then b2n (bit a k) * 2 ^ k else b2n (bit b k) * 2 ^ k).sum

/-- The sectors of a line that slice and stack hold poisoned (R285, R300). -/
def ucMarks (s : State) (l : Nat) : Nat := match ucLine s l with
  | some x => pickMarks x.valid x.poison (stackMarks s l)
  | none => stackMarks s l

/-- Writes a line's dirty sectors back and marks them clean. -/
def writeBack (s : State) (l : Nat) : State := match ucLine s l with
  | some x => putUcLine (stackPut s l x.dirty x.data x.poison) l { x with dirty := 0 }
  | none => s

/-- A line leaves the data array: dirty sectors go to the stack. -/
def dropUcLine (s : State) (l : Nat) : State :=
  let s1 := writeBack s l
  setUc s1 { s1.uc with lines := tdel s1.uc.lines l }

def touchUc (s : State) (l way : Nat) : State :=
  setUc s { s.uc with plru := tput s.uc.plru (dataSet l) (plruTouch (tget 0 s.uc.plru (dataSet l)) way) }

/-- Allocates the line, evicting the pseudo-LRU victim of a full set. -/
def ucAlloc (s : State) (l : Nat) : State :=
  match ucLine s l with
  | some x => touchUc s l x.way
  | none =>
    let inSet := s.uc.lines.filter fun p => dataSet p.1 == dataSet l
    let free := (List.range 16).find? fun w => !inSet.any (fun p => p.2.way == w)
    let way := free.getD (plruVictim (tget 0 s.uc.plru (dataSet l)))
    let s1 := match inSet.find? (fun p => p.2.way == way) with
      | some p => dropUcLine s p.1
      | none => s
    touchUc (putUcLine s1 l { way := way, valid := 0, dirty := 0, data := zeros 128 }) l way

/-- Makes the sectors of a mask valid in the slice, reading the stack for those it lacks, and counts a hit or a miss. A sector takes its
mark along (R285). -/
def ucFill (s : State) (l mask : Nat) : State :=
  let s1 := ucAlloc s l
  match ucLine s1 l with
  | none => s1
  | some x =>
    let hit := (List.range 4).all fun k => !bit mask k || bit x.valid k
    let s2 := bump s1 (dieReg (sliceOf l) (if hit then ucHitCnt else ucMissCnt))
    let y := { x with data := pickSectors x.valid x.data (stackLine s2 l), poison := pickMarks x.valid x.poison (stackMarks s2 l),
                      valid := x.valid ||| mask }
    if hit then putUcLine s2 l y else putUcLine (useRow s2 (sliceOf l) l false false 4) l y

/-- Counts a read that does not allocate (R265). -/
def noteRead (s : State) (l mask : Nat) : State :=
  let hit := match ucLine s l with
    | some x => (List.range 4).all fun k => !bit mask k || bit x.valid k
    | none => false
  bump s (dieReg (sliceOf l) (if hit then ucHitCnt else ucMissCnt))

/-- A write at the home slice: whole sectors without a fetch, the others fetched first; a whole sector clears its poison
(R265, R285). -/
def ucWrite (s : State) (l off : Nat) (bs : List Byte) : State :=
  let t := touched off bs.length
  let c := covered off bs.length
  let s1 := if t = c then ucAlloc s l else ucFill s l (t - c)
  match ucLine s1 l with
  | none => s1
  | some x =>
    putUcLine s1 l { x with data := overlay x.data off bs, valid := x.valid ||| t, dirty := x.dirty ||| t, poison := x.poison - (x.poison &&& c) }

/-- Takes an owner's dirty sectors into the slice, with their marks. -/
def ucMerge (s : State) (l : Nat) (c : LineCopy) : State :=
  if c.dirty = 0 then s
  else
    let s1 := ucAlloc s l
    match ucLine s1 l with
    | none => s1
    | some x => putUcLine s1 l { x with data := pickSectors c.dirty c.bytes x.data, valid := x.valid ||| c.dirty, dirty := x.dirty ||| c.dirty,
                                        poison := pickMarks c.dirty c.poison x.poison }

/-! ### L1 lines -/

def l1Line (x : Core) (l : Nat) : Option L1Line := x.l1.find? (fun y => y.line == l)
def putL1 (x : Core) (y : L1Line) : Core :=
  if x.l1.any (fun z => z.line == y.line) then { x with l1 := x.l1.map fun z => if z.line == y.line then y else z }
  else { x with l1 := x.l1 ++ [y] }
def dropL1 (x : Core) (l : Nat) : Core := { x with l1 := x.l1.filter fun y => y.line != l }
/-- The line of an L1 as a message carries it; `d` keeps or drops its dirty sectors. -/
def copyOf (y : L1Line) (d : Bool) : LineCopy := { bytes := y.data, dirty := if d then y.dirty else 0, poison := y.poison }
def lineReq (x : Core) (l : Nat) : Option LineReq := x.reqs.find? (fun r => r.line == l)
def putReq (x : Core) (r : LineReq) : Core :=
  if x.reqs.any (fun z => z.line == r.line) then { x with reqs := x.reqs.map fun z => if z.line == r.line then r else z }
  else { x with reqs := x.reqs ++ [r] }
def dropReq (x : Core) (l : Nat) : Core := { x with reqs := x.reqs.filter fun r => r.line != l }

/-- Banks that blocks hold (R179). -/
def heldBanks (x : Core) : List Nat := x.blocks.flatMap (·.2.banks)
/-- Lines that the L1 can hold: 384 KiB less 64 KiB for each bank held (R179). -/
def l1Capacity (x : Core) : Nat := (6 - (heldBanks x).length) * 512

/-! ### The directory (R266) -/

def dirEnt (s : State) (l : Nat) : Option DirEnt := (s.uc.dir.find? (fun p => p.1 == l)).map (·.2)
def dirSt (s : State) (l : Nat) : Option DirSt := (dirEnt s l).map (·.st)
def dirFree (s : State) (l : Nat) : State := setUc s { s.uc with dir := tdel s.uc.dir l }
/-- Directory set of a line, with its slice (R264). -/
def dirSet (l : Nat) : Nat := sliceOf l * 65536 + l % 2 ^ 29 % 65536

/-- Cores that an entry names as sharers (R266). -/
def sharers : DirSt → List Nat
  | .s l => l
  | .coarse v => ((List.range 64).filter (bit v)).flatMap fun c => (List.range 64).map (64 * c + ·)
  | .o _ => []

/-- Adds a sharer; a fifth makes the entry coarse (R266). -/
def addSharer (d : Option DirSt) (q : Nat) : DirSt :=
  let coarseOf (l : List Nat) : Nat := l.foldl (fun v c => v ||| 2 ^ (c / 64)) 0
  match d with
  | none => .s [q]
  | some (.s l) => if l.contains q then .s l else if l.length < 4 then .s (l ++ [q]) else .coarse (coarseOf (q :: l))
  | some (.coarse v) => .coarse (v ||| 2 ^ (q / 64))
  | some (.o x) => if x = q then .s [q] else .s [x, q]

def busy (s : State) (l : Nat) : Bool := s.uc.txns.any (fun p => p.1 == l)
def txnOf (s : State) (l : Nat) : Option Txn := (s.uc.txns.find? (fun p => p.1 == l)).map (·.2)
def putTxn (s : State) (l : Nat) (t : Txn) : State :=
  let s1 := setUc s { s.uc with txns := tput s.uc.txns l t }
  peak s1 (dieReg (sliceOf l) ucReqbufPeak) (s1.uc.txns.filter fun p => sliceOf p.1 == sliceOf l).length
def closeTxn (s : State) (l : Nat) : State := setUc s { s.uc with txns := tdel s.uc.txns l }

/-- The dirty data of a line's owner goes to the slice; `keep` leaves the owner a copy in S, else the copy is gone. -/
def pullOwner (s : State) (l x : Nat) (keep : Bool) : State :=
  let c := coreAt s x
  match l1Line c l with
  | some y =>
    let s1 := ucMerge s l (copyOf y y.m)
    setCore s1 x (if keep then putL1 c { y with m := false, dirty := 0, hold := false, deferred := [] } else dropL1 c l)
  | none => s

/-- Removes every L1 copy of a line, dirty data to the slice, and frees its directory entry: what INV to each sharer or
RECALL to the owner, with their answers, come to. -/
def revoke (s : State) (l : Nat) : State :=
  match dirSt s l with
  | none => s
  | some (.o x) => dirFree (pullOwner s l x false) l
  | some d => dirFree ((sharers d).foldl (fun s q =>
      if (l1Line (coreAt s q) l).isSome then setCore s q (dropL1 (coreAt s q) l) else s) s) l

/-- Lines with an entry in the directory set of a line. -/
def dirPeers (s : State) (l : Nat) : List (Nat × DirEnt) := s.uc.dir.filter fun p => dirSet p.1 == dirSet l

/-- The way of a line's set that holds no entry. -/
def dirRoom (s : State) (l : Nat) : Option Nat := (List.range 16).find? fun w => !(dirPeers s l).any (fun p => p.2.way == w)

/-- The line whose entry must be evicted before a request can have one: the pseudo-LRU victim of a full set (R268). -/
def dirVictim (s : State) (l : Nat) : Option Nat :=
  if (dirEnt s l).isSome || (dirRoom s l).isSome then none
  else ((dirPeers s l).find? fun p => p.2.way == plruVictim (tget 0 s.uc.dirPlru (dirSet l))).map (·.1)

/-- Sets a directory entry, in a way of its set that is free; a request makes room first (`dirVictim`). -/
def dirPut (s : State) (l : Nat) (d : DirSt) : State :=
  let touch (s : State) (w : Nat) : State :=
    setUc s { s.uc with dirPlru := tput s.uc.dirPlru (dirSet l) (plruTouch (tget 0 s.uc.dirPlru (dirSet l)) w) }
  match dirEnt s l with
  | some e => touch (setUc s { s.uc with dir := tput s.uc.dir l { e with st := d } }) e.way
  | none => match dirRoom s l with
    | some w => touch (setUc s { s.uc with dir := tput s.uc.dir l { way := w, st := d } }) w
    | none => s

/-! ### Messages -/

/-- The die at which a node of the protocol sits; an agent's request is given to it at the home (R15). -/
def nodeDie (n : Node) (l : Nat) : Nat := match n with
  | .home => sliceOf l
  | .core c => coreDie c
  | .agent => sliceOf l

/-- CLASS, TYPE and the bytes after the header of a protocol message on a Lenot link (R269, R340). -/
def msgWire : MsgKind → Fin 6 × Byte × List Byte
  | .getS => (0, 0x01, [])
  | .getM => (0, 0x02, [])
  | .getMFull => (0, 0x03, [])
  | .atom _ _ _ operand => (0, 0x04, operand)
  | .red _ _ _ _ operand => (0, 0x05, operand)
  | .farWrite _ bs => (0, 0x06, bs)
  | .cohRead _ _ => (0, 0x07, [])
  | .bypass _ bs => (0, 0x08, bs)
  | .inval _ => (0, 0x09, [])
  | .evict => (0, 0x09, [])
  | .fwdS _ => (1, 0x20, [])
  | .fwdM _ _ => (1, 0x21, [])
  | .recallLine => (1, 0x22, [])
  | .inv _ => (1, 0x23, [])
  | .gnt _ => (2, 0x40, [])
  | .invAck => (2, 0x41, [])
  | .noline => (2, 0x42, [])
  | .atomRes _ old => (2, 0x43, old)
  | .data _ _ c => (3, 0x60, c.bytes)
  | .wb _ c => (3, 0x61, (List.range 4).flatMap fun k => if bit c.dirty k then (c.bytes.drop (32 * k)).take 32 else [])
  | .unblock => (4, 0x80, [])
  | .wbDone => (4, 0x81, [])

/-- The offset in its line that a request names. -/
def msgOff : MsgKind → Nat
  | .atom _ off _ _ => off
  | .red _ off _ _ _ => off
  | .farWrite off _ => off
  | .cohRead off _ => off
  | .bypass off _ => off
  | _ => 0

/-- Sends a message. Within a die it is at hand; to another die it travels as a Lenot message of its class, over the route and under the
credits of its virtual channel (R15, R270, R341). ARG is a free value: the spec leaves it to the type. -/
def post (s : State) (m : Msg) : State :=
  let a := nodeDie m.src m.line
  let b := nodeDie m.dst m.line
  if a = b then setUc s { s.uc with msgs := s.uc.msgs ++ [m] }
  else
    let t := s.uc.nextTxn
    let w := msgWire m.kind
    let (s1, x) := takeFree (setUc s { s.uc with msgs := s.uc.msgs ++ [{ m with txn := some t }], nextTxn := (t + 1) % 2 ^ 32 })
    offerMsg s1 a { cls := w.1, src := Fin.ofNat 16 a, dst := Fin.ofNat 16 b, type := w.2.1, txn := BitVec.ofNat 32 t,
                    addr := BitVec.ofNat 48 (lineAddr m.line + msgOff m.kind), arg := BitVec.ofNat 16 x, body := w.2.2 } none

def toHome (s : State) (c l : Nat) (k : MsgKind) : State := post s { src := .core c, dst := .home, line := l, kind := k }
def fromHome (s : State) (n : Node) (l : Nat) (k : MsgKind) : State := post s { src := .home, dst := n, line := l, kind := k }

/-- A protocol message that Lenot has carried to its die is at hand there. RSP, DAT and ACK are taken on arrival; a REQ or FWD keeps its
slots of the receiving port until it is handled (R270). Answers whether the slots stay in use. -/
def arriveMsg (s : State) (k : Nat) (m : LntMsg) : State × Bool :=
  let mine (x : Msg) : Bool := x.txn == some m.txn.toNat && nodeDie x.src x.line == m.src.val && nodeDie x.dst x.line == m.dst.val
  let keeps := m.cls.val ≤ 1 && s.uc.msgs.any mine
  let here (x : Msg) : Msg := if mine x then { x with txn := none, buffer := if keeps then some (k, poolOf m, msgSlots m) else none } else x
  (setUc s { s.uc with msgs := s.uc.msgs.map here }, keeps)

/-- A message's slots at the receiving port are free again. -/
def freeBuffer (s : State) (m : Msg) : State := match m.buffer with
  | some (k, pool, n) => freeSlots s k pool n
  | none => s

/-- Takes the first message in flight that satisfies a test. -/
def takeMsg (p : Msg → Bool) : List Msg → Option (Msg × List Msg)
  | [] => none
  | m :: t => if p m then some (m, t) else match takeMsg p t with
    | some r => some (r.1, m :: r.2)
    | none => none

/-! ### Waiters on locations (R164, R261) -/

/-- The coherent copy of a line: the owner's, or its copy in flight, else the slice's and the stack's (R242, R255). -/
def lineView (s : State) (l : Nat) : LineCopy :=
  let owned : Option LineCopy := match dirSt s l with
    | some (.o x) => match l1Line (coreAt s x) l with
      | some y => some (copyOf y true)
      | none => match lineReq (coreAt s x) l with
        | some r => r.grant.map (·.2)
        | none => none
    | _ => none
  match owned with
  | some c => c
  | none => match s.uc.msgs.reverse.find? (fun m => m.line == l && (match m.kind with
      | .data true _ _ => true
      | .wb _ _ => true
      | _ => false)) with
    | some m => match m.kind with
      | .data _ _ c => c
      | .wb _ c => { bytes := pickSectors c.dirty c.bytes (ucBytes s l), poison := pickMarks c.dirty c.poison (ucMarks s l) }
      | _ => { bytes := ucBytes s l, poison := ucMarks s l }
    | none => { bytes := ucBytes s l, poison := ucMarks s l }

def lineValue (s : State) (l : Nat) : List Byte := (lineView s l).bytes

/-- A sector reads as poisoned: its coherent copy carries the mark, or the stack holds the poison code (R285, R300). -/
def sectorPoisoned (s : State) (k : Nat) : Bool := bit (lineView s (k / 4)).poison (k % 4)

/-- `n` bytes of coherent device memory, line by line; unreachable space reads zero (R288, R289). The fuel bounds the lines. -/
def valueFrom (s : State) : Nat → Nat → Nat → List Byte
  | 0, _, _ => []
  | fuel + 1, a, n =>
    if n = 0 then []
    else
      let k := min n (128 - a % 128)
      (if reachable s a then ((lineValue s (lineOf a)).drop (a % 128)).take k else zeros k) ++ valueFrom s fuel (a + k) (n - k)
def devValue (s : State) (a n : Nat) : List Byte := valueFrom s (n / 128 + 2) a n

/-- WAIT's comparison (R162). -/
def waitCond (cond v x : Nat) : Bool :=
  match cond with
  | 0 => x ≤ v
  | 1 => v == x
  | 2 => v != x
  | _ => v < x

/-- A wait whose condition holds ends: a WAIT with DETAIL 0 and the value, an LDWAIT with the value in its registers. -/
def endWait (s : State) (w : MemWait) (v : Nat) : State :=
  let s1 := { s with memWaits := s.memWaits.filter (fun m => m.who != w.who) }
  match w.who with
  | .cmd q i => endCmd s1 q i { status := stOk, result := v }
  | .thread c slot t dst => modThread (wrMany s1 c slot t dst v 2) c slot t fun x => { x with wait := none }

/-- The bytes at a device address as an access of a thread sees them: the latest queued store of its core to each byte, but for the thread's
own later stores (R243, R244), else the base. -/
def forwarded (x : Core) (slot t seq a : Nat) (base : List Byte) : List Byte :=
  (x.storeQ.filter fun e => !(e.slot == slot && e.lane == t && decide (seq < e.seq))).foldl (fun bs e =>
    (bs.zip (List.range bs.length)).map fun p =>
      let k := a + p.2
      if e.dpa ≤ k && k < e.dpa + e.bytes.length then e.bytes.getD (k - e.dpa) 0 else p.1) base

/-- Whether every byte is supplied by the core's store queue. -/
def allForwarded (x : Core) (slot t seq a n : Nat) : Bool :=
  (List.range n).all fun k => x.storeQ.any fun e =>
    !(e.slot == slot && e.lane == t && decide (seq < e.seq)) && e.dpa ≤ a + k && a + k < e.dpa + e.bytes.length

/-- The value that a wait reads at a device address: an LDWAIT has its core's store queue forwarded (R243, R261). -/
def waitValueAt (s : State) (w : Waiter) (d : Nat) : Nat := match w with
  | .cmd _ _ => leNat (devValue s d 8)
  | .thread c slot t _ => let x := coreAt s c; leNat (forwarded x slot t x.nextSeq d (devValue s d 8))

/-- Evaluates the waits on bytes that a store at the home has just written; a wait that goes on keeps the value that it read (R164, R261). -/
def wakeWaits (s : State) (a n : Nat) : State :=
  s.memWaits.foldl (fun s w => match w.loc with
    | .dev d =>
      if d < a + n && a < d + 8 then
        let v := waitValueAt s w.who d
        if waitCond w.cond v w.value then endWait s w v
        else { s with memWaits := s.memWaits.map fun m => if m.who == w.who then { m with seen := v } else m }
      else s
    | .host _ _ _ => s) s

/-! ### Performing accesses in an L1 (R242, R243, R272, R275) -/

def dropAcc (s : State) (c seq : Nat) : State :=
  let x := coreAt s c
  setCore s c { x with accs := x.accs.filter fun a => a.seq != seq }

/-- The poisoned sector that an access to `n` bytes would consume, if any (R530); unreachable space reads zero without poison (R288). -/
def poisonIn (s : State) (a n : Nat) : Option Nat :=
  (((List.range ((a % 32 + n + 31) / 32)).map (a / 32 + ·)).find? fun k => sectorPoisoned s k && reachable s (32 * k)).map (· * 32)

/-- POISON_CONSUMED for the PF and the owner, naming the sector (R530). -/
def poisonConsumed (s : State) (owner dpa : Nat) : State :=
  logPfOwner s owner { code := 0x1005, cls := 2, source := 6, die := dpa / 2 ^ 36 % 8, unit := dpa / 2 ^ 36 % 8, inst := owner,
                       arg := dpa }

/-- A thread consumes poison: its launch stops (R530). -/
def threadPoison (s : State) (c slot dpa : Nat) : State :=
  let owner := match (launchNo s c slot).bind (launchAt s) with
    | some l => (queue s l.queue).owner
    | none => 0
  stopLaunch (poisonConsumed s owner dpa) c slot { status := stPoisoned, result := dpa }

/-- A load returns: its registers are written from the line and the store queue, unless it consumes poison (R243, R530). -/
def performLoad (s : State) (c : Nat) (a : MemAcc) (dst : Nat) (y : LineCopy) : State :=
  let x := coreAt s c
  let s1 := dropAcc s c a.seq
  let off := a.dpa % 128
  match (if allForwarded x a.slot a.lane a.seq a.dpa a.size then none
         else (List.range 4).find? fun k => bit (touched off a.size &&& y.poison) k) with
  | some k => threadPoison s1 c a.slot (lineAddr (lineOf a.dpa) + 32 * k)
  | none => wrMany s1 c a.slot a.lane dst (leNat (forwarded x a.slot a.lane a.seq a.dpa ((y.bytes.drop off).take a.size))) ((a.size + 3) / 4)

/-- Writes bytes into a line that the L1 owns; a sector that they cover whole loses its poison (R285). -/
def l1Write (s : State) (c l off : Nat) (bs : List Byte) : State :=
  let x := coreAt s c
  match l1Line x l with
  | none => s
  | some y =>
    setCore s c (putL1 x { y with data := overlay y.data off bs, dirty := y.dirty ||| touched off bs.length,
                                  poison := y.poison - (y.poison &&& covered off bs.length) })

/-- A near atomic: the read and the write at one instant in the L1, the old value to the registers. -/
def performNear (s : State) (c : Nat) (a : MemAcc) (op : AtomOp) (operand : List Byte) (dst : Nat) : State :=
  match l1Line (coreAt s c) (lineOf a.dpa) with
  | none => s
  | some y =>
    let s1 := dropAcc s c a.seq
    let off := a.dpa % 128
    match (List.range 4).find? fun k => bit (touched off a.size &&& y.poison) k with
    | some k => threadPoison s1 c a.slot (lineAddr (lineOf a.dpa) + 32 * k)
    | none =>
      let old := (y.data.drop off).take a.size
      let s2 := l1Write s1 c (lineOf a.dpa) off (atomBytes op a.size old operand)
      wrMany s2 c a.slot a.lane dst (leNat old) ((a.size + 3) / 4)

/-- Performs what waits in the L1 on a line that has been installed: loads in either state, atomics when it is in M. -/
def performLocal (s : State) (c l : Nat) : State :=
  ((coreAt s c).accs.filter fun a => lineOf a.dpa == l).foldl (fun s a =>
    match l1Line (coreAt s c) l with
    | none => s
    | some y => match a.op with
      | .load dst _ => performLoad s c a dst (copyOf y true)
      | .atom op operand dst _ => if y.m then performNear s c a op operand dst else s
      | .red _ _ _ => s
      | .cinv => s) s

/-- Performs a queued store in an owned line; it leaves the queue. -/
def performStore (s : State) (c seq : Nat) : State :=
  let x := coreAt s c
  match x.storeQ.find? (fun e => e.seq == seq) with
  | none => s
  | some e => l1Write (setCore s c { x with storeQ := x.storeQ.filter fun f => f.seq != seq }) c (lineOf e.dpa) (e.dpa % 128) e.bytes

/-- Performs the queued stores to a line up to a sequence number, in queue order: what a GETM_FULL was for. -/
def performStoresOn (s : State) (c l seq : Nat) : State :=
  (((coreAt s c).storeQ.filter fun e => lineOf e.dpa == l && decide (e.seq ≤ seq)).map (·.seq)).foldl (fun s q => performStore s c q) s

/-- A forward or invalidation for a line that the L1 does not own: NOLINE, or INV_ACK (R268, R271). -/
def answerGone (s : State) (c : Nat) (m : Msg) : State := match m.kind with
  | .inv ackTo => post s { src := .core c, dst := ackTo, line := m.line, kind := .invAck }
  | _ => toHome s c m.line .noline

/-- Lines for which the L1 keeps a place: those that it holds, and those that it has asked for (R270). -/
def l1Used (x : Core) : Nat := x.l1.length + (x.reqs.filter fun r => r.kind ≤ 3 && (l1Line x r.line).isNone).length

/-- Makes room in the L1: the oldest line that has no request of its own and is not in claim hold leaves, an owned one by a WB (R273, R282).
A line in hold leaves only where every other one is held, and what its hold deferred is answered. The fuel bounds the lines. -/
def l1Trim (s : State) (c : Nat) : Nat → State
  | 0 => s
  | fuel + 1 =>
    let x := coreAt s c
    let quiet := x.l1.filter fun y => (lineReq x y.line).isNone
    if l1Used x ≤ l1Capacity x then s
    else match (quiet.find? (fun y => !y.hold)) <|> quiet.head? with
      | none => s
      | some y =>
        let s1 := setCore s c (dropL1 x y.line)
        let s2 := if y.m then
            toHome (setCore s1 c { coreAt s1 c with wbs := (coreAt s1 c).wbs ++ [y.line] }) c y.line (.wb false (copyOf y true))
          else s1
        l1Trim (y.deferred.foldl (fun s m => answerGone s c m) s2) c fuel

/-- An L1 asks the home for a line, with a place kept for it (R270). -/
def askLine (s : State) (c : Nat) (r : LineReq) (k : MsgKind) : State :=
  toHome (l1Trim (setCore s c (putReq (coreAt s c) r)) c 64) c r.line k

/-- Sends the request for the oldest access that waits on a line, when none is outstanding: GETS for a load, and the message of
R274 for an atomic, a reduction or a CINV, which first drops the L1's own S copy (R268). -/
def kick (s : State) (c l : Nat) : State :=
  let x := coreAt s c
  if (lineReq x l).isSome then s
  else match x.accs.find? (fun a => a.host.isNone && lineOf a.dpa == l) with
    | none => s
    | some a =>
      let dropS (s : State) : State := match l1Line (coreAt s c) l with
        | some y => if y.m then s else setCore s c (dropL1 (coreAt s c) l)
        | none => s
      match a.op with
      | .load _ _ => askLine s c { line := l, kind := 0, seq := a.seq } .getS
      | .atom op operand _ _ => askLine (dropS s) c { line := l, kind := 3, seq := a.seq } (.atom a.seq (a.dpa % 128) op operand)
      | .red op f operand => askLine (dropS s) c { line := l, kind := 4, seq := a.seq } (.red a.seq (a.dpa % 128) op f operand)
      | .cinv => askLine (dropS s) c { line := l, kind := 4, seq := a.seq } (.inval a.seq)

/-- Installs a granted line once its INV_ACKs are in, performs the access that caused the request and those that wait, sends
UNBLOCK, and sends the next request if one is due (R268, R272, R273). Stores that cover the whole line clear its marks (R285). -/
def tryInstall (s : State) (c l : Nat) : State :=
  let x := coreAt s c
  match lineReq x l with
  | none => s
  | some r => match r.grant, r.expected with
    | some g, some n =>
      if r.acks < n then s
      else
        let y : L1Line := { line := l, m := g.1, dirty := g.2.dirty, data := g.2.bytes, poison := if r.kind = 2 then 0 else g.2.poison,
                            hold := g.1 && setting s idClaimHoldCyc != 0 }
        let cached := { x with banks := (List.range 4).foldl (fun t b =>
          if (heldBanks x).contains b then t else tput t b { tget {} t b with cached := true }) x.banks }
        let s1 := setCore s c (dropReq (putL1 (dropL1 cached l) y) l)
        let s2 := if r.kind = 1 then performStore s1 c r.seq else if r.kind = 2 then performStoresOn s1 c l r.seq else s1
        kick (toHome (performLocal s2 c l) c l .unblock) c l
    | _, _ => s

/-! ### What a core does with a message (R268, R271, R273) -/

/-- A forward or invalidation honoured in the L1. -/
def honour (s : State) (c : Nat) (m : Msg) : State :=
  let x := coreAt s c
  let l := m.line
  let owned := match l1Line x l with
    | some y => if y.m then some y else none
    | none => none
  match m.kind, owned with
  | .fwdS req, some y =>
    let s1 := setCore s c (putL1 x { y with m := false, dirty := 0, hold := false })
    let s2 := match req with
      | .core q => post s1 { src := .core c, dst := .core q, line := l, kind := .data false 0 (copyOf y false) }
      | _ => s1
    toHome s2 c l (.wb true (copyOf y true))
  | .fwdM req full, some y =>
    post (setCore s c (dropL1 x l)) { src := .core c, dst := req, line := l, kind := if full then .gnt 0 else .data true 0 (copyOf y true) }
  | .recallLine, some y => toHome (setCore s c (dropL1 x l)) c l (.wb true (copyOf y true))
  | .inv _, _ => answerGone (setCore s c (dropL1 x l)) c m
  | .fwdS _, none => answerGone s c m
  | .fwdM _ _, none => answerGone s c m
  | .recallLine, none => answerGone s c m
  | _, _ => s

/-- Honours the messages that waited for a hold, in order of arrival (R273). -/
def endHold (s : State) (c l : Nat) : State :=
  let x := coreAt s c
  match l1Line x l with
  | none => s
  | some y =>
    if y.hold then y.deferred.foldl (fun s m => honour s c m) (setCore s c (putL1 x { y with hold := false, deferred := [] })) else s

/-- A forward or invalidation arrives: deferred while its line is in claim hold (R273). -/
def arriveFwd (s : State) (c : Nat) (m : Msg) : State :=
  let x := coreAt s c
  match l1Line x m.line with
  | none => honour s c m
  | some y =>
    if y.hold then bump (setCore s c (putL1 x { y with deferred := y.deferred ++ [m] })) (dieReg (coreDie c) ucHoldDeferCnt)
    else honour s c m

/-- Messages that wake a clock-gated cluster (R450). -/
def wakesCluster : MsgKind → Bool
  | .fwdS _ => true
  | .fwdM _ _ => true
  | .recallLine => true
  | .inv _ => true
  | _ => false

/-- A message arrives at a core; a clock-gated cluster wakes for a forward, a recall or an invalidation (R450). -/
def coreRecv (s0 : State) (c : Nat) (m : Msg) : State :=
  let s := if wakesCluster m.kind then wakeCluster s0 (c / 64) else s0
  let x := coreAt s c
  let l := m.line
  let grant (acks : Nat) (g : Bool × LineCopy) : State := match lineReq x l with
    | none => s
    | some r => tryInstall (setCore s c (putReq x { r with expected := some acks, grant := some g })) c l
  match m.kind with
  | .gnt n => match l1Line x l with
    | some y => grant n (true, copyOf y true)
    | none => grant n (true, { bytes := zeros 128 })
  | .data mm n y => grant n (mm, y)
  | .invAck => match lineReq x l with
    | none => s
    | some r => tryInstall (setCore s c (putReq x { r with acks := r.acks + 1 })) c l
  | .atomRes seq old =>
    let s1 := setCore s c (dropReq x l)
    match x.accs.find? (fun a => a.seq == seq) with
    | none => kick s1 c l
    | some a =>
      let s2 := dropAcc s1 c seq
      let s3 := match a.op with
        | .atom _ _ dst _ => wrMany s2 c a.slot a.lane dst (leNat old) ((a.size + 3) / 4)
        | _ => s2
      kick s3 c l
  | .wbDone => setCore s c { x with wbs := x.wbs.erase l }
  | _ => arriveFwd s c m

/-! ### The contention predictor (R276, R277) -/

def predSet (l : Nat) : Nat :=
  let n := l % 2 ^ 29
  (n % 256) ^^^ (n / 256 % 256) ^^^ (n / 65536 % 256)
def predTag (l : Nat) : Nat := l % 2 ^ 29 / 256 % 2 ^ 21

/-- Consults and changes the predictor for an ATOM of core `q`; answers the updated CTR. -/
def predict (s : State) (l q : Nat) : State × Nat :=
  let base := 1024 * sliceOf l + 4 * predSet l
  let way (w : Nat) : Option PredEnt := (s.uc.pred.find? (fun p => p.1 == base + w)).map (·.2)
  let save (w : Nat) (e : PredEnt) : State := setUc s { s.uc with pred := tput s.uc.pred (base + w) e }
  match (List.range 4).find? (fun w => match way w with
      | some e => e.tag == predTag l
      | none => false) with
  | some w => match way w with
    | some e =>
      let c := if e.last ≠ q then min 7 (e.ctr + 2) else e.ctr - 1
      (save w { e with last := q, ctr := c }, c)
    | none => (s, 0)
  | none =>
    let w := match (List.range 4).find? (fun w => (way w).isNone) with
      | some w => w
      | none => (List.range 4).foldl (fun b w => match way w, way b with
          | some e, some f => if e.ctr < f.ctr then w else b
          | _, _ => b) 0
    let c := match dirSt s l with
      | some (.o x) => if x ≠ q then 2 else 0
      | _ => 0
    (save w { tag := predTag l, last := q, ctr := c }, c)

/-! ### The home (R267, R268, R271, R275, R280 to R283) -/

/-- Marks an outstanding access of a core as performed. -/
def accDone (s : State) (n : Node) (l seq : Nat) : State := match n with
  | .core c => kick (let s1 := dropAcc s c seq; setCore s1 c (dropReq (coreAt s1 c) l)) c l
  | _ => s

/-- Invalidates a line that no L1 holds any more: write-back, drop, and the count (R283). -/
def dropHome (s : State) (l : Nat) : State := bump (dropUcLine (dirFree s l) l) (dieReg (sliceOf l) ucInvalCnt)

/-- A bypass write at the stack, after the dirty sectors it covers have been written back (R254, R281). -/
def bypassPut (s : State) (l off : Nat) (bs : List Byte) : State :=
  let t := touched off bs.length
  let s1 := match ucLine s l with
    | some x =>
      let wbk := x.dirty &&& t
      putUcLine (stackPut s l wbk x.data x.poison) l { x with dirty := x.dirty - wbk }
    | none => s
  let s2 := performReq (drainLine s1 l t) (sliceOf l) { skink := false, line := l, mask := t, write := some (off, bs) }
  bumpBy s2 (dieReg (sliceOf l) ucBypassCnt) 32 (((List.range 4).filter (bit t)).length)

/-- Performs a far operation, a coherent read, a bypass write or an invalidation at the home. -/
def performFar (s : State) (m : Msg) : State :=
  let l := m.line
  let far := dieReg (sliceOf l) ucAtomFarCnt
  match m.kind with
  | .farWrite off bs => wakeWaits (ucWrite (dirFree s l) l off bs) (lineAddr l + off) bs.length
  | .cohRead off n =>
    let s1 := noteRead s l (touched off n)
    fromHome s1 m.src l (.data false 0 { bytes := ((ucBytes s1 l).drop off).take n, poison := ucMarks s1 l &&& touched off n })
  | .bypass off bs => bypassPut s l off bs
  | .inval seq => accDone (dropHome s l) m.src l seq
  | .evict => bump (dirFree s l) (dieReg (sliceOf l) ucDirEvictCnt)
  | .atom seq off op operand =>
    let n := if op = .cas then operand.length / 2 else operand.length
    let s1 := ucFill (dirFree s l) l (touched off n)
    let old := ((ucBytes s1 l).drop off).take n
    match m.src, poisonIn s1 (lineAddr l + off) n with
    | .core c, some d => match (coreAt s1 c).accs.find? (fun a => a.seq == seq) with
      | some a => threadPoison (accDone s1 m.src l seq) c a.slot d
      | none => s1
    | _, _ => bump (fromHome (wakeWaits (ucWrite s1 l off (atomBytes op n old operand)) (lineAddr l + off) n) m.src l (.atomRes seq old)) far
  | .red seq off op f operand =>
    let s1 := ucFill (dirFree s l) l (touched off operand.length)
    let old := ((ucBytes s1 l).drop off).take operand.length
    match m.src, poisonIn s1 (lineAddr l + off) operand.length with
    | .core c, some d => match (coreAt s1 c).accs.find? (fun a => a.seq == seq) with
      | some a => threadPoison (accDone s1 m.src l seq) c a.slot d
      | none => s1
    | _, _ =>
      let s2 := wakeWaits (ucWrite s1 l off (redBytes op f (operand.length / redSize f) old operand)) (lineAddr l + off) operand.length
      bump (accDone s2 m.src l seq) far
  | _ => s

/-- Requests that a core makes for the line itself. -/
def forLine : MsgKind → Bool
  | .getS => true
  | .getM => true
  | .getMFull => true
  | _ => false

/-- Requests after which the owner keeps a copy in S. -/
def keepsOwner : MsgKind → Bool
  | .cohRead _ _ => true
  | .bypass _ _ => true
  | _ => false

/-- Sends INV to some sharers; counts those of a coarse entry. -/
def sendInvs (s : State) (l : Nat) (d : DirSt) (to_ : List Nat) (ackTo : Node) : State :=
  let s1 := to_.foldl (fun s q => fromHome s (.core q) l (.inv ackTo)) s
  match d with
  | .coarse _ => bumpBy s1 (dieReg (sliceOf l) ucCoarseInvCnt) 32 to_.length
  | _ => s1

/-- Grants a line in M to core `q`, whose copy it may hold already. -/
def grantM (s : State) (l q acks : Nat) (holds full : Bool) : State :=
  if full || holds then fromHome s (.core q) l (.gnt acks)
  else
    let s1 := ucFill s l 15
    fromHome s1 (.core q) l (.data true acks { bytes := ucBytes s1 l, poison := ucMarks s1 l })

/-- The home takes a core's GETS, GETM or GETM_FULL (R268). -/
def serveLine (s : State) (m : Msg) (q : Nat) : State :=
  let l := m.line
  match m.kind, dirSt s l with
  | .getS, some (.o x) =>
    let s1 := fromHome s (.core x) l (.fwdS m.src)
    putTxn (dirPut s1 l (addSharer (some (.o x)) q)) l { req := m, owner := some x, unblock := true }
  | .getS, d =>
    let s1 := ucFill s l 15
    let s2 := fromHome s1 (.core q) l (.data false 0 { bytes := ucBytes s1 l, poison := ucMarks s1 l })
    putTxn (dirPut s2 l (addSharer d q)) l { req := m, unblock := true }
  | k, some (.o x) =>
    let s1 := fromHome s (.core x) l (.fwdM m.src (k == .getMFull))
    putTxn (dirPut s1 l (.o q)) l { req := m, owner := some x, unblock := true }
  | k, some d =>
    let others := (sharers d).filter (· != q)
    let s1 := sendInvs s l d others m.src
    let holds := (sharers d).contains q && (l1Line (coreAt s q) l).isSome
    putTxn (dirPut (grantM s1 l q others.length holds (k == .getMFull)) l (.o q)) l { req := m, unblock := true }
  | k, none => putTxn (dirPut (grantM s l q 0 false (k == .getMFull)) l (.o q)) l { req := m, unblock := true }

/-- The home takes an operation that is performed at the slice or the stack (R268): at once from U, after the sharers'
INV_ACKs from S where it removes copies, after the owner's answer from O. -/
def serveFar (s : State) (m : Msg) : State :=
  let l := m.line
  match dirSt s l with
  | none => performFar s m
  | some (.o x) =>
    if keepsOwner m.kind then
      putTxn (dirPut (fromHome s (.core x) l (.fwdS .home)) l (.s [x])) l { req := m, owner := some x }
    else putTxn (fromHome s (.core x) l .recallLine) l { req := m, owner := some x }
  | some d =>
    if keepsOwner m.kind then performFar s m
    else
      let mine := match m.src with
        | .core c => [c]
        | _ => []
      let to_ := (sharers d).filter fun q => !mine.contains q
      if to_.isEmpty then performFar s m
      else putTxn (sendInvs s l d to_ .home) l { req := m, acks := to_.length }

/-- A request whose line needs a directory entry finds its set full, and the victim's own transaction is open (R268). -/
def roomBlocked (s : State) (m : Msg) : Bool := forLine m.kind && (match dirVictim s m.line with
  | some v => busy s v
  | none => false)

/-- The home recalls the copies of a line whose directory entry it evicts, by a transaction of its own (R268). -/
def startEvict (s : State) (v : Nat) : State :=
  let m : Msg := { src := .home, dst := .home, line := v, kind := .evict }
  match dirSt s v with
  | some (.o x) => putTxn (fromHome s (.core x) v .recallLine) v { req := m, owner := some x }
  | some d => putTxn (sendInvs s v d (sharers d) .home) v { req := m, acks := (sharers d).length }
  | none => s

/-- The home takes a request for a line that is not busy. One that needs a directory entry of a full set waits at the head of its line's
requests while the victim is evicted. -/
def serveReq (s : State) (m : Msg) : State :=
  match m.src, forLine m.kind with
  | .core q, true => match dirVictim s m.line with
    | some v => startEvict (setUc s { s.uc with waitq := m :: s.uc.waitq }) v
    | none => serveLine s m q
  | _, _ => serveFar s m

/-- Serves the waiting requests of a line in order of arrival, as far as they go. The fuel bounds the requests. -/
def pump (s : State) (l : Nat) : Nat → State
  | 0 => s
  | fuel + 1 =>
    if busy s l then s
    else match takeMsg (fun m => m.line == l) s.uc.waitq with
      | none => s
      | some (m, rest) => if roomBlocked s m then s else pump (serveReq (setUc s { s.uc with waitq := rest }) m) l fuel

/-- The predictor's decision on an ATOM that arrives (R277): near makes it a GETM. -/
def decideAtom (s : State) (m : Msg) : State × Msg :=
  match m.src, m.kind with
  | .core q, .atom _ _ _ _ =>
    let p := predict s m.line q
    let mode := setting s idAtomMode
    if mode = 1 || (mode = 0 && setting s idAtomFarThresh ≤ p.2) then (p.1, m)
    else (bump p.1 (dieReg (sliceOf m.line) ucAtomNearCnt), { m with kind := .getM })
  | _, _ => (s, m)

/-- A request arrives at its home: it waits while the line is busy or has requests waiting (R267), or for room in the directory (R268). -/
def arriveReq (s0 : State) (m0 : Msg) : State :=
  let (s, m) := decideAtom s0 m0
  if busy s m.line || s.uc.waitq.any (fun w => w.line == m.line) || roomBlocked s m then setUc s { s.uc with waitq := s.uc.waitq ++ [m] }
  else serveReq s m

/-- Serves what waits for a line whose transaction has closed, and then the lines that waited for its directory set. -/
def pumpAfter (s : State) (l : Nat) : State :=
  let s1 := pump s l (s.uc.waitq.length + 1)
  (((s1.uc.waitq.map (·.line)).filter fun k => k != l && dirSet k == dirSet l).eraseDups).foldl (fun s k => pump s k (s.uc.waitq.length + 1)) s1

/-- Closes a transaction and serves the requests that it kept waiting. -/
def finishTxn (s : State) (l : Nat) : State := pumpAfter (closeTxn s l) l

/-- The owner has answered: with a WB of its own, or with NOLINE beside a WB that it had sent before (R271). -/
def ownerDone (t : Txn) : Bool := t.owner.isNone || t.solicited || (t.wb && t.noline)

/-- Advances a line's transaction as far as what has arrived allows. -/
def advance (s : State) (l : Nat) : State :=
  match txnOf s l with
  | none => s
  | some t =>
    if forLine t.req.kind then
      let s1 := match t.req.src, t.owner with
        | .core q, some _ =>
          if t.wb && t.noline && !t.solicited then
            let s2 := if t.req.kind = .getS then
                let s3 := ucFill s l 15
                fromHome s3 (.core q) l (.data false 0 { bytes := ucBytes s3 l, poison := ucMarks s3 l })
              else grantM s l q 0 false (t.req.kind == .getMFull)
            putTxn s2 l { t with owner := none }
          else s
        | _, _ => s
      match txnOf s1 l with
      | none => s1
      | some t1 => if !t1.unblock && (t1.req.kind != .getS || ownerDone t1) then finishTxn s1 l else s1
    else if t.acks = 0 && ownerDone t then
      pumpAfter (performFar (closeTxn s l) t.req) l
    else s

/-- A message arrives at the home, whose die it wakes (R453). -/
def homeRecv (s0 : State) (m : Msg) : State :=
  let s := wakeDie s0 (sliceOf m.line)
  let l := m.line
  let x := match m.src with
    | .core c => c
    | _ => 0
  match m.kind with
  | .invAck => match txnOf s l with
    | some t => advance (putTxn s l { t with acks := t.acks - 1 }) l
    | none => s
  | .noline => match txnOf s l with
    | some t => if t.owner = some x then advance (putTxn s l { t with noline := true }) l else s
    | none => s
  | .wb sol y =>
    let s1 := if y.dirty = 0 then s else wakeWaits (ucMerge s l y) (lineAddr l) 128
    match txnOf s l with
    | some t =>
      if t.owner = some x then advance (putTxn s1 l { t with wb := true, solicited := t.solicited || sol }) l
      else fromHome (if dirSt s1 l = some (.o x) then dirFree s1 l else s1) (.core x) l .wbDone
    | none => fromHome (if dirSt s1 l = some (.o x) then dirFree s1 l else s1) (.core x) l .wbDone
  | .unblock => match txnOf s l with
    | some t => if t.req.src = m.src then advance (putTxn s l { t with unblock := false }) l else s
    | none => s
  | _ => arriveReq s m

/-- Delivers a message to its destination. -/
def recv (s : State) (m : Msg) : State := match m.dst with
  | .home => homeRecv s m
  | .core c => coreRecv s c m
  | .agent => s

/-- Delivers the first message at hand that satisfies a test, if there is one; its slots of a Lenot port are free again. -/
def deliverFirst (s : State) (p : Msg → Bool) : State :=
  match takeMsg (fun m => m.txn.isNone && p m) s.uc.msgs with
  | none => s
  | some (m, rest) => recv (freeBuffer (setUc s { s.uc with msgs := rest }) m) { m with buffer := none }

/-! ### Settling a line: an agent's access waits for the line's transactions and holds (R267, R273) -/

/-- Ends every claim hold on a line. -/
def endHolds (s : State) (l : Nat) : State :=
  ((s.cores.filter fun p => match l1Line p.2 l with
    | some y => y.hold
    | none => false).map (·.1)).foldl (fun s c => endHold s c l) s

/-- The lines whose messages an access to a line waits for: its own, and those of the entry that a request of it evicts. -/
def settleSet (s : State) (l : Nat) : List Nat :=
  l :: (if s.uc.waitq.any (fun m => m.line == l) then (dirVictim s l).toList else [])

/-- Runs the messages of a line to their end, wherever they travel. The fuel bounds the messages. -/
def settleLine (s : State) (l : Nat) : Nat → State
  | 0 => s
  | fuel + 1 =>
    let ls := settleSet s l
    let s1 := ls.foldl endHolds s
    match takeMsg (fun m => ls.contains m.line) s1.uc.msgs with
    | none => s1
    | some (m, rest) => settleLine (recv (freeBuffer (setUc s1 { s1.uc with msgs := rest }) m) { m with txn := none, buffer := none }) l fuel

def settle (s : State) (l : Nat) : State := settleLine s l 20000

end Sys2Proof.Machine
end

