-- ==== Sys2Proof/Machine/Mem.lean ====
section
/-!
DEFINITION. What agents other than threads do to memory: coherent reads, far writes, bypass writes, invalidations and
zero-fills by device physical address, and reads and writes of a location in device or host memory (R251 to R257, R265,
R280 to R284, R288, R289). An agent's access is one step: it waits out the line's open transaction and claim hold, which
`settle` runs to their end (log entry 21); it wakes a home die that sleeps (R453).
-/

namespace Sys2Proof.Machine

/-- Cuts `n` bytes from an address into pieces that lie in one line each. The fuel bounds the lines. -/
def linePieces : Nat → Nat → Nat → List (Nat × Nat)
  | 0, _, _ => []
  | fuel + 1, a, n =>
    if n = 0 then []
    else
      let k := min n (128 - a % 128)
      (a, k) :: linePieces fuel (a + k) (n - k)

def pieces (a n : Nat) : List (Nat × Nat) := linePieces (n / 128 + 2) a n

/-- Lines of a range that the slices, the directory or the protocol know of. -/
def knownLines (s : State) (a n : Nat) : List Nat :=
  ((s.uc.lines.map (·.1) ++ s.uc.dir.map (·.1) ++ s.uc.txns.map (·.1) ++ s.uc.msgs.map (·.line)).filter fun l =>
    lineOf a ≤ l && l < lineOf (a + n + 127)).eraseDups

/-- The coherent value of device memory (R242, R280). -/
def homeRead (s : State) (a n : Nat) : List Byte := devValue s a n

/-- What a coherent read leaves behind: an owner is downgraded to S with its dirty data at the home (R268), and an access to
unreachable space is counted, with the first byte out of reach (R288, R289). -/
def touchRead (s0 : State) (a n : Nat) : State :=
  let s := wakeDie s0 (a / 2 ^ 36 % 8)
  let s1 := (knownLines s a n).foldl (fun s l =>
    let s2 := settle s l
    match dirSt s2 l with
    | some (.o x) => dirPut (pullOwner s2 l x true) l (.s [x])
    | _ => s2) s
  match firstUnreachable s a n with
  | none => s1
  | some e => noteUnpop s1 e

/-- A far write of bytes within one line (R268, R280). -/
def lineWrite (s0 : State) (a : Nat) (bs : List Byte) : State :=
  let s := wakeDie s0 (a / 2 ^ 36 % 8)
  if reachable s a then
    let l := lineOf a
    wakeWaits (ucWrite (revoke (settle s l) l) l (a % 128) bs) a bs.length
  else noteUnpop s a

/-- Far writes of consecutive bytes, line by line. -/
def homeWrite (s : State) (a : Nat) (bs : List Byte) : State :=
  (pieces a bs.length).foldl (fun s p => lineWrite s p.1 ((bs.drop (p.1 - a)).take p.2)) s

/-- A bypass write of bytes within one line (R254, R281). -/
def lineBypass (s0 : State) (a : Nat) (bs : List Byte) : State :=
  let s := wakeDie s0 (a / 2 ^ 36 % 8)
  if reachable s a then
    let l := lineOf a
    let s1 := settle s l
    let s2 := match dirSt s1 l with
      | some (.o x) => dirPut (pullOwner s1 l x true) l (.s [x])
      | _ => s1
    bypassPut s2 l (a % 128) bs
  else noteUnpop s a

def bypassWrite (s : State) (a : Nat) (bs : List Byte) : State :=
  (pieces a bs.length).foldl (fun s p => lineBypass s p.1 ((bs.drop (p.1 - a)).take p.2)) s

/-- Invalidates one line: copies withdrawn, dirty sectors written back, the line dropped (R283). -/
def lineInval (s : State) (l : Nat) : State := dropHome (revoke (settle s l) l) l

/-- Invalidates the lines of a range, rounded out to whole lines (R257). -/
def invalRange (s : State) (a n : Nat) : State := (knownLines s a n).foldl lineInval s

/-- Discards every copy of a line without write-back (R284). -/
def lineDiscard (s : State) (l : Nat) : State :=
  let s1 := revoke (settle s l) l
  setUc s1 { s1.uc with lines := tdel s1.uc.lines l }

/-- Every copy of a range is discarded, and the stack holds zero with valid check bits (R284). -/
def wipe (s : State) (a n : Nat) : State :=
  let s1 := (knownLines s a n).foldl lineDiscard s
  { s1 with mem := s1.mem.filter (fun c => !(a ≤ c.1 && c.1 < a + n))
            stackPoison := s1.stackPoison.filter (fun p => !(a ≤ p * 32 && p * 32 < a + n)) }

/-- Zero-fills device memory through the home slices (R284, R305): the fill's writes follow what waits in the stack's controller for the range. -/
def zeroFill (s : State) (a n : Nat) : State :=
  let waits := ((stackCtl s (a / 2 ^ 36 % 8)).q.filter fun r => a ≤ lineAddr r.line && lineAddr r.line < a + n).map (·.line)
  wipe (waits.foldl (fun s l => drainLine s l 15) s) a n

/-- A range's sectors hold valid data again: their marks are gone from every copy and from the stack. -/
def healRange (s : State) (a n : Nat) : State :=
  let one (s : State) (l : Nat) : State :=
    let s1 := revoke (settle s l) l
    match ucLine s1 l with
    | some x => putUcLine s1 l { x with poison := 0 }
    | none => s1
  let s1 := (knownLines s a n).foldl one s
  { s1 with stackPoison := s1.stackPoison.filter (fun p => !(a ≤ p * 32 && p * 32 < a + n)) }

/-- Sectors of device memory that a coherent read finds poisoned (R285, R300). -/
def poisonedSectors (s : State) : List Nat :=
  let held : List Nat := s.uc.lines.map (fun (p : Nat × UcLine) => p.1)
  let l1s : List Nat := s.cores.flatMap fun (p : Nat × Core) => p.2.l1.map fun y => y.line
  let lines := (s.stackPoison.map (fun k => k / 4) ++ held ++ l1s).eraseDups
  lines.flatMap fun l => ((List.range 4).map (4 * l + ·)).filter (sectorPoisoned s)

/-- Bytes at a location (R242). -/
def locRead (s : State) (l : Loc) (n : Nat) : List Byte := match l with
  | .dev a => homeRead s a n
  | .host _ a _ => mread s.hostMem a n

/-- What a read of a location leaves behind. -/
def locTouch (s : State) (l : Loc) (n : Nat) : State := match l with
  | .dev a => touchRead s a n
  | .host _ _ _ => s

def locWrite (s : State) (l : Loc) (bs : List Byte) : State := match l with
  | .dev a => homeWrite s a bs
  | .host fn a _ => hostWrite s fn a bs

end Sys2Proof.Machine
end

