-- ==== Sys2Proof/Machine/Translate.lean ====
section
/-!
DEFINITION. Translation of device virtual addresses: regions, table walks, permissions, and reads and writes by virtual
address (R309 to R323).
-/

namespace Sys2Proof.Machine

/-- The function a tag belongs to: the VF that TENANT_CONFIG gave it, else the PF (R309). -/
def tagOwner (s : State) (asid : Nat) : Nat :=
  match (List.range 64).find? (fun v =>
      let c := (tget {} s.tenants v).cfg
      v ≠ 0 && c.asidBase ≤ asid && asid < c.asidBase + c.asidCount) with
  | some v => v
  | none => 0

/-- Bytes of one stack that the active bundle's replica takes, above the firmware reserve (R93, R96). -/
def replicaShare (b : Bundle) : Nat := ((b.nets.map (·.bytes)).sum * b.repl + 7) / 8

/-- M0 to M3 hold the transient copy of a factor-1 bundle, until PHASE 5 (R99). -/
def transient (s : State) (b : Bundle) : Bool := b.repl == 1 && s.serving.transient

/-- Bytes of a replica that is being written on a stack: at the first activation, or in the half that a swap loads (R95, R97, R99). -/
def replicaWriting (s : State) (st : Nat) : Nat :=
  max (match s.serving.load with
    | some l => match l.replicating with
      | some b => replicaShare b
      | none => 0
    | none => 0)
    (match s.serving.swap with
    | some w => match w.stage with
      | .loadA => if st < 4 then replicaShare w.bundle * (if w.bundle.repl = 1 then 2 else 1) else 0
      | .loadB => if st < 4 then 0 else replicaShare w.bundle
      | .loadAll => replicaShare w.bundle
      | .accepted | .drainA | .drainB | .drainAll => 0
    | none => 0)

/-- Where `n` bytes placed upwards from the firmware reserve end when the 64 KiB pages at some offsets are left out; the fuel is the
number of those pages. -/
def endPast (holes : List Nat) (n : Nat) : Nat → Nat → Nat
  | 0, e => e
  | k + 1, e => endPast holes n k (0x20000000 + n + 65536 * (holes.filter fun h => 0x20000000 ≤ h && h < e).length)

/-- The end of the bundle replica on a stack, as an offset; one that is being written counts (R96, R312). The pages that were retired
when it was placed are not part of it (R303). -/
def replicaTop (s : State) (st : Nat) : Nat :=
  let n := max (replicaWriting s st) (match (if st < 4 then s.serving.halfA else s.serving.halfB) with
    | some b => replicaShare b * (if st < 4 && transient s b then 2 else 1)
    | none => 0)
  let holes := tget [] s.serving.holes st
  endPast holes n holes.length (0x20000000 + n)

/-- A replica is placed on some stacks: it leaves out the pages retired by now (R303). -/
def placeReplica (s : State) (sts : List Nat) : State :=
  { s with serving := { s.serving with
      holes := sts.foldl (fun t st => tput t st ((tget {} s.hbm st).retired.map (· % 2 ^ 36))) s.serving.holes } }

/-- The start of the page pool on a stack, as an offset (R117, R120). -/
def poolBottom (s : State) (st : Nat) : Nat :=
  0xC00000000 - (tget {} s.sess.pools st).rows * setting s idKvRowPages * 65536

/-- The device physical address at a table address or page output, and how many bytes on everything is eligible for the tag's
owner (R312). -/
def eligible (s : State) (asid r : Nat) : Option (Nat × Nat) :=
  let st := r / 2 ^ 36 % 8
  let off := r % 2 ^ 36
  let o := tagOwner s asid
  if r / 2 ^ 39 ≠ 0 then none
  else if o = 0 then
    if populated s r && 0x20000000 ≤ off && replicaTop s st ≤ off && off < poolBottom s st then some (r, poolBottom s st - off) else none
  else
    let c := (tget {} s.tenants o).cfg
    if off < tget 0 c.len st then some (tget 0 c.base st + off, tget 0 c.len st - off) else none

/-- The device physical address of an object of `n` bytes, when it is eligible whole (R312). -/
def physOf (s : State) (asid r n : Nat) : Option Nat := match eligible s asid r with
  | some (d, k) => if n ≤ k then some d else none
  | none => none

/-- The root stack of a VF (R311). -/
def rootStack (s : State) (v : Nat) : Option Nat :=
  (List.range 8).find? fun st => tget 0 (tget {} s.tenants v).cfg.len st ≠ 0

/-- Where a tag's root pointer lies (R311). -/
def rootAddr (s : State) (asid : Nat) : Option Nat :=
  let o := tagOwner s asid
  if o = 0 then
    if setting s idPfRootDir = 0 then none else some (setting s idPfRootDir + 8 * asid)
  else (rootStack s o).map fun st =>
    let c := (tget {} s.tenants o).cfg
    tget 0 c.base st + 8 * (asid - c.asidBase)

/-- What reading a tag's root pointer comes to (R311, R313, R319). -/
inductive Root where
  | table (dpa : Nat)
  | poisoned (dpa : Nat)
  | none
  deriving DecidableEq, Repr

/-- The L1 table that a root pointer names, if it is valid and eligible (R311, R313). -/
def rootOf (s : State) (asid v : Nat) : Root :=
  if v / 2 ^ 48 ≠ 0 || bits v 1 11 ≠ 0 || v % 2 = 0 then .none
  else match physOf s asid (bits v 12 36 * 2 ^ 12) 4096 with
    | some d => .table d
    | none => .none

/-- The L1 table of a tag: from the root pointer as it was read, else from the directory now (R311, R313). -/
def rootTable (s : State) (asid : Nat) : Root :=
  match s.xlat.roots.find? (fun e => e.1 == asid) with
  | some e => rootOf s asid e.2
  | none => match rootAddr s asid with
    | none => .none
    | some a => match poisonIn s a 8 with
      | some d => .poisoned d
      | none => rootOf s asid (leNat (homeRead s a 8))

/-- A table entry, read (R317, R318). -/
inductive Pte where
  | invalid
  | bad
  | pointer (table : Nat)
  | leaf (dpa : Nat) (w x pin : Bool)
  deriving DecidableEq, Repr

/-- Shift of the VA bits below an entry of a level, 1 to 4. -/
def levelShift : Nat → Nat
  | 1 => 39
  | 2 => 30
  | 3 => 21
  | _ => 16

/-- Reads an entry of level `l` (R317, R318). -/
def readPte (s : State) (asid l e : Nat) : Pte :=
  if e % 2 = 0 then .invalid
  else
    let addr := bits e 8 40 * 256
    let leaf := bit e 1
    if e / 2 ^ 48 ≠ 0 || bits e 5 3 ≠ 0 then .bad
    else if leaf then
      if l = 1 || addr % 2 ^ levelShift l ≠ 0 then .bad
      else match physOf s asid addr (2 ^ levelShift l) with
        | some d => .leaf d (bit e 2) (bit e 3) (bit e 4)
        | none => .bad
    else if l = 4 || bits e 2 3 ≠ 0 then .bad
    else if l < 3 && addr % 4096 ≠ 0 then .bad
    else match physOf s asid addr (if l = 3 then 256 else 4096) with
      | some d => .pointer d
      | none => .bad

/-- What a walk finds: a leaf with its page, an address in poisoned table data, or nothing; `bad` counts bad entries met. -/
inductive Walk where
  | leaf (e : TlbEntry)
  | poisoned (dpa : Nat)
  | miss (bad : Bool)
  deriving DecidableEq, Repr

/-- A tag's generation (R150, R327). -/
def tagGen (s : State) (asid : Nat) : Nat := tget 0 s.xlat.gens asid

/-- Index of a VA's entry in a table of level `l`. -/
def tableIndex (va l : Nat) : Nat := va / 2 ^ levelShift l % (if l = 4 then 32 else 512)

/-- The walk from level `l` at a table, with the addresses of the entries that it reads and the pointers that it meets; the fuel is the
number of levels left (R319). -/
def walkFrom (s : State) (asid va : Nat) : Nat → Nat → Nat → Walk × List Nat × List PtrEntry
  | 0, _, _ => (.miss false, [], [])
  | fuel + 1, l, table =>
    let a := table + 8 * tableIndex va l
    match poisonIn s a 8 with
    | some d => (.poisoned d, [a], [])
    | none => match readPte s asid l (leNat (homeRead s a 8)) with
      | .invalid => (.miss false, [a], [])
      | .bad => (.miss true, [a], [])
      | .pointer t =>
        let r := walkFrom s asid va fuel (l + 1) t
        (r.1, a :: r.2.1, { asid := asid, level := l + 1, va := va - va % 2 ^ levelShift l, table := t, gen := tagGen s asid } :: r.2.2)
      | .leaf d w x pin =>
        (.leaf { asid := asid, va := va - va % 2 ^ levelShift l, size := 2 ^ levelShift l, dpa := d, w := w, x := x, pin := pin,
                 gen := tagGen s asid }, [a], [])

/-- A walk of the paged region from the root pointer (R319). -/
def fullWalk (s : State) (asid va : Nat) : Walk × List Nat × List PtrEntry :=
  match rootTable s asid with
  | .table t => walkFrom s asid va 4 1 t
  | .poisoned d => (.poisoned d, [], [])
  | .none => (.miss false, [], [])

/-- The deepest cached pointer entry that serves a VA, if one is held (R319). -/
def ptrLookup (s : State) (asid va : Nat) : Option PtrEntry :=
  [4, 3, 2].findSome? fun l => s.xlat.ptrs.find? fun p =>
    p.asid == asid && p.level == l && p.va == va - va % 2 ^ levelShift (l - 1)

/-- A walk of the paged region, from the deepest pointer entry that is cached (R319, R321). -/
def walkAll (s : State) (asid va : Nat) : Walk × List Nat × List PtrEntry := match ptrLookup s asid va with
  | some p => walkFrom s asid va (5 - p.level) p.level p.table
  | none => fullWalk s asid va

def walk (s : State) (asid va : Nat) : Walk := (walkAll s asid va).1

/-- The cached translation of a VA, if one is held (R319). -/
def tlbLookup (s : State) (asid va : Nat) : Option TlbEntry :=
  s.xlat.tlb.find? fun e => e.asid == asid && e.va ≤ va && va < e.va + e.size

/-- A translated address: where it lies, what it permits, and how many bytes on it still holds. -/
structure Xl where
  loc : Loc
  w : Bool
  x : Bool
  pin : Bool
  span : Nat
  deriving DecidableEq, Repr

/-- What a translation comes to. -/
inductive XlRes where
  | ok (x : Xl)
  | poisoned (dpa : Nat)
  | none
  deriving DecidableEq, Repr

def xlOfEntry (e : TlbEntry) (va : Nat) : XlRes :=
  .ok { loc := .dev (e.dpa + (va - e.va)), w := e.w, x := e.x, pin := e.pin, span := e.size - (va - e.va) }

/-- The PASID that a function's host requests carry under a tag (R316). -/
def hostPasid (s : State) (asid : Nat) : Option Nat := if (pcieFn s (tagOwner s asid)).pasid then some asid else none

/-- The translation of a VA under a tag (R314 to R319). -/
def xlate (s : State) (asid va : Nat) : XlRes :=
  if va / 2 ^ 49 ≠ 0 then .none
  else if va / 2 ^ 48 = 1 then
    .ok { loc := .host (tagOwner s asid) (va % 2 ^ 48) (hostPasid s asid), w := true, x := false, pin := true, span := 4096 - va % 4096 }
  else if va / 2 ^ 47 = 1 then
    if bits va 39 8 ≠ 0 then .none
    else match eligible s asid (va % 2 ^ 39) with
      | some (d, k) => .ok { loc := .dev d, w := true, x := true, pin := true, span := k }
      | none => .none
  else match tlbLookup s asid va with
    | some e => xlOfEntry e va
    | none => match walk s asid va with
      | .leaf e => xlOfEntry e va
      | .poisoned a => .poisoned a
      | .miss _ => .none

/-- The translation of a VA, where it is found. -/
def xlateOk (s : State) (asid va : Nat) : Option Xl := match xlate s asid va with
  | .ok x => some x
  | .poisoned _ => none
  | .none => none

/-- The translation of a VA for a holder of some leaves: those stand until it lets them go (R323, R328). -/
def xlateHeld (s : State) (held : List TlbEntry) (asid va : Nat) : XlRes :=
  match held.find? (fun e => e.asid == asid && e.va ≤ va && va < e.va + e.size) with
  | some e => xlOfEntry e va
  | none => xlate s asid va

/-! ### Ranges (R319, R320) -/

/-- What the translation of a range comes to: its pieces, the first VA without a usable translation, or poisoned table data. -/
inductive Reach where
  | ok (l : List (Loc × Nat))
  | miss (va : Nat)
  | poisoned (dpa : Nat)
  deriving DecidableEq, Repr

/-- The pieces of a range of `n` bytes, page by page, by a translation and the permission that the use needs. The fuel bounds the
pages. -/
def reachFrom (xl : Nat → XlRes) (may : Xl → Bool) : Nat → Nat → Nat → Reach
  | 0, va, n => if n = 0 then .ok [] else .miss va
  | fuel + 1, va, n =>
    if n = 0 then .ok []
    else match xl va with
      | .none => .miss va
      | .poisoned d => .poisoned d
      | .ok x =>
        if !may x then .miss va
        else
          let k := min n x.span
          match reachFrom xl may fuel (va + k) (n - k) with
          | .ok l => .ok ((x.loc, k) :: l)
          | r => r

/-- The pieces of a range for a holder of some leaves. -/
def vaReach (s : State) (held : List TlbEntry) (asid : Nat) (may : Xl → Bool) (va n : Nat) : Reach :=
  reachFrom (xlateHeld s held asid) may (n / 4096 + 2) va n

/-- The bytes at some pieces. -/
def readPieces (s : State) (l : List (Loc × Nat)) : List Byte := l.flatMap fun p => locRead s p.1 p.2

/-- The poisoned sector that reading some pieces would consume (R530). -/
def piecesPoison (s : State) (l : List (Loc × Nat)) : Option Nat := l.findSome? fun p => match p.1 with
  | .dev a => poisonIn s a p.2
  | .host _ _ _ => none

/-- What reading some pieces leaves behind. -/
def touchPieces (s : State) (l : List (Loc × Nat)) : State := l.foldl (fun s p => locTouch s p.1 p.2) s

/-- Writes the pieces of a range in order. -/
def writePieces (s : State) (bs : List Byte) : List (Loc × Nat) → State
  | [] => s
  | (l, k) :: t => writePieces (locWrite s l (bs.take k)) (bs.drop k) t

/-- Reads `n` bytes by virtual address. -/
def vaRead (s : State) (asid va n : Nat) : Option (List Byte) := match vaReach s [] asid (fun _ => true) va n with
  | .ok l => some (readPieces s l)
  | _ => none

/-- Writes bytes by virtual address, for a holder of some leaves. -/
def vaWrite (s : State) (held : List TlbEntry) (asid va : Nat) (bs : List Byte) : Option State :=
  match vaReach s held asid (·.w) va bs.length with
  | .ok l => some (writePieces s bs l)
  | _ => none

/-- The leaf of the paged region that a VA lies in (R319). -/
def leafAt (s : State) (asid va : Nat) : Option TlbEntry :=
  if va / 2 ^ 47 ≠ 0 then none
  else match tlbLookup s asid va with
    | some e => some e
    | none => match walk s asid va with
      | .leaf e => some e
      | .poisoned _ => none
      | .miss _ => none

/-- The leaves of the paged region that a range lies in; where a page has none, it is passed over 64 KiB at a time. The fuel bounds
the pages. -/
def leavesFrom (s : State) (asid : Nat) : Nat → Nat → Nat → List TlbEntry
  | 0, _, _ => []
  | fuel + 1, va, n =>
    if n = 0 || va / 2 ^ 47 ≠ 0 then []
    else
      let e := leafAt s asid va
      let k := match e with
        | some e => min n (e.va + e.size - va)
        | none => min n (65536 - va % 65536)
      e.toList ++ leavesFrom s asid fuel (va + k) (n - k)

def leavesIn (s : State) (asid va n : Nat) : List TlbEntry := leavesFrom s asid (n / 65536 + 2) va n

/-- The first translation of a tag reads its root pointer, and keeps it unless its sector is in poison (R313, R319). -/
def readRoot (s : State) (asid : Nat) : State :=
  if s.xlat.roots.any (fun e => e.1 == asid) then s
  else match rootAddr s asid with
    | some a =>
      if (poisonIn s a 8).isSome then touchRead s a 8
      else
        let v := leNat (homeRead s a 8)
        let s1 := touchRead s a 8
        { s1 with xlat := { s1.xlat with roots := tput s1.xlat.roots asid v } }
    | none => s

/-- What translating a VA leaves behind: the root pointer read, and a walk where no cached leaf serves it, its entries read coherently, its
bad entries counted (R313, R318, R319). The walks of the hub count in C0's block. -/
def noteXlate (s : State) (d asid va : Nat) : State :=
  let s1 := readRoot s asid
  if va / 2 ^ 47 ≠ 0 || (tlbLookup s1 asid va).isSome then s1
  else
    let r := walkAll s1 asid va
    let s2 := bump (r.2.1.foldl (fun s a => touchRead s a 8) s1) (dieReg (d % 8) xltWalkCnt)
    if r.1 = .miss true then bump s2 (dieReg (d % 8) xltBadPteCnt) else s2

/-- As `noteXlate` over a range, a leaf or 64 KiB at a time. The fuel bounds the pages. -/
def noteFrom (d asid : Nat) : Nat → Nat → Nat → State → State
  | 0, _, _, s => s
  | fuel + 1, va, n, s =>
    if n = 0 || va / 2 ^ 47 ≠ 0 then (if n = 0 then s else noteXlate s d asid va)
    else
      let k := min n (match leafAt s asid va with
        | some e => e.va + e.size - va
        | none => 65536 - va % 65536)
      noteFrom d asid fuel (va + k) (n - k) (noteXlate s d asid va)

def noteRange (s : State) (d asid va n : Nat) : State := noteFrom d asid (n / 65536 + 2) va n s

/-- Records a fault in XLT_LAST_FAULT of a die, and counts it; KIND 0 thread access, 1 XLATE_FAULT, 2 PAGE_FAULT. -/
def noteFault (s : State) (die kind asid va : Nat) : State :=
  let s1 := if kind = 0 then s else bump s (dieReg die xltFaultCnt)
  setReg (setReg s1 (dieReg die xltLastFaultLo) (BitVec.ofNat 32 va)) (dieReg die xltLastFaultHi)
    (BitVec.ofNat 32 (2 ^ 31 + kind * 2 ^ 29 + asid % 4096 * 2 ^ 17 + va / 2 ^ 32 % 2 ^ 17))

/-- Drops everything cached of a tag, and its root pointer (R327 MODE 0, R332). -/
def dropTag (s : State) (asid : Nat) : State :=
  let x := s.xlat
  { s with xlat := { x with tlb := x.tlb.filter (·.asid != asid), ptrs := x.ptrs.filter (·.asid != asid), roots := tdel x.roots asid } }

end Sys2Proof.Machine
end

