-- ==== Sys2Proof/Machine/Queues.lean ====
section
/-!
DEFINITION. Completion of queue commands: counters, records, the queue status block, error records and stopping
(R148, R156, R158 to R161).
-/

namespace Sys2Proof.Machine

/-- A 64-bit increment at a location, as an atomic release (R138, R156). -/
def counterAt (s : State) (l : Loc) : State := locWrite s l (leBytes 8 (leNat (locRead s l 8) + 1))

/-- As `counterAt` by virtual address, for a holder of some leaves; without a translation nothing is incremented. -/
def counterAdd (s : State) (held : List TlbEntry) (asid va : Nat) : State := match xlateHeld s held asid va with
  | .ok x => if x.w then counterAt s x.loc else s
  | _ => s

/-- The command's counter, when COUNT is 1 (R152). -/
def cmdCounter (c : Cmd) : Option Nat := if bit (cmdFlags c) 2 then some (field c.bytes 56 8) else none

/-! ### Rings and completion areas (R145, R148, R149) -/

/-- A location in a pinned area of a queue, by offset from the area's first 4 KiB page. -/
def pinnedLoc (pages : List Loc) (off : Nat) : Option Loc :=
  match pages[off / 4096]? with
  | some (.dev a) => some (.dev (a + off % 4096))
  | some (.host f a p) => some (.host f (a + off % 4096) p)
  | none => none

/-- Writes into a queue's completion area, at an offset from COMPL_VA. A tenant under reset gets no write (R432). -/
def complWrite (s : State) (x : Queue) (off : Nat) (bs : List Byte) : State :=
  if (tget {} s.tenants x.owner).resetting.isSome then s
  else match pinnedLoc x.compl (x.complVA % 4096 + off) with
    | some l => locWrite s l bs
    | none => s

def qCode : QState → Nat
  | .closed => 0
  | .opened => 1
  | .closing => 2
  | .stopped => 3

/-- The 64 bytes of the QSB (R148). -/
def qsbBytes (x : Queue) : List Byte :=
  leBytes 4 x.head ++ leBytes 4 x.done ++ leBytes 4 x.started ++ leBytes 4 x.epoch.toNat ++ leBytes 4 x.errors
    ++ leBytes 4 x.stopIndex ++ leBytes 1 (qCode x.state) ++ leBytes 1 (b2n x.dbRange) ++ zeros 38

def writeQsb (s : State) (q : Nat) : State := complWrite s (queue s q) 0 (qsbBytes (queue s q))

/-- The 32 bytes of a record (R158). -/
def recordBytes (x : Queue) (c : Cmd) (r : CmdRes) (time : Nat) : List Byte :=
  leBytes 4 c.index ++ leBytes 2 r.status ++ leBytes 2 r.detail
    ++ leBytes 1 ((1 - c.index / x.entries % 2) * 128 + b2n r.error) ++ leBytes 1 (cmdOpcode c) ++ leBytes 2 (field c.bytes 2 2)
    ++ leBytes 4 c.epoch.toNat ++ leBytes 8 time ++ leBytes 8 r.result

def writeRecord (s : State) (q : Nat) (c : Cmd) (r : CmdRes) : State :=
  let x := queue s q
  complWrite s x (64 + c.index % x.entries * 32) (recordBytes x c r s.hubTime)

/-- Tag an address field is translated under: MERGE_ARM names its own for its three addresses (R172). -/
def fieldAsid (x : Queue) (bs : List Byte) (off : Nat) : Nat :=
  if field bs 0 1 = 0x35 && off ≠ 56 then field bs 48 2 else x.asid

/-- The C-die of an engine instance; 8 for the hub's Hawser Engine (R14). -/
def engineDie (engine inst : Nat) : Nat := if engine = 1 then inst / 2 else if engine = 3 then 8 else inst

/-- Stops a queue at command `i` (R159): commands not started are dropped, the QSB is written, and the stop is entered in the owner's error
log with vector 1. A queue that has stopped keeps its STOP_INDEX: a command that ends later in an error only has its own record. -/
def stopQueue (s : State) (q i status : Nat) : State :=
  let x := queue s q
  if x.state = .stopped then writeQsb s q
  else
    let x1 := dropFetched { x with state := .stopped, stopIndex := i }
    let s1 := writeQsb (setQueue s q { x1 with done := doneOf x1 }) q
    logErr s1 x.owner { code := 0x1030, cls := 5, source := 6, die := engineDie x.engine x.inst, unit := x.inst, inst := x.owner,
                        status := status, arg := i * 2 ^ 32 + x.slot }

/-- Writes an error record and stops the queue (R158, R159); translation faults are also recorded in the XLT block. The stop signals vector
1; the command's own IRQ, which follows a completion (R156), is not sent (DESIGN CHOICE, log entry 51). -/
def errorStop (s : State) (q : Nat) (c : Cmd) (r : CmdRes) : State :=
  let x := queue s q
  let d := engineDie x.engine x.inst % 8
  let s0 := if r.status = stXlateFault then
      if r.detail < 64 then noteFault s d 1 (fieldAsid x c.bytes r.detail) r.result else bump s (dieReg d xltFaultCnt)
    else if r.status = stPageFault then noteFault s d 2 x.asid r.result else s
  let s1 := writeRecord s0 q c { r with error := true }
  let x1 := queue s1 q
  let s2 := setQueue s1 q { loseCmds (removeCmd x1 c.index) [c.index] with errors := x1.errors + 1 }
  stopQueue s2 q c.index r.status

end Sys2Proof.Machine
end

