-- ==== Sys2Proof/Machine/SessOps.lean ====
section
/-!
DEFINITION. Sessions, row pools and reservations as operations: geometry, pops and returns, opening, committing, rolling back
and ending (R115 to R128, R139 to R142).
-/

namespace Sys2Proof.Machine

def session (s : State) (n : Nat) : Session := tget {} s.sess.table n
def setSession (s : State) (n : Nat) (x : Session) : State := { s with sess := { s.sess with table := tput s.sess.table n x } }
def pool (s : State) (st : Nat) : Pool := tget {} s.sess.pools st
def setPool (s : State) (st : Nat) (p : Pool) : State := { s with sess := { s.sess with pools := tput s.sess.pools st p } }

/-- Live sessions, with their numbers. -/
def liveSessions (s : State) : List (Nat × Session) := s.sess.table.filter (fun p => p.2.state != .free)

def sessCode : SessState → Nat
  | .free => 0
  | .active => 1
  | .waitPage => 2
  | .ending => 3
  | .shadow => 4
  | .frozen => 5

/-! ### Geometry (R116, R117) -/

/-- Bytes of one element of the page format. -/
def kvElem (n : Network) : Nat := if n.kvFormat = 2 then 2 else 1
/-- B, the bytes per layer per token. -/
def kvB (n : Network) : Nat := 2 * n.kvHeads * n.headDim * kvElem n
/-- S, the largest power of two with S × B ≤ 65,536. -/
def kvSpan (n : Network) : Nat := 2 ^ Nat.log2 (65536 / kvB n)
/-- The network's limit of R75: the smaller of MAX_TOKENS and 1,024 × S; MAX_TOKENS for a network without key-value history. -/
def netLimit (n : Network) : Nat := if n.kvHeads = 0 then n.maxTokens else min n.maxTokens (1024 * kvSpan n)
/-- ⌈a ÷ b⌉. -/
def ceilDiv (a b : Nat) : Nat := (a + b - 1) / b

/-- Device physical address of row `r` of the pool of stack `st` (R117). -/
def rowBase (s : State) (st r : Nat) : Nat :=
  st * 0x1000000000 + 0xC00000000 - (r + 1) * setting s idKvRowPages * 65536

/-- Offset within a page of element `i` of head `h` at position `p`; `k` is 0 for keys, 1 for values (R117). -/
def elemOff (n : Network) (k h p i : Nat) : Nat :=
  let e := kvElem n
  let sp := kvSpan n
  k * (n.kvHeads * sp * n.headDim * e) + h * (sp * n.headDim * e) + p % sp * n.headDim * e + i * e

/-- Device physical address of an element of a session's history, where its row is held (R117, R118). -/
def elemAddr (s : State) (x : Session) (layer k h p i : Nat) : Option Nat :=
  (x.rowMap.find? (fun r => r.1 == p / kvSpan x.net)).map fun r =>
    rowBase s r.2.stack r.2.row + layer * 65536 + elemOff x.net k h p i

/-- STACK_MASK (R75). -/
def stackMask (x : Session) : Nat :=
  ((List.range 8).filter fun st => x.rowMap.any (fun r => r.2.stack == st)).foldl (fun m st => m + 2 ^ st) 0

/-! ### Pools (R119 to R124) -/

/-- RESERVE_ROWS = ⌈POOL_ROWS × DECODE_RESERVE_PM ÷ 1,000⌉ (R119). -/
def reserveRows (s : State) (st : Nat) : Nat := ceilDiv ((pool s st).rows * setting s idDecodeReservePm) 1000

/-- Rows popped for a reservation whose zero-fill runs, on a stack. -/
def fillingRows (x : Session) (st : Nat) : List Nat := match x.resv with
  | .filling p => if p.stack = st then p.rows else []
  | _ => []

/-- Rows an instance holds on a stack: tentative rows, and rows in a zero-fill, are included. -/
def rowsHeld (s : State) (owner st : Nat) : Nat :=
  ((liveSessions s).map fun p =>
    if p.2.owner = owner then (p.2.rowMap.filter (fun r => r.2.stack == st)).length + (fillingRows p.2 st).length else 0).sum

def tenant (s : State) (v : Nat) : Tenant := tget {} s.tenants v
def setTenant (s : State) (v : Nat) (t : Tenant) : State := { s with tenants := tput s.tenants v t }

/-- The owner's row budget on a stack has room for `n` more rows (R126, R426); the PF has no row budget. -/
def rowRoom (s : State) (owner st n : Nat) : Bool :=
  owner = 0 || n = 0 || (rowsHeld s owner st + n) * setting s idKvRowPages * 65536 ≤ tget 0 (tenant s owner).cfg.rows st

/-- A row holds a retired page (R303). -/
def rowRetired (s : State) (st r : Nat) : Bool :=
  let b := rowBase s st r
  let n := setting s idKvRowPages * 65536
  (tget {} s.hbm st).retired.any fun p => b ≤ p && p < b + n

/-- Returns rows to a pool: one splice at the head of its free list (R127); a row with a retired page leaves the pool (R303). -/
def freeRows (s : State) (st : Nat) (rows : List Nat) : State :=
  let p := pool s st
  setPool s st { p with free := rows.filter (fun r => !rowRetired s st r) ++ p.free }

/-- Returns the rows of a list of row references, each to its own pool. -/
def freeRefs (s : State) (rs : List RowRef) : State :=
  (List.range 8).foldl (fun s st =>
    let l := (rs.filter (fun r => r.stack == st)).map (·.row)
    if l.isEmpty then s else freeRows s st l) s

/-- Takes the first `n` free rows of a pool. -/
def popRows (s : State) (st n : Nat) : State × List Nat :=
  let p := pool s st
  (setPool s st { p with free := p.free.drop n }, p.free.take n)

/-- A row's last owner is another instance (R124). -/
def rowForeign (s : State) (st owner r : Nat) : Bool := tget 0 (pool s st).owner r != owner + 1

/-- Some of the rows must be zero-filled for an owner (R124). -/
def needFill (s : State) (st owner : Nat) (rows : List Nat) : Bool := rows.any (rowForeign s st owner)

/-- Zero-fills a row: all its pages, with valid check bits (R124). -/
def zeroRow (s : State) (st r : Nat) : State :=
  zeroFill s (rowBase s st r) (setting s idKvRowPages * 65536)

/-- The instance is a row's owner from now on. -/
def claimRow (s : State) (st owner r : Nat) : State := setPool s st { pool s st with owner := tput (pool s st).owner r (owner + 1) }

/-- Rows that an instance takes into use: those last owned by another one are zero-filled (R124). -/
def fillRows (s : State) (st owner : Nat) (rows : List Nat) : State :=
  rows.foldl (fun s r => if rowForeign s st owner r then claimRow (zeroRow s st r) st owner r else s) s

/-! ### Reservations (R125 to R128) -/

/-- Row-map entries that positions [C, C + f + d) need and the session does not hold (R126). -/
def entriesNeeded (x : Session) (f d : Nat) : List Nat :=
  let sp := kvSpan x.net
  let lo := ceilDiv x.c sp
  let hi := ceilDiv (x.c + f + d) sp
  if x.net.kvHeads = 0 then []
  else ((List.range (hi - lo)).map (· + lo)).filter fun j => !x.rowMap.any (fun r => r.1 == j)

/-- The stack a RESERVE draws on: the one named, or for 0xFF that of the session's last row, or its home stack (R126). -/
def sourceStack (x : Session) (st : Nat) : Nat :=
  if st ≠ 0xFF then st
  else match x.rowMap.getLast? with
    | some r => r.2.stack
    | none => x.home

/-- A reservation takes effect with these rows: they are linked in position order as tentative rows, F and T advance, and
GEN goes up by one (R125, R126). -/
def openResv (s : State) (n : Nat) (st f d : Nat) (rows : List Nat) : State :=
  let x := session s n
  let es := entriesNeeded x f d
  setSession s n { x with
    rowMap := (es.zip rows).foldl (fun t p => tput t p.1 { stack := st, row := p.2 }) x.rowMap
    tent := es
    f := x.c + f
    t := x.c + f + d
    gen := x.gen + 1
    resv := .opened
    state := if x.state = .waitPage then .active else x.state }

/-- RESULT of a RESERVE (R173): GEN, rows popped, and C. -/
def reserveResult (gen : Half) (rows c : Nat) : Nat := gen.toNat + rows * 2 ^ 16 + c * 2 ^ 32

/-- A parked session's reservation is served: it takes effect, its counter is incremented, PAGE_READY is written, and it is
active again (R123). -/
def servePending (s : State) (n : Nat) (p : PendResv) (rows : List Nat) : State :=
  let s1 := openResv s n p.stack p.f p.d rows
  let s2 := match p.counter with
    | some l => counterAt s1 l
    | none => s1
  eventTo s2 (session s n).owner (session s n).owner 0x0004 n p.stack 0 0

/-- Serves the waiters of a pool from the head of its list, as far as the free rows reach; a waiter that they cannot satisfy
blocks those behind it (R123), and so does one whose pop its owner's row budget does not allow (R126; DESIGN CHOICE, log entry 50).
The list bounds the recursion. -/
def serveWaiters (s : State) (st : Nat) : List Nat → State
  | [] => s
  | n :: rest =>
    let x := session s n
    match x.resv with
    | .pending p =>
      let need := (entriesNeeded x p.f p.d).length
      if need ≤ (pool s st).free.length && rowRoom s x.owner st need then
        let r := popRows s st need
        let s1 := setPool r.1 st { pool r.1 st with wait := rest }
        let s2 := if needFill s1 st x.owner r.2 then setSession s1 n { session s1 n with resv := .filling { p with stack := st, rows := r.2 } }
          else servePending s1 n { p with stack := st } r.2
        serveWaiters s2 st rest
      else s
    | _ => serveWaiters (setPool s st { pool s st with wait := rest }) st rest

/-- After a return, the waiters of every pool that has some are served (R121, R123). -/
def serveAll (s : State) : State := (List.range 8).foldl (fun s st => serveWaiters s st (pool s st).wait) s

/-- Closes the reservation at a new cursor: the tentative rows at or above it go back in one splice (R127). -/
def closeResv (s : State) (n c : Nat) : State :=
  let x := session s n
  let cut := ceilDiv c (kvSpan x.net)
  let drop := x.tent.filter (fun j => cut ≤ j)
  let refs := (x.rowMap.filter (fun r => drop.contains r.1)).map (·.2)
  let x1 := { x with c := c, f := c, t := c, resv := .none, tent := [],
                     rowMap := x.rowMap.filter (fun r => !drop.contains r.1) }
  serveAll (freeRefs (setSession s n x1) refs)

/-- Drops a pending reservation: the session leaves the wait list, or gives back the rows whose fill was running (R127, R140). -/
def dropPending (s : State) (n : Nat) : State :=
  let x := session s n
  let st' := if x.state = .waitPage then SessState.active else x.state
  match x.resv with
  | .pending p =>
    let s1 := setSession s n { x with resv := .none, state := st' }
    serveAll (setPool s1 p.stack { pool s1 p.stack with wait := (pool s1 p.stack).wait.filter (· != n) })
  | .filling p =>
    serveAll (freeRows (setSession s n { x with resv := .none, state := st' }) p.stack p.rows)
  | _ => s

/-- Ends a session: its rows return to their pools and the entry is free (R141); nothing but a RESERVE changes the entry's GEN (R125). -/
def freeSession (s : State) (n : Nat) : State :=
  let x := session s n
  serveAll (freeRefs (setSession s n { gen := x.gen }) (x.rowMap.map (·.2)))

/-- Rolls back or drops whatever reservation a session has (R127, R140). -/
def abandonResv (s : State) (n : Nat) : State :=
  match (session s n).resv with
  | .none => s
  | .opened => closeResv s n (session s n).c
  | .pending _ => dropPending s n
  | .filling _ => dropPending s n

end Sys2Proof.Machine
end

