-- ==== Sys2Proof/Machine/Threads.lean ====
section
/-!
DEFINITION. Issue: sets, contexts, the scheduler's bookkeeping, splitting and repacking, convergence points and barriers
(R186 to R194). The spec gives no encodings and no branch instruction: a command names the set by one of its threads and says
where its threads go next (log entry 22).
-/

namespace Sys2Proof.Machine

/-- A thread that takes part in issue: it has not exited and does not wait (R187). -/
def issuable (g : Group) (t : Nat) : Bool := !(thread g t).exited && (thread g t).wait.isNone

/-- The context that holds a thread. -/
def ctxOf (x : Core) (slot t : Nat) : Option (Nat × Ctx) := x.ctxs.find? fun p => p.2.slot == slot && p.2.threads.contains t

/-- Addresses at which a context has sets. -/
def setPcs (g : Group) (k : Ctx) : List Nat := ((k.threads.filter (issuable g)).map fun t => (thread g t).pc).eraseDups

/-- The set of a context at an address (R187). -/
def setAt (g : Group) (k : Ctx) (pc : Nat) : List Nat := k.threads.filter fun t => issuable g t && (thread g t).pc == pc

/-- Merges two contexts into the lower-numbered; its own current thread and count stand (R191). -/
def mergeCtx (x : Core) (a b : Nat) : Core :=
  match x.ctxs.find? (fun p => p.1 == min a b), x.ctxs.find? (fun p => p.1 == max a b) with
  | some lo, some hi =>
    if a = b then x
    else
      let all := (List.range 64).filter fun t => lo.2.threads.contains t || hi.2.threads.contains t
      { x with ctxs := tput (tdel x.ctxs (max a b)) (min a b) { lo.2 with threads := all } }
  | _, _ => x

/-- At an issue opportunity of a thread's context, the group's contexts that hold a set at one of its addresses repack with it
(R191). -/
def repackAt (x : Core) (slot : Nat) (g : Group) (t : Nat) : Core :=
  (x.ctxs.map (·.1)).foldl (fun x j =>
    match ctxOf x slot t, x.ctxs.find? (fun p => p.1 == j) with
    | some (n, kn), some (_, kj) =>
      if kj.slot = slot && j ≠ n && (setPcs g kj).any (fun a => (setPcs g kn).contains a) then mergeCtx x n j else x
    | _, _ => x) x

/-- Where a thread of the set goes next. -/
def goesTo (i : Issue) (t : Nat) : Nat := match i.branch.find? (fun p => p.1 == t) with
  | some p => p.2
  | none => i.next

/-- The sets of a context in ascending lowest-thread order (R187). -/
def setsOf (g : Group) (k : Ctx) : List (List Nat) :=
  (setPcs g k).map (setAt g k)

/-- The sets of a list, of lowest threads ascending, in cyclic order after a thread. -/
def setsAfter (t : Nat) (l : List (List Nat)) : List (List Nat) :=
  l.filter (fun u => decide (t < u.headD 0)) ++ l.filter fun u => decide (u.headD 0 ≤ t)

/-- The set that a context's scheduler selects, with its current thread and count as it issues: the current set while its count is below 16,
else the next ready set in cyclic order (R187, R188). -/
def selectSet (g : Group) (k : Ctx) (ready : List Nat → Bool) : Option (List Nat × Nat × Nat) :=
  let sets := setsOf g k
  let cur := match sets.find? (·.contains k.cur) with
    | some u => some (u, k.cur, k.count)
    | none => (setsAfter k.cur sets).head?.map fun u => (u, u.headD 0, 0)
  match cur with
  | none => none
  | some (u, t, n) =>
    if ready u && n < 16 then some (u, t, n + 1)
    else ((setsAfter (u.headD 0) sets).find? ready).map fun v => (v, v.headD 0, 1)

/-- The set that a context would issue in this cycle; none while its group's launch stops. -/
def ctxSelects (s : State) (c : Nat) (x : Core) (stalled : List (Nat × Nat)) (n : Nat) : Option (List Nat × Nat × Nat) :=
  match x.ctxs.find? (fun p => p.1 == n) with
  | none => none
  | some (_, k) => match groupAt x k.slot, launchOf s c k.slot with
    | some g, some (_, l) => if l.stopping.isSome then none else selectSet g k fun u => !stalled.contains (n, u.headD 0)
    | _, _ => none

/-- The context that issues in this cycle: the first ready one in round-robin order after the one that issued last (R186). -/
def nextCtx (s : State) (c : Nat) (x : Core) (stalled : List (Nat × Nat)) : Option (Nat × List Nat × Nat × Nat) :=
  ((List.range 64).map fun k => (x.lastCtx + 1 + k) % 64).findSome? fun n => (ctxSelects s c x stalled n).map fun r => (n, r)

/-- The scheduler's bookkeeping for an issue by a set, with its new current thread and count (R186, R187, R190). -/
def schedule (x : Core) (g : Group) (n : Nat) (k : Ctx) (cur count : Nat) : Core :=
  { x with
    lastCtx := n
    cycles := x.cycles + 1
    ctxs := tput x.ctxs n { k with
      cur := cur
      count := count
      divergent := if 2 ≤ (setPcs g k).length then k.divergent + 1 else 0 } }

/-- The cluster of a core runs (R450, R451). -/
def clusterRuns (s : State) (c : Nat) : Bool := tget .pg s.power.clusters (c / 64) == ClusterPwr.run

/-- An issue: the threads of the set, when it is the one that the core selects and none of the registers `regs` is still to come (R186,
R187, R199, R450), with the state in which the scheduler has counted the issue. The threads' addresses do not move yet. -/
def tryIssue (s : State) (i : Issue) (regs : List Nat) : Option (List Nat × State) :=
  let c := i.core.val
  let slot := i.slot.val
  match launchOf s c slot, groupAt (coreAt s c) slot with
  | some (_, l), some g =>
    if l.stopping.isSome || !clusterRuns s c then none
    else
      let x0 := repackAt (coreAt s c) slot g i.lead.val
      match nextCtx s c x0 i.stalled with
      | none => none
      | some (n, set, cur, count) => match x0.ctxs.find? (fun p => p.1 == n) with
        | none => none
        | some (_, k) =>
          if k.slot = slot && set.contains i.lead.val && !set.any (fun t => regs.any (regPending x0 slot t)) then
            some (set, setCore s c (schedule x0 g n k cur count))
          else none
  | _, _ => none

/-- Moves the threads of a set to their next instructions. -/
def advancePc (s : State) (i : Issue) (set : List Nat) : State :=
  set.foldl (fun s t => modThread s i.core.val i.slot.val t fun x => { x with pc := goesTo i t }) s

/-- An instruction that acts on each active thread of its set on its own, in ascending thread order. -/
def perThread (s : State) (i : Issue) (regs : List Nat) (f : State → Nat → State) : State :=
  match tryIssue s i regs with
  | none => s
  | some (set, s1) => advancePc (set.foldl f s1) i set

/-- As `perThread`, where the instruction may issue only once every thread of the set is ready for it. -/
def perThreadWhen (s : State) (i : Issue) (regs : List Nat) (ok : State → Nat → Bool) (f : State → Nat → State) : State :=
  match tryIssue s i regs with
  | none => s
  | some (set, s1) => if set.all (ok s) then advancePc (set.foldl f s1) i set else s

/-! ### Convergence points (R192 to R194) -/

/-- Threads of a group that have not exited. -/
def alive (g : Group) : List Nat := (List.range 64).filter fun t => !(thread g t).exited

/-- Threads that wait at a point, at an address. -/
def waitingAt (g : Group) (w : WaitPoint) (pc : Nat) : List Nat :=
  (List.range 64).filter fun t => !(thread g t).exited && (thread g t).wait == some w && (thread g t).pc == pc

/-- Puts threads into one context, the lowest that holds one of them; contexts of the group left without a thread that has not exited are
free (R191, R192). -/
def gather (x : Core) (slot : Nat) (ts : List Nat) : Core :=
  match (x.ctxs.filter fun p => p.2.slot == slot && ts.any p.2.threads.contains).map (·.1), groupAt x slot with
  | n :: _, some g =>
    let moved := x.ctxs.map fun p =>
      if p.2.slot = slot then
        if p.1 = n then (p.1, { p.2 with threads := (List.range 64).filter fun t => p.2.threads.contains t || ts.contains t })
        else (p.1, { p.2 with threads := p.2.threads.filter fun t => !ts.contains t })
      else p
    { x with ctxs := moved.filter fun p => p.2.slot != slot || p.1 == n || p.2.threads.any fun t => !(thread g t).exited }
  | _, _ => x

/-- Threads go on past the instruction at which they waited; the group's watchdog starts again (R10, R197). -/
def wakeThreads (s : State) (c slot : Nat) (ts : List Nat) : State :=
  let s1 := ts.foldl (fun s t => modThread s c slot t fun x => { x with wait := none, pc := x.resume }) s
  match groupAt (coreAt s1 c) slot with
  | some g => setCore s1 c (setGroup (coreAt s1 c) slot { g with freed := some s.hubTime })
  | none => s1

/-- Releases threads: they form one set in one context, past the instruction. -/
def release (s : State) (c slot : Nat) (ts : List Nat) : State :=
  let s1 := wakeThreads s c slot ts
  setCore s1 c (gather (coreAt s1 c) slot ts)

/-- A fragment of registers of each thread of the group; an exited thread contributes the given word (R232). -/
def fragments (s : State) (c slot r n : Nat) (released : List Nat) (dead : Word) : List (List Word) :=
  (List.range 64).map fun t => (List.range n).map fun q => if released.contains t then rd s c slot t (r + q) else dead

/-- A matrix instruction may issue: the unit's queue is not full, and accepts no other instruction's operations still (R230). -/
def mtxRoom (x : Core) : Bool := x.mtxFeed.isEmpty && x.mtxQ.length < 4

/-- Operations enter the queue in order while it has a place (R230). -/
def mtxRefill (x : Core) : Core :=
  { x with mtxQ := x.mtxQ ++ x.mtxFeed.take (4 - x.mtxQ.length), mtxFeed := x.mtxFeed.drop (4 - x.mtxQ.length) }

/-- The operations of one instruction are given to the unit, in order. -/
def pushMtx (s : State) (c slot : Nat) (ops : List MtxOp) : State :=
  let (s1, q) := nextSeq s c
  let x := coreAt s1 c
  setCore s1 c (mtxRefill { x with mtxFeed := x.mtxFeed ++ ops.map fun o => { slot := slot, op := o, instr := q } })

/-- Operand class of a format code (R225): 0 16-bit, 1 8-bit float, 2 8-bit integer, 3 4-bit float, 4 4-bit integer, 5 none. -/
def mtxClass (f : Nat) : Nat := match f with
  | 0 => 0
  | 1 => 0
  | 2 => 1
  | 3 => 1
  | 4 => 3
  | 5 => 2
  | 6 => 4
  | _ => 5

/-- Whether a class takes E8M0 scales (R225, R233). -/
def mtxScales (f : Nat) : Bool := mtxClass f == 1 || mtxClass f == 3

/-- Formats of one class, none reserved (R225). -/
def mtxWellFormed (fa fb : Nat) : Bool := mtxClass fa ≠ 5 && mtxClass fa = mtxClass fb

/-- An instruction handled under R233. -/
def noteMalformed (s : State) (c : Nat) : State := bump s (dieReg (coreDie c) mtxMalformedCnt)

/-- Register operands beyond the threads' allocation, or scales with a class that takes none: the operation is performed all the same, and
the instruction is counted (R233). -/
def noteOdd (s : State) (c slot : Nat) (regs : List Nat) (scaled : Bool) (fa : Nat) : State :=
  let beyond := match groupAt (coreAt s c) slot with
    | some g => regs.any fun r => regCount (coreAt s c) g ≤ r
    | none => false
  if beyond || (scaled && !mtxScales fa) then noteMalformed s c else s

def regSpan (r n : Nat) : List Nat := (List.range n).map (r + ·)

/-- The C operand of a joint tile is the D of the operation just before it in the unit, of the same group (R230). -/
def chainsOn (x : Core) (slot c : Nat) : Bool :=
  match (mtxAll x).getLast? with
  | some e => e.slot == slot && (match e.op with
      | .joint _ _ d _ _ _ _ _ _ _ _ => d == c
      | _ => false)
  | none => false

/-- The instruction of a released convergence point, issued once (R192, R231 to R233, R237). -/
def releaseEffect (s : State) (c slot : Nat) (w : WaitPoint) (ts : List Nat) : State :=
  match w with
  | .mmaj fa fb d a b cc sa sb =>
    if mtxWellFormed fa fb then
      let one (r : Option Nat) : List Word := match r with
        | some r => (fragments s c slot r 1 ts 0x7F).map fun l => l.headD 0x7F
        | none => []
      let chained := ts.any fun t => (regSpan cc 16).any (regPending (coreAt s c) slot t)
      let op : MtxOp := .joint fa fb d cc (sa.isSome && sb.isSome) (fragments s c slot a 4 ts 0) (fragments s c slot b 4 ts 0)
        (if chained then [] else fragments s c slot cc 16 ts 0) (one sa) (one sb) ts
      noteOdd (pushMtx s c slot [op]) c slot (regSpan a 4 ++ regSpan b 4 ++ regSpan cc 16 ++ regSpan d 16 ++ sa.toList ++ sb.toList)
        (sa.isSome || sb.isSome) fa
    else noteMalformed s c
  | .mappend d desc rows =>
    let lead := ts.headD 0
    if (coreAt s c).intTiles.contains (slot, d) then noteMalformed s c
    else noteOdd (pushMtx s c slot [.append (fragments s c slot d 16 ts 0) ((List.range 4).map fun q => rd s c slot lead (desc + q)) rows lead])
      c slot (regSpan d 16 ++ regSpan desc 4) false 0
  | _ => s

/-- Whether a waiting point of a group is due for release, with the threads it releases: all that wait there (R192). A joint tile needs a
place in the unit, and its C to have come or to be the D of the operation just before it (R230). -/
def dueIn (x : Core) (g : Group) : Option (WaitPoint × List Nat) :=
  (alive g).findSome? fun t => match (thread g t).wait with
    | none => none
    | some w =>
      let here := waitingAt g w (thread g t).pc
      match w with
      | .bar => none
      | .ldwait => none
      | .converge mask => if (alive g).all (fun u => !bit mask u || here.contains u) then some (w, here) else none
      | .repack => if (alive g).all here.contains then some (w, here) else none
      | .mmaj _ _ _ _ _ _ _ _ => if (alive g).all here.contains && mtxRoom x then some (w, here) else none
      | .mappend _ _ _ => if (alive g).all here.contains && mtxRoom x then some (w, here) else none

/-- The C of a waiting joint tile is at hand: none of it is to come, or it chains on the operation just before (R230). -/
def chainReady (x : Core) (slot : Nat) : WaitPoint × List Nat → Bool
  | (.mmaj _ _ _ _ _ c _ _, ts) => chainsOn x slot c || !ts.any fun t => (regSpan c 16).any (regPending x slot t)
  | _ => true

/-- Releases the convergence points of a group that are due. The fuel bounds how many. -/
def releaseDue (s : State) (c slot : Nat) : Nat → State
  | 0 => s
  | fuel + 1 => match groupAt (coreAt s c) slot with
    | none => s
    | some g => match dueIn (coreAt s c) g with
      | none => s
      | some (w, ts) =>
        if chainReady (coreAt s c) slot (w, ts) then releaseDue (release (releaseEffect s c slot w ts) c slot ts) c slot fuel else s

/-- Releases the block barrier when every thread of the block that has not exited waits at a BAR (R193). -/
def releaseBar (s : State) (c slot : Nat) : State :=
  match launchOf s c slot with
  | none => s
  | some (b, _) =>
    let gs := b.slots.filterMap fun sl => (groupAt (coreAt s c) sl).map fun g => (sl, g)
    let all := gs.all fun p => (alive p.2).all fun t => (thread p.2 t).wait == some .bar
    let someone := gs.any fun p => !(alive p.2).isEmpty
    if all && someone then gs.foldl (fun s p => wakeThreads s c p.1 (alive p.2)) s else s

/-- Everything that an arrival or an exit may release (R194). -/
def releaseAll (s : State) (c slot : Nat) : State := releaseBar (releaseDue s c slot 64) c slot

/-- A set arrives at a convergence point or barrier and waits there (R192). -/
def arriveAt (s : State) (i : Issue) (regs : List Nat) (w : WaitPoint) (ok : State → Nat → Bool) : State :=
  match tryIssue s i regs with
  | none => s
  | some (set, s1) =>
    if set.all (ok s) then
      let s2 := set.foldl
        (fun s t => modThread s i.core.val i.slot.val t fun x => { x with wait := some w, resume := goesTo i t }) s1
      releaseAll s2 i.core.val i.slot.val
    else s

/-! ### Splitting (R190) -/

/-- Splits a context: the first set stays, each following set takes a free context until the group is in 4, the rest stay with
the last (R190). Threads that wait stay in the context. -/
def splitCtx (x : Core) (g : Group) (n : Nat) (k : Ctx) : Option Core :=
  let sets := setsOf g k
  let now := (x.ctxs.filter fun p => p.2.slot == k.slot).length
  let free := (List.range 64).filter fun j => !x.ctxs.any (fun p => p.1 == j)
  let want := min (sets.length - 1) (4 - now)
  if sets.length < 2 || 4 ≤ now || free.length < want then none
  else
    let tail := sets.drop 1
    let own := tail.take (want - 1)
    let last := (tail.drop (want - 1)).flatten
    let news := own ++ [(List.range 64).filter last.contains]
    let gone := news.flatten
    let x1 := { x with ctxs := tput x.ctxs n { k with threads := k.threads.filter (fun t => !gone.contains t), divergent := 0 } }
    some ((news.zip free).foldl (fun y p => { y with ctxs := tput y.ctxs p.2 { slot := k.slot, threads := p.1, cur := p.1.headD 0 } }) x1)

end Sys2Proof.Machine
end

