-- ==== Sys2Proof/Machine/Access.lean ====
section
/-!
DEFINITION. Thread accesses to local store and to memory: loads, stores, acquire and release, atomics, reductions, fences,
LDWAIT, CINV and the draining of the store queue (R180, R242 to R249, R257, R261, R262, R274, R279, R322).
-/

namespace Sys2Proof.Machine

/-! ### Local store (R179, R180, R248) -/

/-- The bank of a block that holds a local-store address, and the byte in it; none at or above the local-store size. -/
def lsPlace (b : Block) (a : Nat) : Option (Nat × Nat) := (b.banks[a / 65536]?).map fun k => (k, a % 65536)

/-- One byte of a block's local store; zero beyond its size (R180). -/
def lsByte (x : Core) (b : Block) (a : Nat) : Byte := match lsPlace b a with
  | some (k, o) => mget (tget {} x.banks k).bytes o
  | none => 0

def lsRead (x : Core) (b : Block) (a n : Nat) : List Byte := (List.range n).map fun k => lsByte x b (a + k)

/-- Writes bytes of local store; those beyond its size have no effect (R180). -/
def lsWrite (x : Core) (b : Block) (a : Nat) (bs : List Byte) : Core :=
  { x with
    intLs := x.intLs.filter fun p => !(p.1 == b.slots.headD 0 && p.2 < a + bs.length && a < p.2 + 4096)
    banks := (bs.zip (List.range bs.length)).foldl (fun t p => match lsPlace b (a + p.2) with
      | some (k, o) => tput t k { tget {} t k with bytes := mset (tget {} t k).bytes o p.1 }
      | none => t) x.banks }

/-- Local store of the block of a group. -/
def lsGet (s : State) (c slot a n : Nat) : List Byte := match launchOf s c slot with
  | some (b, _) => lsRead (coreAt s c) b a n
  | none => zeros n
def lsPut (s : State) (c slot a : Nat) (bs : List Byte) : State := match launchOf s c slot with
  | some (b, _) => setCore s c (lsWrite (coreAt s c) b a bs)
  | none => s

/-- An address with its bits below an alignment taken as zero (R262). -/
def alignDown (a z : Nat) : Nat := if z = 0 then a else a - a % z

/-- Registers of an operand of some bytes. -/
def regsFor (r size : Nat) : List Nat := (List.range ((size + 3) / 4)).map (r + ·)

/-! ### Order within a thread (R244, R245, R247) -/

/-- Outstanding accesses of a thread. -/
def accsOf (x : Core) (slot t : Nat) : List MemAcc := x.accs.filter fun a => a.slot == slot && a.lane == t
/-- Queued stores of a thread. -/
def storesOf (x : Core) (slot t : Nat) : List QueuedStore := x.storeQ.filter fun e => e.slot == slot && e.lane == t
/-- Writes that a thread has sent to other units and that have not arrived. -/
def postedOf (s : State) (c slot t : Nat) : List Posted := s.posted.filter fun p => p.core == c && p.slot == slot && p.lane == t

/-- The append writes of a tile (R237): row i at position POS_BASE + i. -/
def appendTags (desc : List Word) (rows : Nat) : List AppendTag :=
  let w (k : Nat) : Nat := (desc.getD k 0).toNat
  (List.range rows).map fun i =>
    { session := w 0 % 16384, gen := BitVec.ofNat 16 (w 0 / 65536), position := (w 1 + i) % 2 ^ 32, layer := w 2 % 256, head := bits (w 2) 8 8,
      kv := bits (w 2) 16 1, srcFormat := b2n (bits (w 0) 14 2 == 1), dimFirst := w 3 % 65536, count := 32 }

/-- The MAPPENDs and MAPPENDSs of a thread that are still in the matrix unit, as their append writes. -/
def unitAppends (x : Core) (slot t : Nat) : List AppendTag :=
  (mtxAll x).flatMap fun e => if e.slot = slot then (match e.op with
    | .append _ desc rows u => if u = t then appendTags desc rows else []
    | .appendS _ desc rows u => if u = t then appendTags desc rows else []
    | _ => []) else []

def isAcquire (a : MemAcc) : Bool := match a.op with
  | .load _ q => q
  | .atom _ _ _ q => q
  | _ => false

/-- A load or an atomic with a result; a reduction and a CINV count as stores (R244, R257, R279). -/
def returns (a : MemAcc) : Bool := match a.op with
  | .load _ _ => true
  | .atom _ _ _ _ => true
  | _ => false

/-- No acquire of the thread is outstanding: any access may follow (R244). -/
def acquired (s : State) (c slot t : Nat) : Bool := !(accsOf (coreAt s c) slot t).any isAcquire

/-- Every earlier load and atomic of the thread has returned (R244, before a store or an atomic). -/
def loadsDone (s : State) (c slot t : Nat) : Bool := !(accsOf (coreAt s c) slot t).any returns

/-- Every earlier access of the thread but its queued stores has been performed: visible at G and B (R245). -/
def forwardableAll (s : State) (c slot t : Nat) : Bool :=
  (accsOf (coreAt s c) slot t).isEmpty && (postedOf s c slot t).isEmpty && (unitAppends (coreAt s c) slot t).isEmpty

/-- Every earlier access of the thread has been performed: visible at D (R245). -/
def allDone (s : State) (c slot t : Nat) : Bool := forwardableAll s c slot t && (storesOf (coreAt s c) slot t).isEmpty

/-- Earlier accesses are visible at a scope (R245): at G and B a queued store is. -/
def visibleAt (s : State) (sc : Scope) (c slot t : Nat) : Bool := match sc with
  | .g => forwardableAll s c slot t
  | .b => forwardableAll s c slot t
  | .d => allDone s c slot t
  | .s => allDone s c slot t

/-- Whether two byte ranges meet. -/
def overlaps (a n b m : Nat) : Bool := a < b + m && b < a + n

/-- An outstanding access covers some of `n` bytes at a location. -/
def accMeets (a : MemAcc) (l : Loc) (n : Nat) : Bool := match l, a.host with
  | .dev d, none => overlaps a.dpa a.size d n
  | .host _ h _, some (.host _ k _) => overlaps k a.size h n
  | _, _ => false

/-- An append write of a tag covers some of `n` bytes at a location (R117, R130). -/
def tagMeets (s : State) (g : AppendTag) (l : Loc) (n : Nat) : Bool :=
  let x := session s g.session
  match l, elemAddr s x g.layer g.kv g.head g.position g.dimFirst with
  | .dev d, some a => overlaps a (g.count * kvElem x.net) d n
  | _, _ => false

def postedMeets (s : State) (p : Posted) (l : Loc) (n : Nat) : Bool := match p.what with
  | .append g _ _ => tagMeets s g l n
  | .merge _ _ _ => false

/-- An earlier access of the thread to one of `n` bytes at a location is still to be performed; queued stores are apart, since they are
forwardable (R243, R244). -/
def sameBytePending (s : State) (c slot t : Nat) (l : Loc) (n : Nat) : Bool :=
  (accsOf (coreAt s c) slot t).any (fun a => accMeets a l n) || (postedOf s c slot t).any (fun p => postedMeets s p l n)
    || (unitAppends (coreAt s c) slot t).any fun g => tagMeets s g l n

/-- A store of the thread to one of `n` bytes at a location is still queued. -/
def storeMeets (s : State) (c slot t : Nat) (l : Loc) (n : Nat) : Bool := match l with
  | .dev d => (storesOf (coreAt s c) slot t).any fun e => overlaps e.dpa e.bytes.length d n
  | .host _ _ _ => false

/-- Where an address of a thread lies, if it is translated. -/
def placeOf (s : State) (c slot va : Nat) : Option Loc := match launchOf s c slot with
  | some (_, l) => (xlateOk s (launchTag s l) va).map (·.loc)
  | none => none

/-- What a load at a place waits for (R244). -/
def loadReady (s : State) (c slot t va n : Nat) : Bool := acquired s c slot t && (match placeOf s c slot va with
  | some l => !sameBytePending s c slot t l n
  | none => true)

/-- What a store that leaves at once waits for: an atomic, a reduction, a CINV or a store to host memory (R244, R247). -/
def writeReady (s : State) (c slot t va n : Nat) : Bool := acquired s c slot t && loadsDone s c slot t && (match placeOf s c slot va with
  | some l => !sameBytePending s c slot t l n && !storeMeets s c slot t l n
  | none => true)

/-! ### Local-store accesses (R180, R248, R262) -/

/-- LDL: performed at issue; it follows the thread's acquires (R244). -/
def execLdl (i : Issue) (dst addr size : Nat) (s : State) : Host.Outcome State Fault Refusal := whenLive s <|
  let c := i.core.val
  let slot := i.slot.val
  .next (perThreadWhen s i (addr :: regsFor dst size) (fun s t => acquired s c slot t) fun s t =>
    wrMany s c slot t dst (leNat (lsGet s c slot (alignDown (rd s c slot t addr).toNat size) size)) ((size + 3) / 4))

/-- STL: performed at issue; it follows the thread's acquires and loads (R244). -/
def execStl (i : Issue) (addr src size : Nat) (s : State) : Host.Outcome State Fault Refusal := whenLive s <|
  let c := i.core.val
  let slot := i.slot.val
  .next (perThreadWhen s i (addr :: regsFor src size) (fun s t => acquired s c slot t && loadsDone s c slot t) fun s t =>
    lsPut s c slot (alignDown (rd s c slot t addr).toNat size) (rdBytes s c slot t src size))

/-! ### Translation and faults (R262, R320, R322) -/

/-- The launch of a thread stops with XLATE_FAULT (R262, R322); an address without a translation is recorded in the XLT block. -/
def threadFault (s : State) (c slot va : Nat) (misaligned : Bool) : State :=
  match launchOf s c slot with
  | none => s
  | some (_, l) =>
    let s1 := if misaligned then s else noteFault s (coreDie c) 0 (launchTag s l) va
    stopLaunch s1 c slot { status := stXlateFault, detail := if misaligned then 0xFFFE else 0xFFFF, result := va }

/-- Where an access of a thread goes, with the leaf that it goes through, or the state in which its launch stops. -/
inductive Aim where
  | dev (dpa : Nat) (leaf : Option TlbEntry)
  | host (fn addr : Nat) (pasid : Option Nat)
  | stop (s : State)

/-- Alignment, translation and permission of a thread's access to `size` bytes (R262, R320, R322). -/
def aim (s : State) (c slot va align size : Nat) (w : Bool) : Aim :=
  match launchOf s c slot with
  | none => .stop s
  | some (_, l) =>
    if va % align ≠ 0 then .stop (threadFault s c slot va true)
    else match xlate s (launchTag s l) va with
      | .ok x =>
        if (w && !x.w) || x.span < size then .stop (threadFault s c slot va false)
        else match x.loc with
          | .dev a => .dev a (leafAt s (launchTag s l) va)
          | .host f a p => .host f a p
      | .poisoned d => .stop (threadPoison s c slot d)
      | .none => .stop (threadFault s c slot va false)

/-- The walk that an access of a thread makes, with the root pointer that it reads (R313, R319). -/
def noteAim (s : State) (c slot va : Nat) : State := match launchOf s c slot with
  | some (_, l) => noteXlate s (coreDie c) (launchTag s l) va
  | none => s

/-- An access of a thread is outstanding. -/
def addAcc (s : State) (c : Nat) (a : MemAcc) : State :=
  let (s1, q) := nextSeq s c
  let x := coreAt s1 c
  setCore s1 c { x with accs := x.accs ++ [{ a with seq := q }] }

/-- Starts an access to device memory: performed in the L1 where a line or the store queue serves it, else asked of the home (R243, R274). -/
def startAcc (s : State) (c : Nat) (a : MemAcc) : State :=
  let q := (coreAt s c).nextSeq
  let b := { a with seq := q }
  let s1 := addAcc s c a
  let l := lineOf a.dpa
  let x := coreAt s1 c
  match a.op, l1Line x l with
  | .load d _, some y => performLoad s1 c b d (copyOf y true)
  | .load d _, none => if allForwarded x a.slot a.lane q a.dpa a.size then performLoad s1 c b d { bytes := zeros 128 } else kick s1 c l
  | .atom o v d _, some y => if y.m then performNear s1 c b o v d else kick s1 c l
  | _, _ => kick s1 c l

/-- A thread's access to some bytes: its walk, its faults, what it does in space that no agent reaches, and its start in device memory or
at the host (R253, R262, R288, R320, R322). -/
def access (s0 : State) (c slot t va align size : Nat) (w : Bool) (op : AccOp) (absent : State → State) : State :=
  let s := if va % align = 0 then noteAim s0 c slot va else s0
  match aim s c slot va align size w with
  | .stop s1 => s1
  | .host f a p => addAcc s c { slot := slot, lane := t, seq := 0, dpa := va, size := size, op := op, host := some (.host f a p), va := va }
  | .dev a leaf =>
    if reachable s a then startAcc s c { slot := slot, lane := t, seq := 0, dpa := a, size := size, op := op, va := va, leaf := leaf }
    else absent (noteUnpop s a)

/-! ### Loads (R242 to R244, R246, R255, R288) -/

/-- A load of one thread: from the store queue, from the L1, or on its way to the home or the host. -/
def loadThread (s : State) (c slot t dst addr size : Nat) (acq : Bool) : State :=
  access s c slot t (rd64 s c slot t addr) size size false (.load dst acq) fun s => wrMany s c slot t dst 0 ((size + 3) / 4)

/-- A load of a set (R189 order). -/
def loadRow (s : State) (i : Issue) (dst addr size : Nat) (acq : Bool) : State :=
  let c := i.core.val
  let slot := i.slot.val
  perThreadWhen s i (addr :: (addr + 1) :: regsFor dst size) (fun s t => loadReady s c slot t (rd64 s c slot t addr) size)
    fun s t => loadThread s c slot t dst addr size acq

/-- LD (R242 to R244). -/
def execLd (i : Issue) (dst addr size : Nat) (s : State) : Host.Outcome State Fault Refusal := whenLive s <| .next (loadRow s i dst addr size false)

/-- LD.ACQ (R244, R246): every scope acts alike on this device (R245). -/
def execLdAcq (i : Issue) (_sc : Scope) (dst addr size : Nat) (s : State) : Host.Outcome State Fault Refusal := whenLive s <|
  .next (loadRow s i dst addr size true)

/-! ### Stores (R243 to R246) -/

/-- A store of one thread: into the store queue, or posted on the link (R243, R252). -/
def storeThread (s0 : State) (c slot t addr src size : Nat) (rel : Option Scope) : State :=
  let va := rd64 s0 c slot t addr
  let s := if va % size = 0 then noteAim s0 c slot va else s0
  match aim s c slot va size size true with
  | .stop s1 => s1
  | .host f a _ => hostWrite s f a (rdBytes s c slot t src size)
  | .dev a leaf =>
    if !reachable s a then noteUnpop s a
    else
      let (s1, q) := nextSeq s c
      let x := coreAt s1 c
      setCore s1 c { x with storeQ := x.storeQ ++ [{ slot := slot, lane := t, seq := q, dpa := a, bytes := rdBytes s c slot t src size,
                                                     rel := rel, va := va, leaf := leaf }] }

/-- What a store waits for at issue: at the host, what a write there does, and a release what its scope asks; in device memory the queue
keeps the order, but for appends in the matrix unit (R244, R245). -/
def storeReady (s : State) (c slot t va size : Nat) (rel : Option Scope) : Bool :=
  acquired s c slot t && (match placeOf s c slot va with
    | some (.host f a p) => !sameBytePending s c slot t (.host f a p) size && (match rel with
        | some sc => visibleAt s sc c slot t
        | none => loadsDone s c slot t)
    | some (.dev a) => if rel.isSome then (unitAppends (coreAt s c) slot t).isEmpty
        else !(unitAppends (coreAt s c) slot t).any fun g => tagMeets s g (.dev a) size
    | none => true)

def storeRow (s : State) (i : Issue) (addr src size : Nat) (rel : Option Scope) : State :=
  let c := i.core.val
  let slot := i.slot.val
  perThreadWhen s i (addr :: (addr + 1) :: regsFor src size) (fun s t => storeReady s c slot t (rd64 s c slot t addr) size rel)
    fun s t => storeThread s c slot t addr src size rel

/-- ST (R243, R244). -/
def execSt (i : Issue) (addr src size : Nat) (s : State) : Host.Outcome State Fault Refusal := whenLive s <| .next (storeRow s i addr src size none)

/-- ST.REL (R245). -/
def execStRel (i : Issue) (sc : Scope) (addr src size : Nat) (s : State) : Host.Outcome State Fault Refusal := whenLive s <|
  .next (storeRow s i addr src size (some sc))

/-- The thread's earlier accesses allow a queued store to be performed (R244, R245): its loads and atomics have returned, and its writes to one
of the bytes are performed; a release finds every earlier access performed, at G and B all but queued stores. -/
def orderReady (s : State) (c : Nat) (e : QueuedStore) : Bool :=
  let x := coreAt s c
  let accs := (accsOf x e.slot e.lane).filter fun a => decide (a.seq < e.seq)
  let sent := (postedOf s c e.slot e.lane).filter fun p => decide (p.seq < e.seq)
  match e.rel with
  | none => !accs.any (fun a => returns a || accMeets a (.dev e.dpa) e.bytes.length)
      && !sent.any (fun p => postedMeets s p (.dev e.dpa) e.bytes.length)
  | some sc => accs.isEmpty && sent.isEmpty
      && (sc == .g || sc == .b || !(storesOf x e.slot e.lane).any fun f => decide (f.seq < e.seq))

/-- A queued store may be performed: no earlier store of the core to one of its bytes is queued, and its thread allows it (R243, R244). -/
def drainReady (s : State) (c : Nat) (e : QueuedStore) : Bool :=
  !(coreAt s c).storeQ.any (fun f => decide (f.seq < e.seq) && overlaps f.dpa f.bytes.length e.dpa e.bytes.length) && orderReady s c e

/-- The queued stores to a line cover all its bytes and may all be performed, in queue order: the drain asks for GETM_FULL (R268). -/
def coversLine (s : State) (c l : Nat) : Bool :=
  let es := (coreAt s c).storeQ.filter fun e => lineOf e.dpa == l
  (List.range 128).all (fun k => es.any fun e => e.dpa ≤ lineAddr l + k && lineAddr l + k < e.dpa + e.bytes.length)
    && es.all fun e => e.rel.isNone && orderReady s c e

/-- STORE_QUEUE_DRAIN (R243, R268): performed in an owned line, else the line is asked for in M. -/
def execStoreQueueDrain (c : CoreNo) (seq : Nat) (s : State) : Host.Outcome State Fault Refusal := whenLive s <|
  let x := coreAt s c.val
  match x.storeQ.find? (fun e => e.seq == seq) with
  | none => .next s
  | some e =>
    let l := lineOf e.dpa
    if drainReady s c.val e then
      match l1Line x l, (lineReq x l).isSome with
      | some y, busy =>
        if y.m then .next (performStore s c.val seq)
        else if busy then .next s
        else .next (askLine s c.val { line := l, kind := 1, seq := seq } .getM)
      | none, true => .next s
      | none, false =>
        if coversLine s c.val l then .next (askLine s c.val { line := l, kind := 2, seq := x.nextSeq - 1 } .getMFull)
        else .next (askLine s c.val { line := l, kind := 1, seq := seq } .getM)
    else .next s

/-! ### Fences (R244, R245) -/

/-- FENCE.sc: issues once the set's earlier accesses are visible at the scope (R244, R245). -/
def execThreadFence (i : Issue) (sc : Scope) (s : State) : Host.Outcome State Fault Refusal := whenLive s <|
  .next (perThreadWhen s i [] (fun s t => visibleAt s sc i.core.val i.slot.val t) fun s _ => s)

/-! ### Atomics and reductions (R247, R253, R274, R278, R279) -/

/-- An atomic of one thread (R274 to R278). -/
def atomThread (s : State) (c slot t : Nat) (op : AtomOp) (acq : Bool) (dst addr src size : Nat) : State :=
  let va := alignDown (rd64 s c slot t addr) size
  access s c slot t va size size true (.atom op (rdBytes s c slot t src (if op = .cas then 2 * size else size)) dst acq)
    fun s => wrMany s c slot t dst 0 ((size + 3) / 4)

/-- What an atomic or a CINV waits for, and for a release what its scope asks (R244, R245, R247). -/
def atomReady (s : State) (c slot t : Nat) (ord : AtomOrd) (sc : Scope) (va size : Nat) : Bool :=
  writeReady s c slot t va size && (if ord = .rel || ord = .ar then visibleAt s sc c slot t else true)

/-- ATOM (R189, R247, R274). A size that R278 does not give the operation spells no instruction: nothing happens. -/
def execAtom (i : Issue) (op : AtomOp) (ord : AtomOrd) (sc : Scope) (dst addr src size : Nat) (s : State) :
    Host.Outcome State Fault Refusal := whenLive s <|
  let c := i.core.val
  let slot := i.slot.val
  if (atomSizes op).contains size then
    .next (perThreadWhen s i (addr :: (addr + 1) :: (regsFor dst size ++ regsFor src (if op = .cas then 2 * size else size)))
      (fun s t => atomReady s c slot t ord sc (alignDown (rd64 s c slot t addr) size) size)
      fun s t => atomThread s c slot t op (ord == .acq || ord == .ar) dst addr src size)
  else .next s

/-- The alignment of a reduction (R279): its element size, and the largest power of two that divides its length. -/
def redAlign (f : RedFmt) (n : Nat) : Nat :=
  max (redSize f) (([2, 4, 8, 16, 32, 64, 128].filter fun k => n % k == 0).foldl max 1)

/-- A reduction of one thread (R279); one that crosses a line is misaligned (R262). -/
def redThread (s : State) (c slot t : Nat) (op : AtomOp) (f : RedFmt) (addr src n : Nat) : State :=
  let va := alignDown (rd64 s c slot t addr) (redAlign f n)
  if 128 < va % 128 + n then threadFault s c slot va true
  else access s c slot t va 1 n true (.red op f (rdBytes s c slot t src n)) id

/-- RED (R279). An operation, format or length that R279 does not give spells no instruction: nothing happens. -/
def execRed (i : Issue) (op : AtomOp) (f : RedFmt) (addr src n : Nat) (s : State) : Host.Outcome State Fault Refusal := whenLive s <|
  let c := i.core.val
  let slot := i.slot.val
  if redWf op f n then
    .next (perThreadWhen s i (addr :: (addr + 1) :: regsFor src n)
      (fun s t => atomReady s c slot t .rlx .g (alignDown (rd64 s c slot t addr) (redAlign f n)) n)
      fun s t => redThread s c slot t op f addr src n)
  else .next s

/-- An access of a thread to host memory is performed by the hub when its read completes (R252, R253, R322): an atomic or a reduction reads
and writes at one instant, after earlier ones to its bytes. -/
def performHost (s : State) (c : Nat) (a : MemAcc) (fn addr : Nat) : State :=
  let old := mread s.hostMem addr a.size
  let s1 := dropAcc s c a.seq
  match a.op with
  | .load d _ => wrMany s1 c a.slot a.lane d (leNat old) ((a.size + 3) / 4)
  | .atom op v d _ => wrMany (hostWrite s1 fn addr (atomBytes op a.size old v)) c a.slot a.lane d (leNat old) ((a.size + 3) / 4)
  | .red op f v => hostWrite s1 fn addr (redBytes op f (a.size / redSize f) old v)
  | .cinv => s1

/-! ### LDWAIT (R261) -/

/-- The value that an LDWAIT of a thread reads at a location. -/
def waitRead (s : State) (w : Waiter) : Loc → Nat
  | .dev a => waitValueAt s w a
  | .host _ a _ => leNat (mread s.hostMem a 8)

/-- One thread's LDWAIT: ends at once when the location is at least the value, else the thread waits. -/
def ldwaitThread (s0 : State) (i : Issue) (c slot t dst addr value : Nat) : State :=
  let va := rd64 s0 c slot t addr
  let v := rd64 s0 c slot t value
  let s := if va % 8 = 0 then noteAim s0 c slot va else s0
  let w : Waiter := .thread c slot t dst
  let go (s : State) (l : Loc) (leaf : Option TlbEntry) : State :=
    let x := waitRead s w l
    if v ≤ x then wrMany s c slot t dst x 2
    else
      let s1 := modThread s c slot t fun y => { y with wait := some .ldwait, resume := goesTo i t }
      { s1 with memWaits := s1.memWaits ++ [{ who := w, loc := l, cond := 0, value := v, seen := x, va := va, leaf := leaf }] }
  match aim s c slot va 8 8 false with
  | .stop s1 => s1
  | .host f a p => go s (.host f a p) none
  | .dev a leaf => if reachable s a then match poisonIn s a 8 with
      | some d => threadPoison s c slot d
      | none => go (touchRead s a 8) (.dev a) leaf
    else go (noteUnpop s a) (.dev a) leaf

/-- LDWAIT: an acquire load (R244, R261). -/
def execLdwait (i : Issue) (dst addr value : Nat) (s : State) : Host.Outcome State Fault Refusal := whenLive s <|
  let c := i.core.val
  let slot := i.slot.val
  .next (perThreadWhen s i (addr :: (addr + 1) :: value :: (value + 1) :: regsFor dst 8)
    (fun s t => loadReady s c slot t (rd64 s c slot t addr) 8) fun s t => ldwaitThread s i c slot t dst addr value)

/-- The wait of one thread's LDWAIT. -/
def ldwaitOf (s : State) (c slot t : Nat) : Option MemWait :=
  s.memWaits.find? fun w => match w.who with
    | .thread c' slot' t' _ => c' == c && slot' == slot && t' == t
    | .cmd _ _ => false

/-- LDWAIT_TIMEOUT: the last value read is written, whatever it is (R261). -/
def execLdwaitTimeout (c : CoreNo) (slot : Fin 32) (t : Fin 64) (s : State) : Host.Outcome State Fault Refusal := whenLive s <|
  match ldwaitOf s c.val slot.val t.val with
  | none => .next s
  | some w => .next (endWait s w w.seen)

/-- LDWAIT_HOST_POLL: an LDWAIT on host memory evaluates its condition again (R261). -/
def execLdwaitHostPoll (c : CoreNo) (slot : Fin 32) (t : Fin 64) (s : State) : Host.Outcome State Fault Refusal := whenLive s <|
  match ldwaitOf s c.val slot.val t.val with
  | none => .next s
  | some w => match w.loc with
    | .dev _ => .next s
    | .host _ _ _ =>
      let x := waitRead s w.who w.loc
      if w.value ≤ x then .next (endWait s w x)
      else .next { s with memWaits := s.memWaits.map fun m => if m.who == w.who then { m with seen := x } else m }

/-! ### CINV (R257) -/

/-- CINV of one thread, on the line that holds its address; host memory is held in no cache. -/
def cinvThread (s0 : State) (c slot t addr : Nat) : State :=
  let va := rd64 s0 c slot t addr
  let s := noteAim s0 c slot va
  match aim s c slot va 1 1 false with
  | .stop s1 => s1
  | .host _ _ _ => s
  | .dev a leaf =>
    if reachable s a then
      startAcc s c { slot := slot, lane := t, seq := 0, dpa := alignDown a 128, size := 128, op := .cinv, va := va, leaf := leaf }
    else noteUnpop s a

/-- CINV: a store to every byte of its line for R244, so it waits for the thread's earlier accesses to the line. -/
def execCinv (i : Issue) (addr : Nat) (s : State) : Host.Outcome State Fault Refusal := whenLive s <|
  let c := i.core.val
  let slot := i.slot.val
  .next (perThreadWhen s i [addr, addr + 1]
    (fun s t => atomReady s c slot t .rlx .g (alignDown (rd64 s c slot t addr) 128) 128)
    fun s t => cinvThread s c slot t addr)

end Sys2Proof.Machine
end

