-- ==== Sys2Proof/Machine/Arith.lean ====
section
/-!
DEFINITION. Vector arithmetic: floating-point and integer instructions, conversions, flags (R205 to R223). A floating-point value
lies in the low bits of one register, the bits above it written zero; a 64-bit integer lies in two registers, low word first
(log entry 23).
-/

namespace Sys2Proof.Machine

/-- The registers of an integer operand. -/
def intRegs (wide : Bool) (r : Nat) : List Nat := if wide then [r, r + 1] else [r]
def intWidthOf (wide : Bool) : Nat := if wide then 64 else 32
/-- An integer operand of a thread. -/
def rdInt (s : State) (c slot t r : Nat) (wide : Bool) : Nat := if wide then rd64 s c slot t r else (rd s c slot t r).toNat
def wrInt (s : State) (c slot t r v : Nat) (wide : Bool) : State := wrMany s c slot t r v (if wide then 2 else 1)

/-- A floating-point operand of a thread. -/
def rdFp (s : State) (c slot t r : Nat) (f : FpFmt) : Nat := (rd s c slot t r).toNat % 2 ^ fmtWidth f

/-- Writes a result and raises its flags (R222). -/
def putRes (s : State) (c slot t d n : Nat) (r : Nat × Nat) : State := raiseFlags (wrMany s c slot t d r.1 n) c slot t r.2

/-- An instruction whose result is one register computed from the thread's registers. -/
def fpRow (s : State) (i : Issue) (d : Nat) (srcs : List Nat) (f : State → Nat → Nat × Nat) : State :=
  perThread s i (d :: srcs) fun s t => putRes s i.core.val i.slot.val t d 1 (f s t)

/-- An integer instruction of one or two operands. -/
def intRow (s : State) (i : Issue) (wide : Bool) (d : Nat) (srcs : List Nat) (f : State → Nat → Nat × Nat) : State :=
  perThread s i (intRegs wide d ++ srcs) fun s t => putRes s i.core.val i.slot.val t d (if wide then 2 else 1) (f s t)

/-- The decoded operand of a floating-point instruction. -/
def opFp (s : State) (i : Issue) (t r : Nat) (f : FpFmt) : FVal := fdecode f (rdFp s i.core.val i.slot.val t r f)

/-! ### Floating point -/

/-- FMA: a × b + c rounded once (R207, R210). -/
def execFma (i : Issue) (f : FpFmt) (rm : Rm) (d a b c : Nat) (s : State) : Host.Outcome State Fault Refusal := whenLive s <|
  .next (fpRow s i d [a, b, c] fun s t => fmaVal f rm (opFp s i t a f) (opFp s i t b f) (opFp s i t c f))

/-- DIV (R210, R211). -/
def execFpDiv (i : Issue) (f : FpFmt) (rm : Rm) (d a b : Nat) (s : State) : Host.Outcome State Fault Refusal := whenLive s <|
  .next (fpRow s i d [a, b] fun s t => fdivVal f rm (opFp s i t a f) (opFp s i t b f))

/-- SQRT (R210, R211). -/
def execSqrt (i : Issue) (f : FpFmt) (rm : Rm) (d a : Nat) (s : State) : Host.Outcome State Fault Refusal := whenLive s <|
  .next (fpRow s i d [a] fun s t => fsqrtVal f rm (opFp s i t a f))

/-- RCP (R210, R211). -/
def execRcp (i : Issue) (f : FpFmt) (rm : Rm) (d a : Nat) (s : State) : Host.Outcome State Fault Refusal := whenLive s <|
  .next (fpRow s i d [a] fun s t => frcpVal f rm (opFp s i t a f))

/-- RSQRT (R210, R211). -/
def execRsqrt (i : Issue) (f : FpFmt) (rm : Rm) (d a : Nat) (s : State) : Host.Outcome State Fault Refusal := whenLive s <|
  .next (fpRow s i d [a] fun s t => frsqrtVal f rm (opFp s i t a f))

/-- EXP2 (R210, R211). -/
def execExp2 (i : Issue) (f : FpFmt) (rm : Rm) (d a : Nat) (s : State) : Host.Outcome State Fault Refusal := whenLive s <|
  .next (fpRow s i d [a] fun s t => fexp2Val f rm (opFp s i t a f))

/-- LOG2 (R210, R211). -/
def execLog2 (i : Issue) (f : FpFmt) (rm : Rm) (d a : Nat) (s : State) : Host.Outcome State Fault Refusal := whenLive s <|
  .next (fpRow s i d [a] fun s t => flog2Val f rm (opFp s i t a f))

/-- MIN: minimumNumber (R212). -/
def execFpMin (i : Issue) (f : FpFmt) (d a b : Nat) (s : State) : Host.Outcome State Fault Refusal := whenLive s <|
  .next (fpRow s i d [a, b] fun s t => minMaxVal f false (rdFp s i.core.val i.slot.val t a f) (rdFp s i.core.val i.slot.val t b f))

/-- MAX: maximumNumber (R212). -/
def execFpMax (i : Issue) (f : FpFmt) (d a b : Nat) (s : State) : Host.Outcome State Fault Refusal := whenLive s <|
  .next (fpRow s i d [a, b] fun s t => minMaxVal f true (rdFp s i.core.val i.slot.val t a f) (rdFp s i.core.val i.slot.val t b f))

/-- EQ, NE, LT, LE, GT, GE: 1 for true, 0 for false (R212). -/
def execFpCompare (i : Issue) (f : FpFmt) (k : FpCmp) (d a b : Nat) (s : State) : Host.Outcome State Fault Refusal := whenLive s <|
  .next (fpRow s i d [a, b] fun s t =>
    let r := cmpVal k (opFp s i t a f) (opFp s i t b f)
    (b2n r.1, r.2))

/-- Conversion between floating-point formats (R213). -/
def execFpConvert (i : Issue) (to_ src : FpFmt) (rm : Rm) (sat : Bool) (d a : Nat) (s : State) : Host.Outcome State Fault Refusal := whenLive s <|
  .next (fpRow s i d [a] fun s t => convVal to_ rm sat (opFp s i t a src) 0)

/-- Conversion to an integer format (R214). -/
def execConvertToInteger (i : Issue) (to_ : IntTy) (src : FpFmt) (rm : Rm) (d a : Nat) (s : State) : Host.Outcome State Fault Refusal := whenLive s <|
  .next (intRow s i (intWidth to_ == 64) d [a] fun s t => toIntVal to_ rm (opFp s i t a src))

/-- Conversion from an integer format (R215). -/
def execConvertFromInteger (i : Issue) (to_ : FpFmt) (src : IntTy) (rm : Rm) (sat : Bool) (d a : Nat) (s : State) :
    Host.Outcome State Fault Refusal := whenLive s <|
  .next (fpRow s i d (intRegs (intWidth src == 64) a) fun s t =>
    fromIntVal to_ rm sat (ival (intSigned src) (intWidth src) (rdInt s i.core.val i.slot.val t a (intWidth src == 64))))

/-- A scaled element conversion; the scale is in bits [7:0] of its register (R216). -/
def execScaledConvert (i : Issue) (to_ src : FpFmt) (rm : Rm) (sat : Bool) (d a x : Nat) (s : State) : Host.Outcome State Fault Refusal := whenLive s <|
  .next (fpRow s i d [a, x] fun s t => scaledConvVal to_ rm sat (opFp s i t a src) ((rd s i.core.val i.slot.val t x).toNat % 256))

/-- The bytes of a block's elements: one byte each, or two E2M1 elements to a byte, the even one low (R217). -/
def packElems (f : FpFmt) : List Nat → List Byte
  | a :: b :: rest => if f = .e2m1 then BitVec.ofNat 8 (a + 16 * b) :: packElems f rest
      else BitVec.ofNat 8 a :: BitVec.ofNat 8 b :: packElems f rest
  | [a] => [BitVec.ofNat 8 a]
  | [] => []

/-- QMX (R217): the three registers hold local-store addresses of the source, the elements and the scale. -/
def execQmx (i : Issue) (f : FpFmt) (rm : Rm) (src elems scale : Nat) (s : State) : Host.Outcome State Fault Refusal := whenLive s <|
  let c := i.core.val
  let slot := i.slot.val
  .next (perThread s i [src, elems, scale] fun s t =>
    let bs := lsGet s c slot (alignDown (rd s c slot t src).toNat 16) 128
    let vs := (List.range 32).map fun k => fdecode .fp32 (field bs (4 * k) 4)
    let r := qmxVal f rm vs
    let s1 := lsPut s c slot (alignDown (rd s c slot t elems).toNat (if f = .e2m1 then 16 else 32)) (packElems f r.2.1)
    raiseFlags (lsPut s1 c slot (rd s c slot t scale).toNat [BitVec.ofNat 8 r.1]) c slot t r.2.2)

/-! ### Integers -/

/-- ADD (R218). -/
def execIntAdd (i : Issue) (wide : Bool) (d a b : Nat) (s : State) : Host.Outcome State Fault Refusal := whenLive s <|
  let c := i.core.val
  let slot := i.slot.val
  let w := intWidthOf wide
  .next (intRow s i wide d (intRegs wide a ++ intRegs wide b) fun s t =>
    let x := rdInt s c slot t a wide
    let y := rdInt s c slot t b wide
    ((x + y) % 2 ^ w, 0))

/-- SUB (R218). -/
def execIntSub (i : Issue) (wide : Bool) (d a b : Nat) (s : State) : Host.Outcome State Fault Refusal := whenLive s <|
  let c := i.core.val
  let slot := i.slot.val
  let w := intWidthOf wide
  .next (intRow s i wide d (intRegs wide a ++ intRegs wide b) fun s t =>
    let x := rdInt s c slot t a wide
    let y := rdInt s c slot t b wide
    ((x + 2 ^ w - y) % 2 ^ w, 0))

/-- MUL, the low word (R218). -/
def execIntMul (i : Issue) (wide : Bool) (d a b : Nat) (s : State) : Host.Outcome State Fault Refusal := whenLive s <|
  let c := i.core.val
  let slot := i.slot.val
  let w := intWidthOf wide
  .next (intRow s i wide d (intRegs wide a ++ intRegs wide b) fun s t =>
    let x := rdInt s c slot t a wide
    let y := rdInt s c slot t b wide
    (x * y % 2 ^ w, 0))

/-- NEG (R218). -/
def execIntNeg (i : Issue) (wide : Bool) (d a : Nat) (s : State) : Host.Outcome State Fault Refusal := whenLive s <|
  let c := i.core.val
  let slot := i.slot.val
  let w := intWidthOf wide
  .next (intRow s i wide d (intRegs wide a) fun s t =>
    let x := rdInt s c slot t a wide
    ((2 ^ w - x) % 2 ^ w, 0))

/-- ABS (R218). -/
def execIntAbs (i : Issue) (wide : Bool) (d a : Nat) (s : State) : Host.Outcome State Fault Refusal := whenLive s <|
  let c := i.core.val
  let slot := i.slot.val
  let w := intWidthOf wide
  .next (intRow s i wide d (intRegs wide a) fun s t =>
    let x := rdInt s c slot t a wide
    ((if sval w x < 0 then 2 ^ w - x else x) % 2 ^ w, 0))

/-- MULHI, the upper word (R218). -/
def execMulhi (i : Issue) (wide sg : Bool) (d a b : Nat) (s : State) : Host.Outcome State Fault Refusal := whenLive s <|
  let c := i.core.val
  let slot := i.slot.val
  let w := intWidthOf wide
  .next (intRow s i wide d (intRegs wide a ++ intRegs wide b) fun s t =>
    let x := rdInt s c slot t a wide
    let y := rdInt s c slot t b wide
    (wrap w (ival sg w x * ival sg w y / 2 ^ w), 0))

/-- DIV (R219). -/
def execIntDiv (i : Issue) (wide sg : Bool) (d a b : Nat) (s : State) : Host.Outcome State Fault Refusal := whenLive s <|
  let c := i.core.val
  let slot := i.slot.val
  let w := intWidthOf wide
  .next (intRow s i wide d (intRegs wide a ++ intRegs wide b) fun s t =>
    let x := rdInt s c slot t a wide
    let y := rdInt s c slot t b wide
    intDivVal sg false w x y)

/-- REM (R219). -/
def execRem (i : Issue) (wide sg : Bool) (d a b : Nat) (s : State) : Host.Outcome State Fault Refusal := whenLive s <|
  let c := i.core.val
  let slot := i.slot.val
  let w := intWidthOf wide
  .next (intRow s i wide d (intRegs wide a ++ intRegs wide b) fun s t =>
    let x := rdInt s c slot t a wide
    let y := rdInt s c slot t b wide
    intRemVal sg w x y)

/-- SHL (R220). -/
def execShl (i : Issue) (wide : Bool) (d a b : Nat) (s : State) : Host.Outcome State Fault Refusal := whenLive s <|
  let c := i.core.val
  let slot := i.slot.val
  let w := intWidthOf wide
  .next (intRow s i wide d (intRegs wide a ++ [b]) fun s t =>
    let x := rdInt s c slot t a wide
    let y := (rd s c slot t b).toNat
    (shlVal w x y, 0))

/-- SHR (R220). -/
def execShr (i : Issue) (wide : Bool) (d a b : Nat) (s : State) : Host.Outcome State Fault Refusal := whenLive s <|
  let c := i.core.val
  let slot := i.slot.val
  let w := intWidthOf wide
  .next (intRow s i wide d (intRegs wide a ++ [b]) fun s t =>
    let x := rdInt s c slot t a wide
    let y := (rd s c slot t b).toNat
    (shrVal w x y, 0))

/-- SAR (R220). -/
def execSar (i : Issue) (wide : Bool) (d a b : Nat) (s : State) : Host.Outcome State Fault Refusal := whenLive s <|
  let c := i.core.val
  let slot := i.slot.val
  let w := intWidthOf wide
  .next (intRow s i wide d (intRegs wide a ++ [b]) fun s t =>
    let x := rdInt s c slot t a wide
    let y := (rd s c slot t b).toNat
    (sarVal w x y, 0))

/-- ROL (R220). -/
def execRol (i : Issue) (wide : Bool) (d a b : Nat) (s : State) : Host.Outcome State Fault Refusal := whenLive s <|
  let c := i.core.val
  let slot := i.slot.val
  let w := intWidthOf wide
  .next (intRow s i wide d (intRegs wide a ++ [b]) fun s t =>
    let x := rdInt s c slot t a wide
    let y := (rd s c slot t b).toNat
    (rolVal w x y, 0))

/-- ROR (R220). -/
def execRor (i : Issue) (wide : Bool) (d a b : Nat) (s : State) : Host.Outcome State Fault Refusal := whenLive s <|
  let c := i.core.val
  let slot := i.slot.val
  let w := intWidthOf wide
  .next (intRow s i wide d (intRegs wide a ++ [b]) fun s t =>
    let x := rdInt s c slot t a wide
    let y := (rd s c slot t b).toNat
    (rorVal w x y, 0))

/-- CLZ (R220). -/
def execClz (i : Issue) (wide : Bool) (d a : Nat) (s : State) : Host.Outcome State Fault Refusal := whenLive s <|
  let c := i.core.val
  let slot := i.slot.val
  let w := intWidthOf wide
  .next (intRow s i wide d (intRegs wide a) fun s t =>
    let x := rdInt s c slot t a wide
    (clzVal w x, 0))

/-- CTZ (R220). -/
def execCtz (i : Issue) (wide : Bool) (d a : Nat) (s : State) : Host.Outcome State Fault Refusal := whenLive s <|
  let c := i.core.val
  let slot := i.slot.val
  let w := intWidthOf wide
  .next (intRow s i wide d (intRegs wide a) fun s t =>
    let x := rdInt s c slot t a wide
    (ctzVal w x, 0))

/-- ADD.SAT (R221). -/
def execAddSat (i : Issue) (wide sg : Bool) (d a b : Nat) (s : State) : Host.Outcome State Fault Refusal := whenLive s <|
  let c := i.core.val
  let slot := i.slot.val
  let w := intWidthOf wide
  .next (intRow s i wide d (intRegs wide a ++ intRegs wide b) fun s t =>
    let x := rdInt s c slot t a wide
    let y := rdInt s c slot t b wide
    saturate sg w (ival sg w x + ival sg w y))

/-- SUB.SAT (R221). -/
def execSubSat (i : Issue) (wide sg : Bool) (d a b : Nat) (s : State) : Host.Outcome State Fault Refusal := whenLive s <|
  let c := i.core.val
  let slot := i.slot.val
  let w := intWidthOf wide
  .next (intRow s i wide d (intRegs wide a ++ intRegs wide b) fun s t =>
    let x := rdInt s c slot t a wide
    let y := rdInt s c slot t b wide
    saturate sg w (ival sg w x - ival sg w y))

/-- MUL.SAT (R221). -/
def execMulSat (i : Issue) (wide sg : Bool) (d a b : Nat) (s : State) : Host.Outcome State Fault Refusal := whenLive s <|
  let c := i.core.val
  let slot := i.slot.val
  let w := intWidthOf wide
  .next (intRow s i wide d (intRegs wide a ++ intRegs wide b) fun s t =>
    let x := rdInt s c slot t a wide
    let y := rdInt s c slot t b wide
    saturate sg w (ival sg w x * ival sg w y))

/-- NEG.SAT (R221). -/
def execNegSat (i : Issue) (wide sg : Bool) (d a : Nat) (s : State) : Host.Outcome State Fault Refusal := whenLive s <|
  let c := i.core.val
  let slot := i.slot.val
  let w := intWidthOf wide
  .next (intRow s i wide d (intRegs wide a) fun s t =>
    let x := rdInt s c slot t a wide
    saturate sg w (-(ival sg w x)))

/-- ABS.SAT (R221). -/
def execAbsSat (i : Issue) (wide sg : Bool) (d a : Nat) (s : State) : Host.Outcome State Fault Refusal := whenLive s <|
  let c := i.core.val
  let slot := i.slot.val
  let w := intWidthOf wide
  .next (intRow s i wide d (intRegs wide a) fun s t =>
    let x := rdInt s c slot t a wide
    saturate sg w (ival sg w x).natAbs)

/-- DIV.SAT (R219). -/
def execDivSat (i : Issue) (wide sg : Bool) (d a b : Nat) (s : State) : Host.Outcome State Fault Refusal := whenLive s <|
  let c := i.core.val
  let slot := i.slot.val
  let w := intWidthOf wide
  .next (intRow s i wide d (intRegs wide a ++ intRegs wide b) fun s t =>
    let x := rdInt s c slot t a wide
    let y := rdInt s c slot t b wide
    intDivVal sg true w x y)

/-! ### Special registers and flags (R185, R222, R223) -/

/-- CLRFLAGS: clears the flags of its mask that earlier instructions raised (R223). -/
def execClrflags (i : Issue) (mask : BitVec 7) (s : State) : Host.Outcome State Fault Refusal := whenLive s <|
  .next (perThread s i [] fun s t => modThread s i.core.val i.slot.val t fun x => { x with flags := x.flags - (x.flags &&& mask.toNat) })

/-- The value of a special register of a thread (R185, R222). -/
def specialVal (s : State) (c slot t : Nat) (b : Block) (l : Launch) : SpecialReg → Nat
  | .lane => t
  | .group => match groupAt (coreAt s c) slot with
    | some g => g.index
    | none => 0
  | .block => b.index
  | .nblocks => l.blocks
  | .core => c
  | .param => l.param
  | .cycles => ((coreAt s c).cycles - b.start) % 2 ^ 64
  | .flags => match groupAt (coreAt s c) slot with
    | some g => (thread g t).flags
    | none => 0

/-- SR_PARAM and SR_CYCLES are 64 bits wide. -/
def specialWords : SpecialReg → Nat
  | .param => 2
  | .cycles => 2
  | _ => 1

/-- Core cycles that the commands do not show have passed: a free number of them (log entry 24). -/
def passCycles (s : State) (c : Nat) : State :=
  let (s1, n) := takeFree s
  setCore s1 c { coreAt s1 c with cycles := (coreAt s1 c).cycles + n }

/-- RDSR (R185, R223). A read of SR_CYCLES finds the cycles since the block's start: one for each issue, and those that pass between. -/
def execRdsr (i : Issue) (sr : SpecialReg) (d : Nat) (s : State) : Host.Outcome State Fault Refusal := whenLive s <|
  let c := i.core.val
  let slot := i.slot.val
  match tryIssue s i ((List.range (specialWords sr)).map (d + ·)) with
  | none => .next s
  | some (set, s1) =>
    let s2 := if sr = .cycles then passCycles s1 c else s1
    .next (advancePc (set.foldl (fun s t => match launchOf s c slot with
      | none => s
      | some (b, l) => wrMany s c slot t d (specialVal s c slot t b l sr) (specialWords sr)) s2) i set)

end Sys2Proof.Machine
end

