-- ==== Sys2Proof/Machine/Crypto.lean ====
section
/-!
DEFINITION. The digests, checksums and signature check that the spec names: SHA-256 and ECDSA P-256 (R93, R94, R471, R472, R481),
CRC-32 of IEEE 802.3 (R473, R488) and the Cleat CRC-16 (R508).
-/

namespace Sys2Proof.Machine

/-! ### SHA-256 -/

/-- The integer part of the square root, by Newton's steps; the fuel bounds them. -/
def shaSqrt (n : Nat) : Nat → Nat → Nat
  | 0, x => x
  | fuel + 1, x => let y := (x + n / x) / 2; if y < x then shaSqrt n fuel y else x

/-- The integer part of the cube root, by bits from the highest. -/
def shaCbrt (n : Nat) : Nat → Nat → Nat
  | 0, x => x
  | k + 1, x => let y := x + 2 ^ k; if y * y * y ≤ n then shaCbrt n k y else shaCbrt n k x

/-- The first 64 primes. -/
def primes64 : List Nat :=
  [2, 3, 5, 7, 11, 13, 17, 19, 23, 29, 31, 37, 41, 43, 47, 53, 59, 61, 67, 71, 73, 79, 83, 89, 97, 101, 103, 107, 109,
   113, 127, 131, 137, 139, 149, 151, 157, 163, 167, 173, 179, 181, 191, 193, 197, 199, 211, 223, 227, 229, 233, 239,
   241, 251, 257, 263, 269, 271, 277, 281, 283, 293, 307, 311]

/-- Round constants: the first 32 fraction bits of the cube roots of the first 64 primes. -/
def shaK : List Nat := primes64.map fun p => shaCbrt (p * 2 ^ 96) 40 0 % 2 ^ 32
/-- Initial hash: the first 32 fraction bits of the square roots of the first 8 primes. -/
def shaH0 : List Nat := (primes64.take 8).map fun p => shaSqrt (p * 2 ^ 64) 200 (2 ^ 40) % 2 ^ 32

def rotr32 (x n : Nat) : Nat := x / 2 ^ n + x % 2 ^ n * 2 ^ (32 - n)

/-- The value of bytes, most significant first. -/
def beNat (bs : List Byte) : Nat := bs.foldl (fun a b => a * 256 + b.toNat) 0
/-- `n` bytes of a value, most significant first. -/
def beBytes (n x : Nat) : List Byte := (leBytes n x).reverse

/-- The message schedule, newest word first: `n` further words. -/
def shaExtend : Nat → List Nat → List Nat
  | 0, w => w
  | n + 1, w =>
    let a := w.getD 14 0
    let b := w.getD 1 0
    let s0 := rotr32 a 7 ^^^ rotr32 a 18 ^^^ a / 2 ^ 3
    let s1 := rotr32 b 17 ^^^ rotr32 b 19 ^^^ b / 2 ^ 10
    shaExtend n ((w.getD 15 0 + s0 + w.getD 6 0 + s1) % 2 ^ 32 :: w)

/-- One round on the eight working values. -/
def shaRound (v : List Nat) (kw : Nat) : List Nat := match v with
  | [a, b, c, d, e, f, g, h] =>
    let t1 := h + (rotr32 e 6 ^^^ rotr32 e 11 ^^^ rotr32 e 25) + ((e &&& f) ^^^ ((2 ^ 32 - 1 - e) &&& g)) + kw
    let t2 := (rotr32 a 2 ^^^ rotr32 a 13 ^^^ rotr32 a 22) + ((a &&& b) ^^^ (a &&& c) ^^^ (b &&& c))
    [(t1 + t2) % 2 ^ 32, a, b, c, (d + t1) % 2 ^ 32, e, f, g]
  | _ => v

/-- One block of 64 bytes. -/
def shaBlock (h : List Nat) (bs : List Byte) : List Nat :=
  let w0 := ((List.range 16).map fun i => beNat ((bs.drop (4 * i)).take 4)).reverse
  let w := (shaExtend 48 w0).reverse
  let v := ((shaK.zip w).map fun p => p.1 + p.2).foldl shaRound h
  (h.zip v).map fun p => (p.1 + p.2) % 2 ^ 32

/-- The blocks of a padded message; the fuel is their number. -/
def shaBlocks : Nat → List Nat → List Byte → List Nat
  | 0, h, _ => h
  | n + 1, h, bs => shaBlocks n (shaBlock h (bs.take 64)) (bs.drop 64)

/-- SHA-256. -/
def sha256 (bs : List Byte) : List Byte :=
  let n := bs.length
  let m := bs ++ [0x80] ++ zeros ((119 - n % 64) % 64) ++ beBytes 8 (8 * n)
  (shaBlocks (m.length / 64) shaH0 m).flatMap (beBytes 4)

/-! ### ECDSA over P-256 -/

def p256P : Nat := 2 ^ 256 - 2 ^ 224 + 2 ^ 192 + 2 ^ 96 - 1
def p256N : Nat := 0xFFFFFFFF00000000FFFFFFFFFFFFFFFFBCE6FAADA7179E84F3B9CAC2FC632551
def p256B : Nat := 0x5AC635D8AA3A93E7B3EBBD55769886BC651D06B0CC53B0F63BCE3C3E27D2604B
def p256G : Nat × Nat :=
  (0x6B17D1F2E12C4247F8BCE6E563A440F277037D812DEB33A0F4A13945D898C296,
   0x4FE342E2FE1A7F9B8EE7EB4A7C0F9E162BCE33576B315ECECBB6406837BF51F5)

/-- a^e modulo m, by the `k` low bits of e. -/
def powMod (a m : Nat) : Nat → Nat → Nat
  | 0, _ => 1
  | k + 1, e => let r := powMod (a * a % m) m k (e / 2); if e % 2 = 1 then r * a % m else r

/-- The inverse modulo a prime. -/
def invMod (a m : Nat) : Nat := powMod (a % m) m 256 (m - 2)

/-- A point; none is the point at infinity. -/
def p256Add (x y : Option (Nat × Nat)) : Option (Nat × Nat) :=
  let p := p256P
  match x, y with
  | none, _ => y
  | _, none => x
  | some (x1, y1), some (x2, y2) =>
    if x1 = x2 && (y1 + y2) % p = 0 then none
    else
      let l := if x1 = x2 then (3 * x1 * x1 + (p - 3)) * invMod (2 * y1) p % p
        else (y2 + p - y1) * invMod (x2 + p - x1) p % p
      let x3 := (l * l + 2 * p - x1 - x2) % p
      some (x3, (l * (x1 + p - x3) + p - y1) % p)

/-- e times a point, by the `k` low bits of e. -/
def p256Mul (q : Option (Nat × Nat)) : Nat → Nat → Option (Nat × Nat)
  | 0, _ => none
  | k + 1, e => let r := p256Mul (p256Add q q) k (e / 2); if e % 2 = 1 then p256Add r q else r

/-- Whether (r, s) signs a digest under a public key: 64 bytes each, big-endian (R93, R471). -/
def ecdsaOk (key sig digest : List Byte) : Bool :=
  let x := beNat (key.take 32)
  let y := beNat (key.drop 32)
  let r := beNat (sig.take 32)
  let s := beNat (sig.drop 32)
  let p := p256P
  let n := p256N
  x < p && y < p && y * y % p = (x * x * x + (p - 3) * x + p256B) % p && 0 < r && r < n && 0 < s && s < n
    && (let w := invMod s n
        match p256Add (p256Mul (some p256G) 256 (beNat digest * w % n)) (p256Mul (some (x, y)) 256 (r * w % n)) with
        | some q => q.1 % n == r
        | none => false)

/-! ### Checksums -/

/-- One bit of the reflected CRC-32. -/
def crc32Step (c : Nat) : Nat := if c % 2 = 1 then c / 2 ^^^ 0xEDB88320 else c / 2

/-- CRC-32 as IEEE 802.3 defines it (R473). -/
def crc32 (bs : List Byte) : Nat :=
  (bs.foldl (fun c b => (List.range 8).foldl (fun c _ => crc32Step c) (c ^^^ b.toNat)) (2 ^ 32 - 1)) ^^^ (2 ^ 32 - 1)

/-- One bit of the Cleat CRC. -/
def crc16Step (c : Nat) : Nat := if 2 ^ 15 ≤ c then (c * 2 % 2 ^ 16) ^^^ 0x1021 else c * 2

/-- CRC-16, polynomial 0x1021, initial value 0xFFFF, neither reflected nor inverted (R508). -/
def crc16 (bs : List Byte) : Nat :=
  bs.foldl (fun c b => (List.range 8).foldl (fun c _ => crc16Step c) (c ^^^ b.toNat * 256)) 0xFFFF

end Sys2Proof.Machine
end

