-- ==== Sys2Proof/Machine/Flash.lean ====
section
/-!
DEFINITION. The settings flash: its bytes, the layers, boot records, firmware banks, write-once records and retirement lists that
it holds, and how PCF writes them (R303, R471 to R475, R481 to R489).
-/

namespace Sys2Proof.Machine

/-! ### Bytes -/

/-- One byte of the flash; an unlisted byte reads as erased. -/
def flashByte (s : State) (a : Nat) : Byte := tget 0xFF s.flash.bytes a
/-- `n` bytes of the flash. -/
def flashRead (s : State) (a n : Nat) : List Byte := (List.range n).map fun i => flashByte s (a + i)
def setFlash (s : State) (t : Tab Byte) : State := { s with flash := { s.flash with bytes := t } }

/-- Programs bytes: bits can only be cleared (R493). -/
def flashProgram (s : State) (a : Nat) (bs : List Byte) : State :=
  setFlash s ((bs.zip (List.range bs.length)).foldl (fun t p =>
    let b := tget 0xFF t (a + p.2) &&& p.1
    if b = 0xFF then tdel t (a + p.2) else tput t (a + p.2) b) s.flash.bytes)

/-- Erases the 64 KiB block that holds an address (R493). -/
def flashErase (s : State) (a : Nat) : State := setFlash s (s.flash.bytes.filter fun c => c.1 / 65536 != a / 65536)

/-- The block is erased. -/
def flashErased (s : State) (a : Nat) : Bool := s.flash.bytes.all fun c => c.1 / 65536 != a / 65536

abbrev flFactory : Nat := 0x10000
/-- User layers A and B, by bank 1 and 2. -/
def flUser (bank : Nat) : Nat := if bank = 2 then 0x30000 else 0x20000
def flBoot (b : Bool) : Nat := if b then 0x50000 else 0x40000
def flRetire (b : Bool) : Nat := if b then 0x70000 else 0x60000
def flBank (b : Bool) : Nat := if b then 0x1C00000 else 0x400000

/-! ### Layers (R481 to R484) -/

structure LayerEntry where
  id : Nat
  flags : Nat
  value : Nat
  deriving DecidableEq, Repr

def layerCount (s : State) (a : Nat) : Nat := leNat (flashRead s (a + 12) 4)
def layerGen (s : State) (a : Nat) : Nat := leNat (flashRead s (a + 8) 4)

/-- The entries of a layer; a COUNT that no layer may have gives none. -/
def layerEntries (s : State) (a : Nat) : List LayerEntry :=
  (List.range (if layerCount s a ≤ 4092 then layerCount s a else 0)).map fun i =>
    let e := flashRead s (a + 64 + 16 * i) 16
    { id := field e 0 2, flags := field e 2 2, value := field e 8 8 }

def ascending : List Nat → Bool
  | a :: b :: t => a < b && ascending (b :: t)
  | _ => true

/-- The checks of R482; `layer` is 0 for the factory layer and 1 for a user layer. -/
def layerValid (s : State) (a layer : Nat) : Bool :=
  leNat (flashRead s a 4) = 0x5347544C && leNat (flashRead s (a + 4) 2) = 1 && leNat (flashRead s (a + 6) 1) = layer
    && layerCount s a ≤ 4092 && ascending ((layerEntries s a).map (·.id))
    && sha256 (flashRead s (a + 64) (16 * layerCount s a)) = flashRead s (a + 32) 32

/-- The factory layer is valid (R484). -/
def factoryValid (s : State) : Bool := layerValid s flFactory 0 && sha256 (flashRead s flFactory 65536) = s.fuse.factoryDigest

/-- The user layer in force: 0 none, 1 A, 2 B (R482). -/
def userBank (s : State) : Nat :=
  let a := layerValid s (flUser 1) 1
  let b := layerValid s (flUser 2) 1
  if a && b then (if layerGen s (flUser 1) < layerGen s (flUser 2) then 2 else 1) else if a then 1 else if b then 2 else 0

/-- A user layer's header is not all erased and the layer is not valid (R482). -/
def userTorn (s : State) (bank : Nat) : Bool :=
  (flashRead s (flUser bank) 64).any (· != 0xFF) && !layerValid s (flUser bank) 1

def userEntries (s : State) : List LayerEntry := if userBank s = 0 then [] else layerEntries s (flUser (userBank s))

def factoryEntry (s : State) (id : Nat) : Option LayerEntry := (layerEntries s flFactory).find? (·.id == id)

/-- A setting is locked: its factory entry has LOCKED set, or the catalogue says so (R491, R496). -/
def factoryLocked (s : State) (id : Nat) : Bool :=
  (match factoryEntry s id with
   | some e => bit e.flags 0
   | none => false)
    || (match settingDef id with
        | some d => d.locked
        | none => false)

/-- FACTORY (R77, R484). -/
def factoryValue (s : State) (id : Nat) : Nat := match factoryEntry s id with
  | some e => e.value
  | none => settingDefault id

/-- A user entry is ignored (R483). -/
def entryIgnored (s : State) (e : LayerEntry) : Bool := match settingDef e.id with
  | none => true
  | some d => !settingInRange d e.value || d.writeOnce || factoryLocked s e.id

/-- The user value of a setting, where one is present and not ignored (R485). -/
def userValue (s : State) (id : Nat) : Option Nat :=
  ((userEntries s).find? (·.id == id)).bind fun e => if entryIgnored s e then none else some e.value

/-! ### Write-once records (R488) -/

/-- Groups of write-once settings: first identifier and how many (R489). -/
def onceGroup (id : Nat) : Option (Nat × Nat) :=
  if 1 ≤ id && id ≤ 4 then some (1, 4) else if id = idTwinPairId || id = idTwinSide then some (idTwinPairId, 2) else none

def onceValid (r : List Byte) : Bool :=
  1 ≤ field r 2 2 && field r 2 2 ≤ 4 && crc32 (r.take 4 ++ (r.drop 16).take 32) = field r 4 4

/-- The values of the lowest valid record of a group. -/
def onceRecord (s : State) (first : Nat) : Option (List Nat) :=
  ((List.range 1024).findSome? fun k =>
    let r := flashRead s (64 * k) 64
    if onceValid r && field r 0 2 = first then some ((List.range (field r 2 2)).map fun i => field r (16 + 8 * i) 8) else none)

/-- The stored value of a write-once setting; none while unwritten. -/
def onceValue (s : State) (id : Nat) : Option Nat :=
  (onceGroup id).bind fun g => (onceRecord s g.1).bind fun vs => vs[id - g.1]?

/-- Programs a group into the lowest erased record; none where no record is erased. -/
def onceProgram (s : State) (first : Nat) (vs : List Nat) : Option State :=
  ((List.range 1024).find? fun k => (flashRead s (64 * k) 64).all (· == 0xFF)).map fun k =>
    let body := vs.flatMap (leBytes 8) ++ zeros (32 - 8 * vs.length)
    let hd := leBytes 2 first ++ leBytes 2 vs.length
    flashProgram s (64 * k) (hd ++ leBytes 4 (crc32 (hd ++ body)) ++ zeros 8 ++ body ++ zeros 16)

/-- A group takes its values and counts as written (R485, R489); the record is programmed unless `failed`. -/
def writeGroup (s : State) (first : Nat) (vs : List Nat) (failed : Bool) : State × Bool :=
  let ids := (List.range vs.length).map (· + first)
  let st := { s.settings with
    run := (ids.zip vs).foldl (fun t p => tput t p.1 p.2) s.settings.run
    written := s.settings.written.filter (fun i => !ids.contains i) ++ ids }
  let s1 := { s with settings := st }
  match if failed then none else onceProgram s1 first vs with
  | some s2 => (s2, true)
  | none => (s1, false)

/-! ### Writing the user layer (R486) -/

/-- A user layer's bytes. -/
def layerBytes (gen : Nat) (es : List LayerEntry) : List Byte :=
  let body := es.flatMap fun e => leBytes 2 e.id ++ leBytes 2 e.flags ++ zeros 4 ++ leBytes 8 e.value
  leBytes 4 0x5347544C ++ leBytes 2 1 ++ leBytes 1 1 ++ zeros 1 ++ leBytes 4 gen ++ leBytes 4 es.length ++ zeros 16 ++ sha256 body ++ body

/-- Puts an entry in its place by identifier. -/
def putEntry (id v : Nat) : List LayerEntry → List LayerEntry
  | [] => [{ id := id, flags := 0, value := v }]
  | e :: t => if id < e.id then { id := id, flags := 0, value := v } :: e :: t
      else if id = e.id then { e with value := v } :: t else e :: putEntry id v t

/-- A PERSIST write of the user layer: the layer not in force is erased where it is not, and written whole; the other layer's
block is then erased in the background. A wait for a background erase that runs ends with that erase (R486, R487). `failed`:
the write fails and the old layer stays in force. -/
def writeUser (s : State) (vs : List (Nat × Nat)) (failed : Bool) : State × Bool :=
  let s0 := match s.flash.erasing with
    | some a => { flashErase s a with flash := { (flashErase s a).flash with erasing := none } }
    | none => s
  let b := userBank s0
  let target := if b = 1 then 2 else 1
  let es := vs.foldl (fun l p => putEntry p.1 p.2 l) (userEntries s0)
  let gen := if b = 0 then 1 else layerGen s0 (flUser b) + 1
  let s1 := if flashErased s0 (flUser target) then s0 else flashErase s0 (flUser target)
  if failed || 4092 < es.length then (s0, false)
  else
    let s2 := flashProgram s1 (flUser target) (layerBytes gen es)
    ({ s2 with flash := { s2.flash with erasing := if b = 0 then none else some (flUser b) } }, true)

/-! ### Boot records and firmware banks (R471 to R474) -/

structure BootRec where
  gen : Nat := 0
  next : Nat := 0
  tries : Nat := 0
  confirmed : Nat := 0xFF
  deriving DecidableEq, Repr

def bootGood (s : State) (b : Bool) : Bool :=
  crc32 (flashRead s (flBoot b) 8) = leNat (flashRead s (flBoot b + 8) 4)

def bootRead (s : State) (b : Bool) : BootRec :=
  let r := flashRead s (flBoot b) 8
  { gen := field r 0 4, next := field r 4 1, tries := field r 5 1, confirmed := field r 6 1 }

/-- Which boot record is in force; none where neither is good (R473). -/
def bootInForce (s : State) : Option Bool :=
  let a := bootGood s false
  let b := bootGood s true
  if a && b then some (decide ((bootRead s false).gen < (bootRead s true).gen)) else if a then some false else if b then some true else none

/-- The record in force, or the values that R473 takes where none is good. -/
def bootRec (s : State) : BootRec := match bootInForce s with
  | some b => bootRead s b
  | none => {}

/-- Writes a boot record to the place not in force, with GENERATION + 1 (R473). -/
def writeBoot (s : State) (next tries confirmed : Nat) : State :=
  let b := match bootInForce s with
    | some b => !b
    | none => false
  let body := leBytes 4 ((bootRec s).gen + 1) ++ leBytes 1 next ++ leBytes 1 tries ++ leBytes 1 confirmed ++ zeros 1
  flashProgram (flashErase s (flBoot b)) (flBoot b) (body ++ leBytes 4 (crc32 body))

/-- The hub generation, REV_MAJOR of HUB_DIE_ID: 3 for H3, 2 for H2 (R25). -/
def hubGen (s : State) : Nat := match s.fuse.variant with
  | .h3 => 3
  | .h2 => 2

/-- The image in a bank is valid (R472). -/
def imageValid (s : State) (b : Bool) : Bool :=
  let h := flashRead s (flBank b) 256
  let n := field h 12 4
  field h 0 4 = 0x57464350 && field h 4 2 = 1 && 4096 ≤ n && n ≤ 25165824 && bit (field h 11 1) (hubGen s)
    && ((h.drop 112).take 80).all (· == 0) && sha256 ((h.drop 48).take 64) = s.fuse.fwKeyHash
    && ecdsaOk ((h.drop 48).take 64) ((h.drop 192).take 64) (sha256 (h.take 192))
    && sha256 (flashRead s (flBank b + 256) (n - 256)) = (h.drop 16).take 32 && s.fuse.fusedMin ≤ field h 10 1

/-- SEC_VERSION and FW_BUILD of the image in a bank. -/
def imageSec (s : State) (b : Bool) : Nat := leNat (flashRead s (flBank b + 10) 1)
def imageBuild (s : State) (b : Bool) : Nat := leNat (flashRead s (flBank b + 8) 2)

end Sys2Proof.Machine
end

