-- ==== Sys2Proof/Machine/CleatBase.lean ====
section
/-!
DEFINITION. The Cleat port as the rest of the package uses it: frames, what PCF and the twin unit send, and duplicate addresses
(R506 to R509, R512 to R516).
-/

namespace Sys2Proof.Machine

def setCleat (s : State) (c : Cleat) : State := { s with cleat := c }

/-- CLEAT_FMT.NINE. -/
def nineBit (s : State) : Bool := (reg s cleatFmt).getLsbD 0
def cleatOwn (s : State) : Nat := setting s idCleatNodeAddr
def cleatPeer (s : State) : Nat := setting s idTwinCleatPeer

/-- A frame's characters: the address character, then SRC to CRC (R508). -/
def cleatChars (dst src type seq seg : Nat) (payload : List Byte) : List Nat :=
  let body : List Byte := leBytes 1 src ++ leBytes 1 type ++ leBytes 1 seq ++ leBytes 1 seg ++ leBytes 1 payload.length ++ payload
  (256 + dst % 256) :: (body ++ leBytes 2 (crc16 (leBytes 1 dst ++ body))).map (·.toNat)

/-- The 48-byte segments of a mailbox frame (R509); the fuel bounds them. -/
def segments : Nat → List Byte → List (List Byte)
  | 0, _ => []
  | n + 1, bs => if bs.length ≤ 48 then [bs] else bs.take 48 :: segments n (bs.drop 48)

/-- PCF has frames to send. -/
def cleatSend (s : State) (fs : List (List Nat)) : State := setCleat s { s.cleat with sends := s.cleat.sends ++ fs }

/-- A response to a source on the bus, and its keeping for the 16 most recent sources (R509, R511). -/
def cleatRespond (s : State) (src seq : Nat) (broadcast : Bool) (bs : List Byte) : State :=
  if broadcast || s.cleat.dupLock then s
  else
    let segs := segments 86 bs
    let fs := (segs.zip (List.range segs.length)).map fun p =>
      cleatChars src (cleatOwn s) 2 seq ((if p.2 + 1 = segs.length then 128 else 0) + p.2) p.1
    let kept := s.cleat.kept.filter (·.src != src) ++ [{ src := src, seq := seq, bytes := bs }]
    cleatSend (setCleat s { s.cleat with kept := kept.drop (kept.length - 16) }) fs

/-- A TWIN frame of the twin unit; a heartbeat replaces one that still waits (R513, R514). -/
def cleatTwin (s : State) (type seq a b c : Nat) : State :=
  if cleatPeer s = 0xFF || s.cleat.dupLock || !nineBit s then s
  else
    let f : CleatTwin :=
      { chars := cleatChars (cleatPeer s) (cleatOwn s) 3 seq 128 (leBytes 1 type ++ leBytes 4 a ++ leBytes 1 b ++ leBytes 1 c ++ zeros 1),
        heartbeat := type = 0 }
    let waits := s.cleat.twinOut
    if type = 0 && waits.any (·.heartbeat) then
      let first := (waits.head?.map (·.heartbeat)).getD false
      setCleat s { s.cleat with
        twinOut := waits.map (fun g => if g.heartbeat then f else g)
        attempts := if first && s.cleat.twinTurn then 0 else s.cleat.attempts }
    else setCleat s { s.cleat with twinOut := waits ++ [f] }

/-- A duplicate address is detected (R515, R516): responses and notices that wait are dropped, a CLAIM_REPLY is not. -/
def cleatDup (s : State) : State :=
  let s1 := bump (orReg s cleatErr 0x80) cleatDupCnt
  let s2 := setCleat s1 { s1.cleat with
    dupLock := true
    sends := s1.cleat.sends.filter (fun f => f.getD 2 0 != 2 && f.getD 2 0 != 6)
    twinOut := []
    attempts := if s1.cleat.twinTurn then 0 else s1.cleat.attempts }
  let s3 := logErr s2 0 { code := 0x1050, cls := 6, source := 10, arg := cleatOwn s }
  if s.cleat.dupLock then s3 else eventTo s3 0 0 0x000A 0x300 5 0 0

end Sys2Proof.Machine
end

