-- ==== Sys2Proof/Machine/Fields.lean ====
section
/-!
DEFINITION. A queue command's structure and its address fields: what an engine accepts, reserved bytes and encodings, the fields'
translation, and the ranges that the command holds (R151 to R153, R320, R323, R328).
-/

namespace Sys2Proof.Machine

/-! ### Structure of a command (R152, R153) -/

/-- Opcodes an engine accepts (R152). -/
def engineAccepts (engine op : Nat) : Bool :=
  op ≤ 3 || (match engine with
    | 0 => op == 0x10
    | 1 => 0x20 ≤ op && op ≤ 0x23
    | 2 => 0x30 ≤ op && op ≤ 0x36
    | 3 => op == 0x40 || op == 0x41
    | _ => false)

/-- OPFLAGS that a command defines: the mask, and the encodings of the mask that are reserved. -/
def opflagsRule : Nat → Nat × List Nat
  | 0x01 => (3, [0, 1])
  | 0x02 => (3, [])
  | 0x03 => (3, [3])
  | 0x10 => (3, [])
  | 0x20 => (3, [])
  | 0x21 => (3, [])
  | _ => (0, [])

/-- Reserved byte ranges of a command's operand area, as (offset, size) (R162, R165, R169, R172, R174). -/
def reservedBytes : Nat → List (Nat × Nat)
  | 0x00 => [(8, 48)]
  | 0x01 => [(8, 48)]
  | 0x02 => [(28, 28)]
  | 0x03 => [(24, 32)]
  | 0x10 => [(32, 24)]
  | 0x20 => [(36, 4)]
  | 0x21 => [(32, 24)]
  | 0x22 => [(24, 32)]
  | 0x23 => [(11, 5), (32, 24)]
  | 0x30 => [(36, 4), (48, 8)]
  | 0x31 => [(17, 39)]
  | 0x32 => [(14, 42)]
  | 0x33 => [(12, 44)]
  | 0x34 => [(12, 4), (24, 32)]
  | 0x35 => [(50, 6)]
  | 0x36 => [(9, 47)]
  | 0x40 => [(28, 4), (40, 16)]
  | 0x41 => [(10, 46)]
  | _ => []

/-- An address field of a command: offset, alignment, whether it is written or executed, and whether 0 means none. -/
structure AddrField where
  off : Nat
  align : Nat := 1
  w : Bool := false
  x : Bool := false
  opt : Bool := false

/-- The translated address fields of a command, the counter apart (R151, R320). -/
def addrFields : Nat → List AddrField
  | 0x02 => [{ off := 8, align := 8 }]
  | 0x03 => [{ off := 8, align := 8, w := true }]
  | 0x10 => [{ off := 8, align := 256, x := true }, { off := 16, align := 64, opt := true }]
  | 0x20 => [{ off := 8 }, { off := 16, w := true }]
  | 0x21 => [{ off := 8, align := 8, w := true }]
  | 0x22 => [{ off := 8, align := 32 }]
  | 0x30 => [{ off := 16 }, { off := 24, w := true }, { off := 40, w := true, opt := true }]
  | 0x34 => [{ off := 16, align := 32, w := true }]
  | 0x35 => [{ off := 16, w := true }, { off := 32 }, { off := 40, align := 8, w := true }]
  | 0x40 => [{ off := 8 }]
  | _ => []

/-- Enumerated operand fields with reserved encodings (R5): offset of the first that holds one. -/
def reservedEncodings (op : Nat) (bs : List Byte) : List Nat :=
  match op with
  | 0x10 => if 4 < field bs 30 1 then [30] else []
  | 0x23 => if 1 < field bs 10 1 then [10] else if field bs 10 1 = 1 && field bs 16 8 % 65536 ≠ 0 then [16] else []
  | 0x31 => if 1 < field bs 12 1 then [12] else []
  | 0x35 => if 1 < field bs 9 1 then [9] else []
  | 0x40 => if 2 ^ 58 ≤ field bs 16 8 then [16] else if 2 ^ 58 ≤ field bs 32 8 then [32] else []
  | _ => []

/-- Every offending offset of a command's structure (R153). -/
def offending (engine : Nat) (bs : List Byte) : List Nat :=
  let op := field bs 0 1
  let fl := opflagsRule op
  let opf := field bs 4 4
  let ctr := field bs 56 8
  (if engineAccepts engine op then [] else [0])
    ++ (if field bs 1 1 < 32 then [] else [1])
    ++ (if opf ≤ fl.1 && !fl.2.contains opf then [] else [4])
    ++ ((reservedBytes op).filterMap fun r =>
        ((List.range r.2).find? fun k => (bs.getD (r.1 + k) 0) != 0).map (fun _ => r.1))
    ++ ((addrFields op).filter (fun a => field bs a.off 8 % a.align ≠ 0)).map (·.off)
    ++ reservedEncodings op bs
    ++ (if bit (field bs 1 1) 2 then (if ctr % 8 = 0 then [] else [56]) else if ctr = 0 then [] else [56])

/-- The offset of the first offending field, if the command is malformed (R153). -/
def malformed (engine : Nat) (bs : List Byte) : Option Nat :=
  (offending engine bs).foldl (fun m o => match m with
    | none => some o
    | some k => some (min k o)) none

/-! ### Translation of a command's addresses (R151) -/

/-- A field's use permits the translation (R320): W or X where the use needs it, and a pin outside the Copy Engines. -/
def permits (engine : Nat) (a : AddrField) (t : Xl) : Bool :=
  (!a.w || t.w) && (!a.x || t.x) && (engine = 1 || t.pin)

/-- The address fields of a command, its counter included. -/
def allFields (bs : List Byte) : List AddrField :=
  ((addrFields (field bs 0 1)).filter fun a => !(a.opt && field bs a.off 8 = 0))
    ++ (if bit (field bs 1 1) 2 then [{ off := 56, align := 8, w := true }] else [])

/-- The translation of every address field: the fields with where they lie, or the error record of the first that fails. Any field of a
Copy Engine's command may be left for the fault path (R151). -/
def translateFields (s : State) (x : Queue) (bs : List Byte) : List AddrField → Except CmdRes (List (Nat × Option Loc))
  | [] => .ok []
  | a :: rest =>
    let va := field bs a.off 8
    let go (l : Option Loc) : Except CmdRes (List (Nat × Option Loc)) := match translateFields s x bs rest with
      | .ok t => .ok ((a.off, l) :: t)
      | .error e => .error e
    let fails : Except CmdRes (List (Nat × Option Loc)) :=
      if x.engine = 1 then go none else .error { status := stXlateFault, detail := a.off, result := va, error := true }
    match xlate s (fieldAsid x bs a.off) va with
    | .poisoned d => .error { status := stPoisoned, result := d, error := true }
    | .ok t => if permits x.engine a t then go (some t.loc) else fails
    | .none => fails

/-- What translating some fields of a command leaves behind (R313, R319). -/
def noteFields (s : State) (x : Queue) (bs : List Byte) (l : List AddrField) : State :=
  l.foldl (fun s a => noteXlate s (engineDie x.engine x.inst) (fieldAsid x bs a.off) (field bs a.off 8)) s

/-- The VA ranges of a Copy Engine command: rows of source and destination, written or not (R169). -/
def copyRows (bs : List Byte) (va pitch : Nat) : List (Nat × Nat) :=
  (List.range (field bs 32 4)).map fun k => (va + k * pitch, field bs 24 8)

/-- The rows of a COPY's source, by the field at offset 8. -/
def copySrc (bs : List Byte) : List (Nat × Nat) := copyRows bs (field bs 8 8) (field bs 40 8)
/-- The rows of a COPY's destination, by the field at offset 16. -/
def copyDst (bs : List Byte) : List (Nat × Nat) := copyRows bs (field bs 16 8) (field bs 48 8)

/-- The VA ranges behind each address field of a command, by the field's offset (R101, R135, R165, R169, R174). -/
def fieldRanges (bs : List Byte) (a : AddrField) : List (Nat × Nat) :=
  let va := field bs a.off 8
  match field bs 0 1, a.off with
  | 0x20, 8 => copySrc bs
  | 0x20, 16 => copyDst bs
  | 0x21, 8 => [(va, field bs 16 8)]
  | 0x22, 8 => [(va, field bs 16 8)]
  | 0x30, 16 => [(va, 4 * field bs 12 4)]
  | 0x30, 24 => [(va, 4 * field bs 32 4)]
  | 0x30, 40 => [(va, 4)]
  | 0x34, 16 => [(va, 1056)]
  | 0x35, 16 =>
    (List.range (field bs 12 4)).map fun v => (va + v * field bs 24 8, field bs 10 2 * (if field bs 9 1 = 0 then 4 else 2))
  | 0x35, 32 => [(va, field bs 12 4)]
  | 0x40, 8 => [(va, field bs 24 4)]
  | _, _ => [(va, 8)]

/-- The VA ranges that a command holds translations of from its start, each with its tag. -/
def heldRanges (x : Queue) (bs : List Byte) : List (Nat × Nat × Nat) :=
  (allFields bs).flatMap fun a => (fieldRanges bs a).map fun r => (fieldAsid x bs a.off, r.1, r.2)

/-- The leaves that a command holds (R323, R328). -/
def heldLeaves (s : State) (x : Queue) (bs : List Byte) : List TlbEntry :=
  (heldRanges x bs).flatMap fun r => leavesIn s r.1 r.2.1 r.2.2

/-- The host pages granted by ATS that a command holds (R328). -/
def heldGrants (s : State) (x : Queue) (bs : List Byte) : List Grant :=
  s.xlat.granted.filter fun g => g.fn == tagOwner s x.asid && g.pasid == hostPasid s x.asid &&
    (heldRanges x bs).any fun r => r.2.1 / 2 ^ 48 == 1 && decide (r.2.1 % 2 ^ 48 < (g.page + 1) * 4096)
      && decide (g.page * 4096 < r.2.1 % 2 ^ 48 + r.2.2)

/-- The generations that a command's translations stand under: of the queue's tag, and of the tag that it names (R150, R328). -/
def genNow (s : State) (x : Queue) (bs : List Byte) : Nat × Nat := (tagGen s x.asid, tagGen s (fieldAsid x bs 0))

/-! ### Ranges behind a field of a command (R320) -/

/-- A buffer of a command that has started, for the field at `off`: every byte with the permission that the use needs (R320). -/
def cmdReach (s : State) (x : Queue) (c : Cmd) (off : Nat) (w : Bool) (va n : Nat) : Reach :=
  vaReach s c.leaves (fieldAsid x c.bytes off) (fun t => permits x.engine { off := off, w := w } t) va n

/-- What a buffer that cannot be reached ends its command with: XLATE_FAULT, or POISONED in table data (R151, R319, R320). -/
def reachRes (off : Nat) : Reach → Option CmdRes
  | .ok _ => none
  | .miss va => some { status := stXlateFault, detail := off, result := va, error := true }
  | .poisoned d => some { status := stPoisoned, result := d, error := true }

/-- A command's buffer as it stands, with what walking to it leaves behind. -/
def openBuf (s : State) (x : Queue) (c : Cmd) (off : Nat) (w : Bool) (va n : Nat) : State × Reach :=
  let s1 := noteRange s (engineDie x.engine x.inst) (fieldAsid x c.bytes off) va n
  (s1, cmdReach s1 x c off w va n)

/-- Reads a command's buffer: its bytes, or the error record that it ends with (R320, R530). -/
def readBuf (s : State) (x : Queue) (c : Cmd) (off va n : Nat) : State × Except CmdRes (List Byte) :=
  match openBuf s x c off false va n with
  | (s1, .ok l) =>
    let s2 := touchPieces s1 l
    (s2, match piecesPoison s2 l with
      | some d => .error { status := stPoisoned, result := d, error := true }
      | none => .ok (readPieces s2 l))
  | (s1, .miss va) => (s1, .error { status := stXlateFault, detail := off, result := va, error := true })
  | (s1, .poisoned d) => (s1, .error { status := stPoisoned, result := d, error := true })

/-- Writes a command's buffer, or gives the error record that it ends with (R320). -/
def writeBuf (s : State) (x : Queue) (c : Cmd) (off va : Nat) (bs : List Byte) : State × Option CmdRes :=
  match openBuf s x c off true va bs.length with
  | (s1, .ok l) => (writePieces s1 bs l, none)
  | (s1, r) => (s1, reachRes off r)

end Sys2Proof.Machine
end

