-- ==== Sys2Proof/Machine/Faults.lean ====
section
/-!
DEFINITION. What a Copy Engine's commands reach, and the fault path of a field without a usable translation: ATS and PRI (R30, R151,
R316, R324, R325).
-/

namespace Sys2Proof.Machine

/-! ### What a Copy Engine reads and writes (R169, R316, R324) -/

/-- Rows of a COPY or FILL: source VA, destination VA, bytes. A FILL has the pattern in place of a source; UC_INVAL only reads. -/
structure CopyJob where
  src : List (Nat × Nat)
  dst : List (Nat × Nat)
  pattern : Option (List Byte) := none

/-- Byte offsets of the source and the destination field of a Copy Engine command. -/
def copyOffs (op : Nat) : Nat × Nat := if op = 0x20 then (8, 16) else (8, 8)

def copyJob (c : Cmd) : CopyJob :=
  let bs := c.bytes
  match cmdOpcode c with
  | 0x20 => { src := copySrc bs, dst := copyDst bs }
  | 0x21 => { src := [], dst := [(field bs 8 8, field bs 16 8)], pattern := some (leBytes 8 (field bs 24 8)) }
  | _ => { src := [(field bs 8 8, field bs 16 8)], dst := [] }

/-- A length outside its range completes with BAD_REQUEST, the field's offset in DETAIL (R153, R169). -/
def copyRange (c : Cmd) : Option CmdRes :=
  let bad (off : Nat) : Option CmdRes := some { status := stBadRequest, detail := off }
  match cmdOpcode c with
  | 0x20 =>
    if field c.bytes 24 8 = 0 || 2 ^ 36 < field c.bytes 24 8 then bad 24
    else if field c.bytes 32 4 = 0 || 65535 < field c.bytes 32 4 then bad 32
    else none
  | 0x21 => let n := field c.bytes 16 8
            if n < 8 || 2 ^ 36 < n || n % 8 ≠ 0 then bad 16 else none
  | _ => let n := field c.bytes 16 8
         if n < 32 || 2 ^ 36 < n || n % 32 ≠ 0 then bad 16 else none

/-- ATS has granted a host page for the access: to the command, which keeps what it holds, or to the engines' translation cache (R324,
R328). -/
def granted (s : State) (asid : Nat) (c : Cmd) (page : Nat) (w : Bool) : Bool :=
  (c.grants ++ s.xlat.granted).any fun g =>
    g.fn == tagOwner s asid && g.pasid == hostPasid s asid && g.page == page && (g.w || !w)

/-- The translation that a Copy Engine command uses for a VA: one that it holds from its start (R328), a cached one, or that of
a walk made once more (R324). In the host window with ATS on, the page's grant. -/
def copyXl (s : State) (x : Queue) (c : Cmd) (w : Bool) (va : Nat) : XlRes :=
  if va / 2 ^ 48 = 1 && (pcieFn s (tagOwner s x.asid)).ats then
    if granted s x.asid c (va % 2 ^ 48 / 4096) w then xlate s x.asid va else .none
  else match c.leaves.find? (fun e => e.asid == x.asid && e.va ≤ va && va < e.va + e.size && (e.w || !w)) with
    | some e => xlOfEntry e va
    | none => match xlate s x.asid va with
      | .ok t => if t.w || !w then .ok t
        else match (fullWalk s x.asid va).1 with
          | .leaf e => if e.w then xlOfEntry e va else .none
          | .poisoned d => .poisoned d
          | .miss _ => .none
      | .poisoned d => .poisoned d
      | .none => if va / 2 ^ 47 ≠ 0 then .none
        else match (fullWalk s x.asid va).1 with
          | .leaf e => if e.w || !w then xlOfEntry e va else .none
          | .poisoned d => .poisoned d
          | .miss _ => .none

/-- The pieces of some rows, in order. -/
def rowPieces (s : State) (x : Queue) (c : Cmd) (w : Bool) : List (Nat × Nat) → Reach
  | [] => .ok []
  | r :: rs => match reachFrom (copyXl s x c w) (fun t => t.w || !w) (r.2 / 4096 + 2) (r.1 % 2 ^ 64) r.2 with
    | .ok l => match rowPieces s x c w rs with
      | .ok l' => .ok (l ++ l')
      | e => e
    | e => e

/-- What stands in the way of a Copy Engine command, with the field; else the pieces of each of its fields, by offset. -/
inductive CopyStop where
  | clear (l : List (Nat × List (Loc × Nat)))
  | miss (a : AddrField) (va : Nat)
  | poisoned (dpa : Nat)

def fieldStops (s : State) (x : Queue) (c : Cmd) : List AddrField → CopyStop
  | [] => .clear []
  | a :: t => match rowPieces s x c a.w (fieldRanges c.bytes a) with
    | .miss va => .miss a va
    | .poisoned d => .poisoned d
    | .ok l => match fieldStops s x c t with
      | .clear r => .clear ((a.off, l) :: r)
      | e => e

/-- The fields of a Copy Engine command against the translations it may use now; other engines' were translated whole (R151, R324). -/
def copyStop (s : State) (x : Queue) (c : Cmd) : CopyStop :=
  if x.engine = 1 then fieldStops s x c (allFields c.bytes) else .clear []

/-- The pieces of a field. -/
def piecesOf (l : List (Nat × List (Loc × Nat))) (off : Nat) : List (Loc × Nat) := match l.find? (fun p => p.1 == off) with
  | some p => p.2
  | none => []

/-- A write of a Copy Engine: through the home slices with UC_WRITE, else a bypass write (R169, R254, R281). -/
def copyWrite (s : State) (uc : Bool) (l : Loc) (bs : List Byte) : State := match l with
  | .dev a => if uc then homeWrite s a bs else bypassWrite s a bs
  | .host f a _ => hostWrite s f a bs

/-- Writes bytes over pieces in order. -/
def copyPut (s : State) (uc : Bool) (bs : List Byte) : List (Loc × Nat) → State
  | [] => s
  | (l, k) :: t => copyPut (copyWrite s uc l (bs.take k)) uc (bs.drop k) t

/-- The bytes of a FILL. -/
def patternBytes (p : List Byte) (n : Nat) : List Byte := (List.range n).map fun k => p.getD (k % 8) 0

/-! ### The fault path (R324, R325) -/

/-- Each byte of the destination of a command that ends on an unresolved fault holds its old value or the value the command writes
there (R325): a free bit for each byte that both translations reach. -/
def partialCopy (s : State) (x : Queue) (c : Cmd) : State :=
  let j := copyJob c
  let uc := bit (cmdOpflags c) 1
  let at1 (va : Nat) (w : Bool) : Option Loc := match copyXl s x c w (va % 2 ^ 64) with
    | .ok t => some t.loc
    | _ => none
  let bytesOf (l : List (Nat × Nat)) : List Nat := l.flatMap fun r => (List.range r.2).map (r.1 + ·)
  let dst := bytesOf j.dst
  let src := bytesOf j.src
  let s1 := { s with free := s.free + dst.length / 64 + 1 }
  (List.range dst.length).foldl (fun t k =>
    if bit (Config.freeWord (s.free + k / 64)).toNat (k % 64) then
      match at1 (dst.getD k 0) true with
      | none => t
      | some l => match j.pattern with
        | some p => copyWrite t uc l [p.getD (k % 8) 0]
        | none => match at1 (src.getD k 0) false with
          | some l' => copyWrite t uc l (locRead s l' 1)
          | none => t
    else t) s1

def dropSusp (s : State) (q i : Nat) : State :=
  { s with xlat := { s.xlat with susp := s.xlat.susp.filter fun p => !(p.queue == q && p.index == i) } }

/-- A fault left unresolved: the command ends with PAGE_FAULT (R325). -/
def faultEnds (s : State) (q i off va : Nat) : State :=
  let x := queue s q
  match findCmd x i with
  | none => s
  | some c => endCmd (dropSusp (partialCopy s x c) q i) q i { status := stPageFault, detail := off, result := va, error := true }

/-- Suspended commands of a Copy Engine instance. -/
def suspendedOn (s : State) (inst : Nat) : Nat := (s.xlat.susp.filter fun p => p.inst == inst).length

/-- A command meets a fault at a VA (R324): on the host window with ATS on it is suspended and a Translation Request sent, unless 8
commands of the instance are suspended already, and it waits at the transfer (R325); else the walk made once more has found nothing and
the fault is unresolved. -/
def copyFault (s : State) (q i : Nat) (a : AddrField) (va : Nat) : State :=
  let x := queue s q
  let f := tagOwner s x.asid
  if va / 2 ^ 48 = 1 && (pcieFn s f).ats then
    if 8 ≤ suspendedOn s x.inst then s
    else
      let p : Suspended := { queue := q, index := i, inst := x.inst, fn := f, asid := x.asid, off := a.off, va := va, w := a.w, wait := .ats }
      emit (setStage { s with xlat := { s.xlat with susp := s.xlat.susp ++ [p] } } q i .running)
        (.atsRequest f (hostPasid s x.asid) (va % 2 ^ 48 / 4096))
  else faultEnds s q i a.off va

/-- A command whose fields are all reached keeps the translations that it has found (R328). -/
def keepReached (s : State) (q : Nat) (x : Queue) (c : Cmd) (l : List (Nat × List (Loc × Nat))) : State :=
  if x.engine = 1 then
    setQueue s q (putCmd x { c with
      xl := c.xl.map fun p => (p.1, p.2 <|> ((piecesOf l p.1).head?.map (·.1)))
      leaves := c.leaves ++ (heldLeaves s x c.bytes).filter fun e => !c.leaves.contains e
      grants := c.grants ++ (heldGrants s x c.bytes).filter fun g => !c.grants.contains g })
  else s

/-- What the walks for a Copy Engine command's ranges leave behind (R313, R319, R324). -/
def noteHeld (s : State) (x : Queue) (c : Cmd) : State :=
  if x.engine = 1 then (heldRanges x c.bytes).foldl (fun s r => noteRange s (engineDie x.engine x.inst) r.1 r.2.1 r.2.2) s else s

/-- A started command runs: refused for a field out of range, faulting, consuming poisoned table data, or done by `f` with the pieces of
its fields (R151, R153, R319, R324). -/
def runCmd (s : State) (q i op : Nat) (range : Cmd → Option CmdRes) (f : State → Cmd → List (Nat × List (Loc × Nat)) → State) : State :=
  match startedCmd s q i op with
  | none => s
  | some c => match range c with
    | some r => endCmd s q i r
    | none =>
      let s0 := noteHeld s (queue s q) c
      match copyStop s0 (queue s0 q) c with
      | .miss a va => copyFault s0 q i a va
      | .poisoned d => endCmd s0 q i { status := stPoisoned, result := d, error := true }
      | .clear l =>
        let s1 := keepReached s0 q (queue s0 q) c l
        match findCmd (queue s1 q) i with
        | some c1 => f s1 c1 l
        | none => s1

/-- A TIMEOUT_US out of range completes a WAIT with BAD_REQUEST (R153, R162). -/
def waitRange (c : Cmd) : Option CmdRes :=
  if 16777215 < field c.bytes 24 4 then some { status := stBadRequest, detail := 24 } else none

/-- COPY_FAULT (R324, R325): the fault path of a started Copy Engine command whose field has no usable translation. -/
def execCopyFault (q : QueueNo) (i : Nat) (s : State) : Host.Outcome State Fault Refusal := whenLive s <|
  match findCmd (queue s q.val) i with
  | none => .next s
  | some c =>
    let range := match cmdOpcode c with
      | 0x02 => waitRange c
      | 0x20 => copyRange c
      | 0x21 => copyRange c
      | 0x22 => copyRange c
      | _ => none
    let s0 := noteHeld s (queue s q.val) c
    if c.stage = .started && range.isNone then
      match copyStop s0 (queue s0 q.val) c with
      | .miss a va => .next (copyFault s0 q.val i a va)
      | .poisoned d => .next (endCmd s0 q.val i { status := stPoisoned, result := d, error := true })
      | .clear _ => .next s
    else .next s

/-! ### ATS and PRI (R30, R324) -/

/-- The suspended command of a queue and index. -/
def suspended (s : State) (q i : Nat) : Option Suspended := s.xlat.susp.find? fun p => p.queue == q && p.index == i

def setSusp (s : State) (p : Suspended) (w : FaultWait) (pages : List Nat) : State :=
  { s with xlat := { s.xlat with susp := s.xlat.susp.map fun r =>
      if r.queue == p.queue && r.index == p.index then { r with wait := w, pages := pages } else r } }

/-- Outstanding page requests of a function, and their capacity (R30). -/
def priOpen (s : State) (fn : Nat) : Nat := ((s.xlat.susp.filter fun p => p.fn == fn && p.wait == .pri).map fun p => p.pages.length).sum
def priCap (fn : Nat) : Nat := if fn = 0 then 1024 else 64

/-- The host pages that a suspended command needs and has no grant for: those of the faulting row from the VA that missed on, as many as
the function's capacity admits in one group; a page that has had 4 requests is not asked for again (R30, R324). -/
def groupPages (s : State) (p : Suspended) (c : Cmd) : List Nat :=
  let rows := ((allFields c.bytes).filter fun a => a.off == p.off).flatMap (fieldRanges c.bytes)
  let stop := match rows.find? fun r => r.1 ≤ p.va && p.va < r.1 + r.2 with
    | some r => r.1 + r.2
    | none => p.va + 1
  let first := p.va % 2 ^ 48 / 4096
  let n := min ((stop - 1 - (p.va - p.va % 4096)) / 4096 + 1) (priCap p.fn)
  ((List.range n).map (first + ·)).filter fun k => !granted s p.asid c k p.w && tget 0 c.pri k < 4

/-- Sends the PRI Page Requests of a suspended command as one group, or leaves it waiting for free ones (R324). -/
def sendPri (s : State) (p : Suspended) : State :=
  match findCmd (queue s p.queue) p.index with
  | none => s
  | some c =>
    let l := groupPages s p c
    if priOpen s p.fn + l.length ≤ priCap p.fn then
      let s1 := setQueue s p.queue (putCmd (queue s p.queue) { c with pri := l.foldl (fun t k => tput t k (tget 0 t k + 1)) c.pri })
      emit (setSusp (bumpBy s1 (dieReg (engineDie 1 p.inst) xltPriCnt) 32 l.length) p .pri l) (.pageRequest p.fn (hostPasid s p.asid) l)
    else setSusp s p .room []

/-- The oldest fault of a function that waits for free page requests gets them. -/
def priRoom (s : State) (fn : Nat) : State := match s.xlat.susp.find? fun p => p.fn == fn && p.wait == .room with
  | some p => sendPri s p
  | none => s

/-- ATS_COMPLETION (R324): a page that is granted resumes its command; else a PRI request follows, where PRI is on and the page has not had
4. -/
def execAtsCompletion (q : QueueNo) (i : Nat) (ok w : Bool) (s : State) : Host.Outcome State Fault Refusal := whenLive s <|
  match suspended s q.val i, findCmd (queue s q.val) i with
  | some p, some c =>
    if p.wait = .ats then
      let page := p.va % 2 ^ 48 / 4096
      if ok && (w || !p.w) then
        let g : Grant := { fn := p.fn, pasid := hostPasid s p.asid, page := page, w := w }
        let s1 := dropSusp { s with xlat := { s.xlat with granted := s.xlat.granted ++ [g] } } q.val i
        .next (setQueue s1 q.val (putCmd (queue s1 q.val) { c with stage := .started, grants := c.grants ++ [g] }))
      else if !(pcieFn s p.fn).pri || 4 ≤ tget 0 c.pri page then .next (faultEnds s q.val i p.off p.va)
      else .next (sendPri s p)
    else .next s
  | _, _ => .next s

/-- PRI_RESPONSE (R324): Success starts a new ATS request; any other response leaves the fault unresolved. -/
def execPriResponse (q : QueueNo) (i : Nat) (ok : Bool) (s : State) : Host.Outcome State Fault Refusal := whenLive s <|
  match suspended s q.val i with
  | none => .next s
  | some p =>
    if p.wait = .pri then
      if ok then .next (priRoom (emit (setSusp s p .ats []) (.atsRequest p.fn (hostPasid s p.asid) (p.va % 2 ^ 48 / 4096))) p.fn)
      else .next (priRoom (faultEnds s q.val i p.off p.va) p.fn)
    else .next s

/-- PRI_TIMEOUT (R324). -/
def execPriTimeout (q : QueueNo) (i : Nat) (s : State) : Host.Outcome State Fault Refusal := whenLive s <|
  match suspended s q.val i with
  | none => .next s
  | some p => if p.wait = .pri then .next (priRoom (faultEnds s q.val i p.off p.va) p.fn) else .next s

end Sys2Proof.Machine
end

