-- ==== Sys2Proof/Machine/Engine.lean ====
section
/-!
DEFINITION. The life of a queue command: doorbells, fetch, start, completion, and the common commands NOP, FENCE, WAIT and
SIGNAL (R145 to R164, R175).
-/

namespace Sys2Proof.Machine

/-! ### Doorbells (R42, R146) -/

/-- The queue a doorbell slot of a function names: open, and owned by the function (R42). A closing queue's doorbell is
discarded from the close's acceptance (R72), and a VF's while its reset stops its queues (R33). -/
def doorbellQueue (s : State) (fn slot : Nat) : Option Nat :=
  let ok (x : Queue) : Bool := (x.state == .opened || x.state == .stopped) && x.owner == fn
  if fn = 0 then if slot < 1024 && ok (queue s slot) then some slot else none
  else (s.eng.queues.find? fun p => ok p.2 && p.2.slot == slot).map (·.1)

/-- The BAR0 offset of a doorbell slot (R35, R41). -/
def doorbellAddr (fn slot : Nat) : Nat := if fn = 0 then 0x20000 + slot * 64 else 0x3000 + slot * 64

/-- A new TAIL value against HEAD and TAIL (R146). -/
def tailWrite (s : State) (q v : Nat) : State :=
  let x := queue s q
  let m := 2 ^ 32
  let adv := (v + m - x.tail) % m
  let used := (x.tail + m - x.head) % m
  if v = x.tail then s
  else if adv ≤ x.entries - used then setQueue s q { x with tail := v }
  else
    logErr (writeQsb (setQueue s q { x with dbRange := true }) q) x.owner
      { code := 0x1031, cls := 6, source := 6, die := engineDie x.engine x.inst, unit := x.inst, inst := x.owner, arg := x.slot }

/-! ### Fetch (R150, R151, R153) -/

/-- The queue may fetch: published commands, at most 16 beyond the oldest that has not completed, and fetching not held. -/
def canFetch (x : Queue) : Bool :=
  (x.state == .opened || x.state == .closing) && !x.held && x.head ≠ x.tail
    && (x.head + 2 ^ 32 - doneOf x) % 2 ^ 32 ≤ 16

/-- Nothing keeps a queue's engine from its work: the owner's tenant is not stopped, the engine's die is awake and does not drain for a
quarantine; Remote queues lie on the hub (R418, R434, R436, R453, R456). -/
def engineUp (s : State) (x : Queue) : Bool :=
  let d := engineDie x.engine x.inst
  !tenantStops s x.owner && (if d < 8 then dieAwake s d && !dieDraining s d else !s.power.deep)

/-- The queue's context takes a fetched command: HEAD goes one past it, and QSB.EPOCH is its epoch (R148, R150). -/
def pushCmd (s : State) (q : Nat) (c : Cmd) : State :=
  let x := queue s q
  setQueue s q { x with head := (c.index + 1) % 2 ^ 32, epoch := c.epoch, cmds := x.cmds ++ [c] }

/-- COMMAND_FETCH (R150). -/
def execCommandFetch (q : QueueNo) (s : State) : Host.Outcome State Fault Refusal := whenLive s <|
  let x := queue s q.val
  if canFetch x && engineUp s x then
    let i := x.head
    match pinnedLoc x.ring (i % x.entries * 64) with
    | none => .next s
    | some l =>
      let bs := locRead s l 64
      let g := genNow s x bs
      let c : Cmd := { index := i, bytes := bs, epoch := s.settings.epoch.issuing, gen := g.1, namedGen := g.2 }
      let s0 := locTouch s l 64
      match malformed x.engine bs with
      | some off => .next (errorStop (pushCmd s0 q.val c) q.val c { status := stBadRequest, detail := off, error := true })
      | none =>
        let s1 := noteFields s0 x bs (allFields bs)
        match translateFields s1 x bs (allFields bs) with
        | .error e =>
          let s2 := pushCmd s1 q.val c
          .next (errorStop (if e.status = stPoisoned then poisonConsumed s2 x.owner e.result else s2) q.val c e)
        | .ok xl =>
          let s2 := pushCmd s1 q.val { c with xl := xl }
          .next (if (i + 1) % 2 ^ 32 = x.tail then writeQsb s2 q.val else s2)
  else .next s

/-! ### Start and arbitration (R154, R155, R175) -/

/-- FENCE, WAIT, SIGNAL and RFENCE hold back every later command of their queue (R155, R396). -/
def isBarrier (c : Cmd) : Bool := (1 ≤ cmdOpcode c && cmdOpcode c ≤ 3) || cmdOpcode c = 0x41

/-- The next command of a queue that has not started, when its ordering lets it start (R154, R155). -/
def readyCmd (x : Queue) : Option Cmd :=
  let before := x.cmds.takeWhile (fun c => c.stage != CmdStage.fetched)
  match x.cmds.find? (fun c => c.stage == CmdStage.fetched) with
  | none => none
  | some c =>
    if (x.state == .opened || x.state == .closing) && !x.held
        && (before.isEmpty || (bit (cmdFlags c) 3 && !before.any isBarrier)) then some c else none

/-- Queues of one engine instance that have a command ready. -/
def readyQueues (s : State) (engine inst : Nat) : List (Nat × Queue) :=
  s.eng.queues.filter fun p => p.2.engine == engine && p.2.inst == inst && (readyCmd p.2).isSome && engineUp s p.2

/-- The first of some queues after the one served last, cyclically. -/
def roundRobin (last : Nat) (l : List Nat) : Option Nat :=
  match l.find? (fun q => last < q) with
  | some q => some q
  | none => l.head?

/-- The queue an engine instance starts next (R175): a queue passed over 64 times first, else the highest PRIORITY, in
round-robin order among equals. -/
def arbitrate (s : State) (engine inst : Nat) : Option Nat :=
  let r := readyQueues s engine inst
  let aged := r.filter (fun p => 64 ≤ p.2.passed)
  let pool := if aged.isEmpty then r else aged
  let top := pool.foldl (fun m p => max m p.2.priority) 0
  roundRobin (tget 0 s.eng.lastServed (32 * engine + inst)) ((pool.filter (fun p => p.2.priority == top)).map (·.1))

/-- A Copy Engine instance with 8 suspended commands starts none (R325). -/
def copyFull (s : State) (engine inst : Nat) : Bool := engine = 1 && 8 ≤ suspendedOn s inst

/-- COMMAND_START (R151, R154, R155, R175): a change of a tag's generation since fetch translates the fields again. -/
def execCommandStart (q : QueueNo) (i : Nat) (s : State) : Host.Outcome State Fault Refusal := whenLive s <|
  let x := queue s q.val
  match readyCmd x with
  | none => .next s
  | some c =>
    if c.index = i && arbitrate s x.engine x.inst = some q.val && !copyFull s x.engine x.inst then
      let served := (readyQueues s x.engine x.inst).foldl
        (fun s p => if p.2.priority < x.priority then setQueue s p.1 { p.2 with passed := p.2.passed + 1 } else s) s
      let s1 := { served with eng := { served.eng with lastServed := tput served.eng.lastServed (32 * x.engine + x.inst) q.val } }
      let g := genNow s x c.bytes
      let go (s : State) (xl : List (Nat × Option Loc)) : State :=
        setQueue s q.val (putCmd { queue s q.val with passed := 0, started := (i + 1) % 2 ^ 32 }
          { c with stage := .started, gen := g.1, namedGen := g.2, xl := xl, leaves := heldLeaves s x c.bytes
                   grants := heldGrants s x c.bytes })
      if g = (c.gen, c.namedGen) then .next (go s1 c.xl)
      else
        let s2 := noteFields s1 x c.bytes (allFields c.bytes)
        match translateFields s2 x c.bytes (allFields c.bytes) with
        | .ok xl => .next (go s2 xl)
        | .error e =>
          let s3 := if e.status = stPoisoned then poisonConsumed s2 x.owner e.result else s2
          .next (errorStop s3 q.val c e)
    else .next s

/-! ### Completion (R156, R158, R161) -/

/-- Whether HALT_ON_FAIL stops the queue on this outcome (R158). -/
def haltsOn (c : Cmd) (r : CmdRes) : Bool :=
  bit (cmdFlags c) 4 && ((r.status ≠ stOk && r.status ≠ stWaitPage) || (cmdOpcode c = 0x02 && r.detail = 1))

/-- The steps of R156 for a command that has ended: counter, record, QSB, interrupt; then a stop under HALT_ON_FAIL. -/
def completeCmd (s : State) (q : Nat) (c : Cmd) (r : CmdRes) : State :=
  let x := queue s q
  let quiet := (tget {} s.tenants x.owner).resetting.isSome
  let s1 := match cmdCounter c with
    | some va => if c.counted || quiet then s else match cmdLoc c 56 with
      | some l => counterAt s l
      | none => counterAdd s c.leaves x.asid va
    | none => s
  let rcd := bit (cmdFlags c) 0
  let s2 := if rcd then writeRecord s1 q c r else s1
  let x3 := removeCmd (queue s2 q) c.index
  let s3 := setQueue s2 q { x3 with done := doneOf x3 }
  let s4 := if rcd then writeQsb s3 q else s3
  let s5 := if bit (cmdFlags c) 1 && x.vector ≠ 0xFFFF && !quiet then raiseVec s4 x.owner x.vector else s4
  if haltsOn c r then stopQueue s5 q c.index r.status else s5

/-- COMMAND_COMPLETE (R156, R167): a LAUNCH whose blocks have all ended completes once nothing that they issued is outstanding; an error outcome writes its error record and stops the queue instead (R159). -/
def execCommandComplete (q : QueueNo) (i : Nat) (s : State) : Host.Outcome State Fault Refusal := whenLive s <|
  match findCmd (queue s q.val) i with
  | none => .next s
  | some c => match c.stage with
    | .ended r =>
      if r.error then
        let s1 := if r.status = stPoisoned then poisonConsumed s (queue s q.val).owner r.result else s
        .next (errorStop s1 q.val c r)
      else .next (completeCmd s q.val c r)
    | .fetched => .next s
    | .started => .next s
    | .running => match s.eng.launches.find? (fun p => p.2.queue == q.val && p.2.index == i) with
      | some (n, l) =>
        if l.stopping.isNone && l.ended = l.blocks && !lateOps s n then
          .next (completeCmd { s with eng := { s.eng with launches := tdel s.eng.launches n } } q.val c { status := stOk })
        else .next s
      | none => .next s

/-! ### Common commands (R162 to R164) -/

/-- The poisoned sector among the 8 bytes at a location, if any. -/
def locPoison (s : State) : Loc → Option Nat
  | .dev a => poisonIn s a 8
  | .host _ _ _ => none

/-- A command that needs nothing but its counter (R162). -/
def noRange (_ : Cmd) : Option CmdRes := none

/-- NOP (R162). -/
def execNop (q : QueueNo) (i : Nat) (s : State) : Host.Outcome State Fault Refusal := whenLive s <|
  .next (runCmd s q.val i 0x00 noRange fun s _ _ => endCmd s q.val i { status := stOk })

/-- Whether a command is the oldest of its queue that has not completed. -/
def isOldest (x : Queue) (i : Nat) : Bool := x.cmds.head?.any fun c => c.index == i

/-- FENCE (R163): complete once every earlier command of its queue has completed. -/
def execFence (q : QueueNo) (i : Nat) (s : State) : Host.Outcome State Fault Refusal := whenLive s <|
  .next (runCmd s q.val i 0x01 noRange fun s _ _ =>
    if isOldest (queue s q.val) i then endCmd s q.val i { status := stOk } else s)

/-- Forgets the wait of a waiter. -/
def dropWait (s : State) (w : Waiter) : State := { s with memWaits := s.memWaits.filter (fun m => m.who != w) }

/-- The wait of a WAIT command, if it has one. -/
def waitOf (s : State) (q i : Nat) : Option MemWait := s.memWaits.find? fun m => m.who == .cmd q i

/-- Evaluates a WAIT once: it ends with DETAIL 0 when its condition is met, else it waits, with the value that it has read (R164). -/
def waitEval (s : State) (q i : Nat) (c : Cmd) (l : Loc) : State :=
  match locPoison s l with
  | some d => endCmd (dropWait s (.cmd q i)) q i { status := stPoisoned, result := d, error := true }
  | none =>
    let v := leNat (locRead s l 8)
    let s0 := dropWait (locTouch s l 8) (.cmd q i)
    if waitCond (cmdOpflags c) v (field c.bytes 16 8) then endCmd s0 q i { status := stOk, result := v }
    else
      let s1 := setStage s0 q i .running
      { s1 with memWaits := s1.memWaits ++ [{ who := .cmd q i, loc := l, cond := cmdOpflags c, value := field c.bytes 16 8, seen := v }] }

/-- WAIT (R164): the evaluation at its start. Later writes of the 8 bytes evaluate it again at their home (`wakeWaits`). -/
def execWaitCmd (q : QueueNo) (i : Nat) (s : State) : Host.Outcome State Fault Refusal := whenLive s <|
  .next (runCmd s q.val i 0x02 waitRange fun s c _ => match cmdLoc c 8 with
    | some l => waitEval s q.val i c l
    | none => s)

/-- WAIT_TIMEOUT (R164): with a timer running, the WAIT ends with DETAIL 1 and the value last read; one that is suspended has read none. -/
def execWaitTimeout (q : QueueNo) (i : Nat) (s : State) : Host.Outcome State Fault Refusal := whenLive s <|
  match runningCmd s q.val i 0x02 with
  | none => .next s
  | some c =>
    if field c.bytes 24 4 = 0 then .next s
    else
      let v := match waitOf s q.val i with
        | some w => w.seen
        | none => 0
      .next (endCmd (dropSusp (dropWait s (.cmd q.val i)) q.val i) q.val i { status := stOk, detail := 1, result := v })

/-- WAIT_HOST_POLL (R164): a WAIT on host memory evaluates its condition again. -/
def execWaitHostPoll (q : QueueNo) (i : Nat) (s : State) : Host.Outcome State Fault Refusal := whenLive s <|
  match runningCmd s q.val i 0x02, waitOf s q.val i with
  | some c, some w => match w.loc with
    | .host f a p => .next (waitEval s q.val i c (.host f a p))
    | .dev _ => .next s
  | _, _ => .next s

/-- SIGNAL's operation (R162). -/
def signalOp (op v x : Nat) : Nat :=
  match op with
  | 0 => x
  | 1 => (v + x) % 2 ^ 64
  | _ => max v x

/-- SIGNAL (R163): one atomic at the home of the location; RESULT is the value before it. -/
def execSignal (q : QueueNo) (i : Nat) (s : State) : Host.Outcome State Fault Refusal := whenLive s <|
  .next (runCmd s q.val i 0x03 noRange fun s c _ => match cmdLoc c 8 with
    | none => s
    | some l => match locPoison s l with
      | some d => endCmd s q.val i { status := stPoisoned, result := d, error := true }
      | none =>
        let v := leNat (locRead s l 8)
        endCmd (locWrite s l (leBytes 8 (signalOp (cmdOpflags c) v (field c.bytes 16 8)))) q.val i { status := stOk, result := v })

end Sys2Proof.Machine
end

