-- ==== Sys2Proof/Machine/Sessions.lean ====
section
/-!
DEFINITION. The Session Engine commands RESERVE, STAT, MERGE_ARM and MERGE_ABORT, and the end of a row zero-fill (R122 to R126,
R135, R143, R144, R172, R173).
-/

namespace Sys2Proof.Machine

/-- A session that an instance may name: it exists and is the instance's own (R143). -/
def ownSession (s : State) (inst n : Nat) : Bool :=
  n < 16384 && (session s n).state != .free && (session s n).owner == inst

/-- In serving mode PCF drives the steps, and these commands complete with WRONG_STATE, DETAIL 1 (R173). -/
def servingRefusal (s : State) : Option CmdRes :=
  if s.serving.mode = 1 then some { status := stWrongState, detail := 1 } else none

/-- Range checks of RESERVE on the command's own fields (R126), by byte offset. -/
def reserveRange (cls st f d : Nat) : Option CmdRes :=
  if 1 < cls then some { status := stBadRequest, detail := 12 }
  else if 7 < st && st ≠ 0xFF then some { status := stBadRequest, detail := 13 }
  else if (cls = 0 && 9 < f + d) || (cls = 1 && 4096 < f) then some { status := stBadRequest, detail := 14 }
  else if 8 < d then some { status := stBadRequest, detail := 16 }
  else none

/-- The refusal of a RESERVE before any row is asked for, if any (R126, R142, R143). A field out of range and a session that is not found
come before R173's WRONG_STATE of serving mode (DESIGN CHOICE, log entry 50). -/
def reserveRefusal (s : State) (inst n cls st f d : Nat) : Option CmdRes :=
  let x := session s n
  match reserveRange cls st f d with
  | some r => some r
  | none =>
    if !ownSession s inst n then some { status := stNotFound }
    else if x.maxTokens < x.c + f + d then some { status := stBadRequest, detail := 14 }
    else match servingRefusal s with
      | some r => some r
      | none =>
        if x.state = .waitPage || (x.state = .active && x.resv ≠ .none) then some { status := stBusy }
        else if x.state ≠ .active then some { status := stWrongState, detail := sessCode x.state }
        else if s.twin.fenced && bit x.sflags 0 then some { status := stWrongState, detail := 5 }
        else if !rowRoom s x.owner (sourceStack x st) (entriesNeeded x f d).length then some { status := stQuota }
        else none

/-- Whether the pool can serve a pop of `n` rows for a class (R122). A reservation that needs no new row asks for no pop, and is served
whatever the free count and the wait list (DESIGN CHOICE, log entry 50). -/
def popServed (s : State) (st cls n : Nat) : Bool :=
  let p := pool s st
  n = 0 || (if cls = 1 then n + reserveRows s st ≤ p.free.length else n ≤ p.free.length && p.wait.isEmpty)

/-- A RESERVE that was not refused: served, waiting for its zero-fill, parked, or POOL_EMPTY (R122 to R124, R126). -/
def reserveApply (s : State) (q i : Nat) (c : Cmd) (n cls st0 f d : Nat) : State :=
  let x := session s n
  let st := sourceStack x st0
  let need := (entriesNeeded x f d).length
  if popServed s st cls need then
    let r := popRows s st need
    if needFill r.1 st x.owner r.2 then
      setStage (setSession r.1 n { session r.1 n with
        resv := .filling { cls := cls, stack := st, f := f, d := d, queue := q, index := i, rows := r.2 } }) q i .running
    else
      endCmd (openResv r.1 n st f d r.2) q i { status := stOk, result := reserveResult (x.gen + 1) need x.c }
  else if cls = 1 then
    endCmd (bump s (dieReg st sesPoolEmptyCnt)) q i { status := stPoolEmpty, detail := st }
  else
    let p : PendResv := { cls := cls, stack := st, f := f, d := d, queue := q, index := i, counter := (cmdCounter c).bind fun _ => cmdLoc c 56 }
    let s1 := setSession s n { x with state := .waitPage, resv := .pending p }
    let s2 := bump (setPool s1 st { pool s1 st with wait := (pool s1 st).wait ++ [n] }) (dieReg st sesWaitPageCnt)
    let s3 := { s2 with serving := { s2.serving with cnt := { s2.serving.cnt with waitPage := s2.serving.cnt.waitPage + 1 } } }
    let s4 := eventTo s3 x.owner x.owner 0x0003 n st 0 0
    markCounted (endCmd s4 q i { status := stWaitPage, result := reserveResult (x.gen + 1) 0 x.c }) q i

/-- A RESERVE of the session is being served and its zero-fill runs: the commands that arrive behind it wait, since a session's commands
are applied in the order of their arrival (R128). -/
def behindFill (x : Session) : Bool := x.state != .waitPage && match x.resv with
  | .filling _ => true
  | _ => false

/-- RESERVE (R126). -/
def execReserve (q : QueueNo) (i : Nat) (s : State) : Host.Outcome State Fault Refusal := whenLive s <|
  match startedCmd s q.val i 0x31 with
  | none => .next s
  | some c =>
    let x := queue s q.val
    let n := field c.bytes 8 4
    let cls := field c.bytes 12 1
    let st := field c.bytes 13 1
    let f := field c.bytes 14 2
    let d := field c.bytes 16 1
    if ownSession s x.owner n && behindFill (session s n) then .next s
    else match reserveRefusal s x.owner n cls st f d with
      | some r => .next (endCmd s q.val i r)
      | none => .next (reserveApply s q.val i c n cls st f d)

/-- ROW_ZERO_FILL_COMPLETE (R124): the rows of other owners are zero and the reservation takes effect. -/
def execRowZeroFillComplete (n : Nat) (s : State) : Host.Outcome State Fault Refusal := whenLive s <|
  let x := session s n
  match x.resv with
  | .filling p =>
    let s1 := fillRows s p.stack x.owner p.rows
    if x.state = .waitPage then .next (servePending s1 n p p.rows)
    else .next (endCmd (openResv s1 n p.stack p.f p.d p.rows) p.queue p.index
      { status := stOk, result := reserveResult (x.gen + 1) p.rows.length x.c })
  | _ => .next s

/-- The 1,056 bytes of STAT (R144). -/
def statBytes (x : Session) : List Byte :=
  let openCode := match x.resv with
    | .none => 0
    | .opened => 1
    | .pending _ => 2
    | .filling _ => if x.state = .waitPage then 2 else 0
  leBytes 4 x.c ++ leBytes 4 x.f ++ leBytes 4 x.t ++ leBytes 2 x.gen.toNat ++ leBytes 1 (sessCode x.state)
    ++ leBytes 1 (stackMask x) ++ leBytes 4 (kvSpan x.net) ++ leBytes 4 x.rowMap.length ++ leBytes 1 openCode ++ zeros 7
    ++ (List.range 1024).map fun j => match x.rowMap.find? (fun r => r.1 == j) with
        | some r => BitVec.ofNat 8 r.2.stack
        | none => 0xFF

/-- STAT (R144). -/
def execStat (q : QueueNo) (i : Nat) (s : State) : Host.Outcome State Fault Refusal := whenLive s <|
  match startedCmd s q.val i 0x34 with
  | none => .next s
  | some c =>
    let x := queue s q.val
    let n := field c.bytes 8 4
    if !ownSession s x.owner n then .next (endCmd s q.val i { status := stNotFound })
    else if behindFill (session s n) then .next s
    else if (session s n).state = .shadow then
      .next (endCmd s q.val i { status := stWrongState, detail := sessCode .shadow })
    else
      let r := writeBuf s x c 16 (field c.bytes 16 8) (statBytes (session s n))
      .next (endCmd r.1 q.val i (r.2.getD { status := stOk }))

/-! ### Merge slots (R135) -/

def mergeSlot (s : State) (d n : Nat) : Option MergeSlot := (s.sess.slots.find? (fun p => p.1 == 64 * d + n)).map (·.2)
def setMergeSlot (s : State) (d n : Nat) (m : MergeSlot) : State :=
  { s with sess := { s.sess with slots := tput s.sess.slots (64 * d + n) m } }
def freeMergeSlot (s : State) (d n : Nat) : State := { s with sess := { s.sess with slots := tdel s.sess.slots (64 * d + n) } }

/-- A tag assigned to an instance: a VF's own block, and for the PF every tag that no VF holds but PCF's tag 0 (R309, R428). -/
def asidOwned (s : State) (inst asid : Nat) : Bool :=
  let held (v : Nat) : Bool :=
    let c := (tenant s v).cfg
    c.asidBase ≤ asid && asid < c.asidBase + c.asidCount
  if inst = 0 then asid ≠ 0 && asid < 4096 && !(List.range 64).any held else held inst

/-- An instance may name a tag in a command: its own, and the PF a VF's as well (R169, R172, R309). -/
def asidMayName (s : State) (inst asid : Nat) : Bool := asidOwned s inst asid || (inst = 0 && asid ≠ 0 && asid < 4096)

/-- Bytes of one output vector (R137). -/
def vectorBytes (m : MergeSlot) : Nat := m.headDim * (if m.outFormat = 0 then 4 else 2)

/-- Writes vector `v` of a slot, and when it was the last, releases the counter and frees the slot (R137, R138). An output vector or a
counter whose address has no translation when it is written is passed over, and the slot goes on (DESIGN CHOICE, log entry 50). -/
def mergeOutput (s : State) (d n : Nat) (v : Nat) (bs : List Byte) : State :=
  match mergeSlot s d n with
  | none => s
  | some m =>
    let s1 := match vaWrite s m.leaves m.asid (m.outVA + v * m.stride) bs with
      | some s' => s'
      | none => s
    let m1 := { m with written := m.written ++ [v] }
    if m1.written.length = m1.vectors then counterAdd (freeMergeSlot s1 d n) m.leaves m.asid m.counterVA
    else setMergeSlot s1 d n m1

/-- MERGE_ARM's range checks (R135, R172), by byte offset. -/
def mergeArmRange (s : State) (owner : Nat) (c : Cmd) : Option CmdRes :=
  let bad (off : Nat) : Option CmdRes := some { status := stBadRequest, detail := off }
  if 63 < field c.bytes 8 1 then bad 8
  else if 1 < field c.bytes 9 1 then bad 9
  else if ! [64, 128, 256].contains (field c.bytes 10 2) then bad 10
  else if field c.bytes 12 4 = 0 || 32768 < field c.bytes 12 4 then bad 12
  else if !asidMayName s owner (field c.bytes 48 2) then bad 48
  else none

/-- The first output vector of a MERGE_ARM that cannot be written where it is to go (R135, R320). -/
def mergeOutFault (s : State) (x : Queue) (c : Cmd) : Option CmdRes :=
  (fieldRanges c.bytes { off := 16, w := true }).findSome? fun r => reachRes 16 (cmdReach s x c 16 true r.1 r.2)

/-- MERGE_ARM (R135): vectors with mask 0 are written as +0 at arming. -/
def execMergeArm (q : QueueNo) (i : Nat) (s : State) : Host.Outcome State Fault Refusal := whenLive s <|
  match startedCmd s q.val i 0x35 with
  | none => .next s
  | some c =>
    let x := queue s q.val
    let slot := field c.bytes 8 1
    let asid := field c.bytes 48 2
    let fin (r : CmdRes) : Host.Outcome State Fault Refusal := .next (endCmd s q.val i r)
    match mergeArmRange s x.owner c with
    | some r => fin r
    | none => match servingRefusal s with
      | some r => fin r
      | none =>
        if (mergeSlot s x.inst slot).isSome then fin { status := stBusy }
        else match readBuf s x c 32 (field c.bytes 32 8) (field c.bytes 12 4), mergeOutFault s x c with
          | (s0, .error r), _ => .next (endCmd s0 q.val i r)
          | (s0, .ok _), some r => .next (endCmd s0 q.val i r)
          | (s0, .ok masks), none =>
            let m : MergeSlot := { owner := x.owner, asid := asid, vectors := field c.bytes 12 4, headDim := field c.bytes 10 2,
                                   outFormat := field c.bytes 9 1, outVA := field c.bytes 16 8, stride := field c.bytes 24 8,
                                   masks := masks, counterVA := field c.bytes 40 8 }
            let m : MergeSlot := { m with leaves := c.leaves.filter fun e => e.asid == asid }
            let s1 := setMergeSlot s0 x.inst slot m
            let empty := (List.range m.vectors).filter fun v => masks.getD v 0 == 0
            let s2 := empty.foldl (fun s v => mergeOutput s x.inst slot v (zeros (vectorBytes m))) s1
            .next (endCmd s2 q.val i { status := stOk })

/-- MERGE_ABORT (R135, R172): the slot is free at once; outputs written stay, and the counter is not incremented. -/
def execMergeAbort (q : QueueNo) (i : Nat) (s : State) : Host.Outcome State Fault Refusal := whenLive s <|
  match startedCmd s q.val i 0x36 with
  | none => .next s
  | some c =>
    let x := queue s q.val
    let slot := field c.bytes 8 1
    let fin (r : CmdRes) : Host.Outcome State Fault Refusal := .next (endCmd s q.val i r)
    if 63 < slot then fin { status := stBadRequest, detail := 8 }
    else match servingRefusal s with
    | some r => fin r
    | none =>
      match mergeSlot s x.inst slot with
      | none => fin { status := stWrongState }
      | some m =>
        if m.owner = x.owner then .next (endCmd (freeMergeSlot s x.inst slot) q.val i { status := stOk })
        else fin { status := stWrongState }

end Sys2Proof.Machine
end

