-- ==== Sys2Proof/Machine/Copy.lean ====
section
/-!
DEFINITION. The Copy Engines' commands, invalidation and withdrawal of mappings, table walks, and
completions of host reads (R169 to R171, R319, R322 to R331).
-/

namespace Sys2Proof.Machine

/-! ### Moving bytes (R169, R170) -/

/-- Single bytes of pieces. -/
def byteLocs (l : List (Loc × Nat)) : List Loc := l.flatMap fun p => (List.range p.2).map fun k => match p.1 with
  | .dev a => Loc.dev (a + k)
  | .host f a p => Loc.host f (a + k) p

/-- Whether a source and a destination meet. -/
def piecesMeet (a b : List (Loc × Nat)) : Bool := a.any fun p => b.any fun q => match p.1, q.1 with
  | .dev x, .dev y => overlaps x p.2 y q.2
  | .host _ x _, .host _ y _ => overlaps x p.2 y q.2
  | _, _ => false

/-- A copy, source before destination. Where they meet, software has broken R170, and a free bit decides whether the source bytes
are those of the start or those left by the bytes copied before. -/
def copyMove (s : State) (uc : Bool) (src dst : List (Loc × Nat)) : State :=
  if piecesMeet src dst then
    let s1 := { s with free := s.free + 1 }
    if bit (Config.freeWord s.free).toNat 0 then
      ((byteLocs src).zip (byteLocs dst)).foldl (fun s p => copyWrite s uc p.2 (locRead s p.1 1)) s1
    else copyPut s1 uc (readPieces s src) dst
  else copyPut s uc (readPieces s src) dst

/-- OPFLAGS bit 0: the lines that cover the destination are invalidated before the command completes (R169, R257). -/
def copyInval (s : State) (l : List (Loc × Nat)) : State := l.foldl (fun s p => match p.1 with
  | .dev a => invalRange s a p.2
  | .host _ _ _ => s) s

/-- COPY (R169, R170). RESULT is the number of bytes copied. -/
def execCopy (q : QueueNo) (i : Nat) (s : State) : Host.Outcome State Fault Refusal := whenLive s <|
  .next (runCmd s q.val i 0x20 copyRange fun s c l =>
    let src := piecesOf l 8
    let dst := piecesOf l 16
    let s0 := touchPieces s src
    match piecesPoison s0 src with
    | some d => endCmd s0 q.val i { status := stPoisoned, result := d, error := true }
    | none =>
      let s2 := copyMove s0 (bit (cmdOpflags c) 1) src dst
      let s3 := if bit (cmdOpflags c) 0 then copyInval s2 dst else s2
      endCmd s3 q.val i { status := stOk, result := field c.bytes 24 8 * field c.bytes 32 4 })

/-- FILL (R169). -/
def execFill (q : QueueNo) (i : Nat) (s : State) : Host.Outcome State Fault Refusal := whenLive s <|
  .next (runCmd s q.val i 0x21 copyRange fun s c l =>
    let dst := piecesOf l 8
    let s1 := copyPut s (bit (cmdOpflags c) 1) (patternBytes (leBytes 8 (field c.bytes 24 8)) (field c.bytes 16 8)) dst
    let s2 := if bit (cmdOpflags c) 0 then copyInval s1 dst else s1
    endCmd s2 q.val i { status := stOk })

/-- UC_INVAL (R169, R257). -/
def execUcInval (q : QueueNo) (i : Nat) (s : State) : Host.Outcome State Fault Refusal := whenLive s <|
  .next (runCmd s q.val i 0x22 copyRange fun s _ l => endCmd (copyInval s (piecesOf l 8)) q.val i { status := stOk })

/-! ### Table walks and host reads (R319, R322, R326) -/

/-- TABLE_WALK (R313, R318, R319): a walk from the root, counted, its entries read coherently; the valid entries that it meets are cached
in place of older ones. -/
def execTableWalk (d : DieNo) (asid va : Nat) (s : State) : Host.Outcome State Fault Refusal := whenLive s <|
  if va / 2 ^ 47 ≠ 0 || 4096 ≤ asid then .next s
  else
    let s1 := readRoot s asid
    let r := fullWalk s1 asid va
    let s2 := bump (r.2.1.foldl (fun s a => touchRead s a 8) s1) (dieReg d.val xltWalkCnt)
    let fresh (p : PtrEntry) : Bool := !r.2.2.any fun n => n.asid == p.asid && n.level == p.level && n.va == p.va
    let s3 := { s2 with xlat := { s2.xlat with ptrs := r.2.2 ++ s2.xlat.ptrs.filter fresh } }
    match r.1 with
    | .leaf e => .next { s3 with xlat := { s3.xlat with
        tlb := e :: s3.xlat.tlb.filter fun f => !(f.asid == e.asid && overlaps f.va f.size e.va e.size) } }
    | .poisoned _ => .next s3
    | .miss bad => .next (if bad then bump s3 (dieReg d.val xltBadPteCnt) else s3)

/-- The address fields of a command whose memory it reads while it runs (R162, R169, R172, R174). -/
def readsField (c : Cmd) (off : Nat) : Bool :=
  match cmdOpcode c, off with
  | 0x02, 8 => true
  | 0x03, 8 => true
  | 0x20, 8 => true
  | 0x30, 16 => c.stage == .started
  | 0x35, 32 => true
  | 0x40, 8 => c.stage == .started
  | _, _ => false

/-- The increment of a command's counter is still to come, after its effects (R156). -/
def counterDue (c : Cmd) : Bool := match c.stage with
  | .ended r => bit (cmdFlags c) 2 && !c.counted && !r.error
  | _ => false

/-- HOST_READ_COMPLETION (R322, R326): Unsupported Request or Completer Abort ends a command with PAGE_FAULT, as an unresolved fault does,
and stops a thread's launch with XLATE_FAULT; a thread's read that succeeds is performed. -/
def execHostReadCompletion (r : HostReader) (ok : Bool) (s : State) : Host.Outcome State Fault Refusal := whenLive s <|
  match r with
  | .cmd q i off va =>
    match findCmd (queue s q.val) i with
    | none => .next s
    | some c =>
      let made := ((c.stage = .started || c.stage = .running) && readsField c off) || (off = 56 && counterDue c)
      if ok || !made || va / 2 ^ 48 ≠ 1 then .next s
      else .next (faultEnds (dropWait s (.cmd q.val i)) q.val i off va)
  | .thread k n =>
    match (coreAt s k.val).accs.find? (fun a => a.seq == n) with
    | none => .next s
    | some a => match a.host with
      | some (.host f addr _) => if ok then .next (performHost s k.val a f addr)
          else .next (threadFault (dropAcc s k.val n) k.val a.slot a.va false)
      | _ => .next s
  | .wait k slot t =>
    match ldwaitOf s k.val slot.val t.val with
    | none => .next s
    | some w => match w.loc with
      | .host _ _ _ => if ok then .next s else .next (threadFault (dropWait s w.who) k.val slot.val w.va false)
      | .dev _ => .next s

/-! ### Invalidation (R323, R327, R331) -/

/-- A block of a launch under the tag is resident (R323). -/
def residentUnder (s : State) (asid : Nat) : Bool :=
  s.cores.any fun p => p.2.blocks.any fun b => match launchAt s b.2.launch with
    | some l => launchTag s l == asid
    | none => false

/-- The leaves of the tables below a table that meet a range (R317 to R319); the fuel is the number of levels left. -/
def tableLeaves (s : State) (asid lo hi : Nat) : Nat → Nat → Nat → Nat → List TlbEntry
  | 0, _, _, _ => []
  | fuel + 1, l, table, base =>
    (List.range (if l = 4 then 32 else 512)).flatMap fun k =>
      let v := base + k * 2 ^ levelShift l
      if v + 2 ^ levelShift l ≤ lo || hi ≤ v then []
      else match readPte s asid l (leNat (homeRead s (table + 8 * k) 8)) with
        | .leaf d w x pin => [{ asid := asid, va := v, size := 2 ^ levelShift l, dpa := d, w := w, x := x, pin := pin }]
        | .pointer t => tableLeaves s asid lo hi fuel (l + 1) t v
        | .invalid => []
        | .bad => []

/-- A leaf of the tag meets the range. -/
def leafMeets (asid lo n : Nat) (e : TlbEntry) : Bool := e.asid == asid && overlaps e.va e.size lo n

/-- The range of the tag holds a leaf in use (R323). -/
def leafInUse (s : State) (asid lo n : Nat) : Bool :=
  s.eng.queues.any (fun p => p.2.state != .closed
    && (p.2.leaves.any (leafMeets asid lo n)
      || (p.2.engine ≠ 1 && p.2.cmds.any fun c => c.stage != CmdStage.fetched && c.leaves.any (leafMeets asid lo n))))
    || s.sess.slots.any (fun p => p.2.leaves.any (leafMeets asid lo n))
    || (residentUnder s asid && (match rootTable s asid with
        | .table t => (tableLeaves s asid lo (lo + n) 4 1 t 0).any (·.pin)
        | .poisoned _ => false
        | .none => false))

/-- Commands that have started and hold a translation of the tag that covers the range, an XLAT_INVAL apart: nothing that one waits for
waits for another (R327). -/
def holders (s : State) (asid lo n : Nat) : List (Nat × Nat) :=
  s.eng.queues.flatMap fun p =>
    (p.2.cmds.filter fun c => c.stage != CmdStage.fetched && cmdOpcode c ≠ 0x23 && c.leaves.any (leafMeets asid lo n)).map
      fun c => (p.1, c.index)

/-- Copy Engine commands that have started and hold a host page granted to a function under a PASID (R327, R331). -/
def grantHolders (s : State) (fn : Nat) (pasid : Option Nat) (addr bytes : Nat) : List (Nat × Nat) :=
  s.eng.queues.flatMap fun p =>
    if p.2.engine = 1 then
      (p.2.cmds.filter fun c => c.stage != CmdStage.fetched && c.grants.any fun g =>
        g.fn == fn && g.pasid == pasid && overlaps (g.page * 4096) 4096 addr bytes).map fun c => (p.1, c.index)
    else []

/-- Thread accesses in flight through a leaf of the tag that covers the range, as (core, sequence number) (R327). -/
def accessesIn (s : State) (asid lo n : Nat) : List (Nat × Nat) :=
  let mine (e : Option TlbEntry) : Bool := e.any (leafMeets asid lo n)
  s.cores.flatMap fun p =>
    (p.2.accs.filter (fun a => mine a.leaf)).map (fun a => (p.1, a.seq))
      ++ (p.2.storeQ.filter (fun e => mine e.leaf)).map (fun e => (p.1, e.seq))

/-- LDWAITs through a leaf of the tag that covers the range. -/
def waitsIn (s : State) (asid lo n : Nat) : List Waiter :=
  (s.memWaits.filter fun w => w.leaf.any (leafMeets asid lo n)).map (·.who)

/-- Increments XLT_INVAL_CNT on every C-die. -/
def countInval (s : State) : State := (List.range 8).foldl (fun s d => bump s (dieReg d xltInvalCnt)) s

/-- The tag's generation goes up by one (R327). -/
def raiseGen (s : State) (asid : Nat) : State :=
  { s with xlat := { s.xlat with gens := tput s.xlat.gens asid ((tagGen s asid + 1) % 2 ^ 32) } }

/-- A cached pointer entry serves an address of the range. -/
def ptrMeets (asid lo n : Nat) (p : PtrEntry) : Bool := p.asid == asid && overlaps p.va (2 ^ levelShift (p.level - 1)) lo n

/-- The instant of an XLAT_INVAL, and what it then waits for (R327). -/
def invalInstant (s : State) (q i asid lo n : Nat) (all : Bool) : State :=
  let w : InvalWait := { cmd := some (q, i), cmds := holders s asid lo n, accs := accessesIn s asid lo n, waits := waitsIn s asid lo n }
  let s1 := countInval (raiseGen s asid)
  let s2 := if all then dropTag s1 asid
    else { s1 with xlat := { s1.xlat with tlb := s1.xlat.tlb.filter fun e => !leafMeets asid lo n e
                                          ptrs := s1.xlat.ptrs.filter fun p => !ptrMeets asid lo n p } }
  setStage { s2 with xlat := { s2.xlat with invals := s2.xlat.invals ++ [w] } } q i .running

/-- A range that XLAT_INVAL names, or the whole paged region (R169). -/
def invalRange? (c : Cmd) : Nat × Nat := if field c.bytes 10 1 = 0 then (0, 2 ^ 47) else (field c.bytes 16 8, field c.bytes 24 8)

/-- XLAT_INVAL (R169, R327). -/
def execXlatInval (q : QueueNo) (i : Nat) (s : State) : Host.Outcome State Fault Refusal := whenLive s <|
  .next (runCmd s q.val i 0x23 (fun _ => none) fun s c _ =>
    let asid := field c.bytes 8 2
    let r := invalRange? c
    if !asidMayName s (queue s q.val).owner asid then endCmd s q.val i { status := stBadRequest, detail := 8 }
    else if r.2 % 65536 ≠ 0 then endCmd s q.val i { status := stBadRequest, detail := 24 }
    else if leafInUse s asid r.1 r.2 then endCmd s q.val i { status := stBusy }
    else invalInstant s q.val i asid r.1 r.2 (field c.bytes 10 1 = 0))

/-- Everything that an invalidation waits for has ended (R327). -/
def invalOver (s : State) (w : InvalWait) : Bool :=
  w.cmds.all (fun p => (findCmd (queue s p.1) p.2).isNone)
    && w.accs.all (fun p => !(coreAt s p.1).accs.any (fun a => a.seq == p.2) && !(coreAt s p.1).storeQ.any (fun e => e.seq == p.2))
    && w.waits.all (fun k => !s.memWaits.any (fun m => m.who == k))

/-- XLAT_INVAL_WAIT_END (R327, R331): the command completes with OK, or the Invalidation Completion is sent. -/
def execXlatInvalWaitEnd (k : Nat) (s : State) : Host.Outcome State Fault Refusal := whenLive s <|
  match s.xlat.invals[k]? with
  | none => .next s
  | some w =>
    if invalOver s w then
      let s1 := { s with xlat := { s.xlat with invals := s.xlat.invals.eraseIdx k } }
      match w.cmd with
      | some (q, i) => .next (endCmd s1 q i { status := stOk })
      | none => .next (emit s1 (.atsInvalDone w.fn))
    else .next s

/-- The tags that a host's invalidation applies to: PASID p is tag p where it is the function's; without PASID, every tag of the function that
sends without PASID (R331). -/
def atsTags (s : State) (fn : Nat) : Option Nat → List Nat
  | some p => if tagOwner s p = fn then [p] else []
  | none => if (pcieFn s fn).pasid then [] else (List.range 4096).filter fun t => t ≠ 0 && tagOwner s t = fn

/-- ATS_INVALIDATE_REQUEST (R331): at most 32 are outstanding (R30). -/
def execAtsInvalidateRequest (fn : FnNo) (pasid : Option Nat) (addr bytes : Nat) (s : State) : Host.Outcome State Fault Refusal := whenLive s <|
  if fnEnabled s fn.val && (s.xlat.invals.filter fun w => w.cmd.isNone && w.fn == fn.val).length < 32 then
    let w : InvalWait := { cmd := none, fn := fn.val, cmds := grantHolders s fn.val pasid addr bytes, accs := [], waits := [] }
    let s1 := countInval ((atsTags s fn.val pasid).foldl raiseGen s)
    .next { s1 with xlat := { s1.xlat with
      granted := s1.xlat.granted.filter fun g => !(g.fn == fn.val && g.pasid == pasid && overlaps (g.page * 4096) 4096 addr bytes)
      invals := s1.xlat.invals ++ [w] } }
  else .next s

end Sys2Proof.Machine
end

