-- ==== Sys2Proof/Machine/Fatal.lean ====
section
/-! DEFINITION. ACCEPTED operations as a whole, and the fatal stop of the package (R65, R532). -/

namespace Sys2Proof.Machine

/-- Every ACCEPTED operation that runs (R66). -/
def acceptedOps (s : State) : List OpId :=
  (s.serving.load.map (·.op)).toList ++ (s.serving.swap.map (·.op)).toList
    ++ s.tenants.flatMap (fun p => ((p.2.op.bind (·.op))).toList)
    ++ s.linkTests.map (·.2.op) ++ (s.twin.act.map (·.op)).toList ++ s.twin.detach.toList ++ s.twin.dieOps.map (·.2.op)
    ++ s.eng.queues.flatMap (fun p => p.2.closeOp.toList)

/-- Every ACCEPTED operation ends without its OP_DONE; a link test so ended leaves RESULT 3 (R534). -/
def endOps (s : State) : State :=
  { s with
    serving := { s.serving with load := none, swap := none }
    tenants := s.tenants.map fun p => (p.1, { p.2 with op := none })
    linkResults := s.linkTests.foldl (fun t p => tput t p.1 { tget {} t p.1 with result := 3 }) s.linkResults
    linkTests := []
    twin := { s.twin with act := none, detach := none, dieOps := [] }
    eng := { s.eng with queues := s.eng.queues.map fun p => (p.1, { p.2 with closeOp := none }) } }

/-- A queue at a fatal stop: STATE 3, STOP_INDEX its oldest unfinished command (R532). -/
def fatalQueue (s : State) (q : Nat) : State :=
  let x := queue s q
  if x.state = .closed then s
  else
    let x1 := dropFetched { x with state := .stopped, stopIndex := doneOf x, held := true }
    writeQsb (setQueue s q x1) q

/-- The steps of R532 with the record of the error. A command that has started stays, and either completes later or never. -/
def fatalStop (s : State) (r : ErrRec) : State :=
  if s.err.fatal then logErr s 0 r
  else
    let s1 := { s with err := { s.err with fatal := true, fatalCode := r.code } }
    let s2 := (s1.eng.queues.map (·.1)).foldl fatalQueue s1
    let s3 := ((liveSessions s2).map (·.1)).foldl freeSession s2
    let vfs := ((List.range 64).filter fun n => n ≠ 0 && fnEnabled s3 n)
    let idx (n : Nat) : Nat := (errLog s3 n).next
    let s4 := vfs.foldl (fun s n => logErr s n r) (logErr s3 0 r)
    let ops := acceptedOps s4
    let s5 := endOps s4
    if s5.start.pcfRunning then ops.foldl (fun s op => opDone s op stDeviceError (idx (opInst op.issuer) % 65536)) s5 else s5

end Sys2Proof.Machine
end

