-- ==== Sys2Proof/Machine/Host.lean ====
section
/-!
DEFINITION. The host attachment: configuration requests, register writes, mailbox commands (chapter 02).
-/

namespace Sys2Proof.Machine

/-! ### Configuration requests (R29 to R34) -/

def setPcieFn (s : State) (n : Nat) (f : PcieFn) : State := { s with pcie := { s.pcie with fns := tput s.pcie.fns n f } }

/-- HUB_DIE_ID.REV_MAJOR of a variant. -/
def hubRevMajor (v : Variant) : Nat := match v with
  | .h3 => 3
  | .h2 => 2

/-- PCIe Device ID of a function (R29). -/
def deviceId (v : Variant) (vf : Bool) : Nat := match v, vf with
  | .h3, false => 0x5083
  | .h2, false => 0x5082
  | .h3, true => 0x5093
  | .h2, true => 0x5092

/-- The identity fields of R29 in order: Vendor ID, Device ID, class code, Revision ID, Subsystem ID, Interrupt Pin. -/
def identityBytes (s : State) (n : Nat) : List Byte :=
  leBytes 2 0x1F3E ++ leBytes 2 (deviceId s.fuse.variant (n ≠ 0)) ++ leBytes 3 0x120000
    ++ leBytes 1 (hubRevMajor s.fuse.variant * 16 + s.fuse.hubRevMinor.toNat) ++ leBytes 2 0x0001 ++ leBytes 1 0

/-- BAR2 sizes by their code (R34). -/
def bar2Bytes (code : Nat) : Nat := 2 ^ (36 + code)

/-- The 64-bit window of a pair of base address registers, as (size, prefetchable); none where the pair is not implemented (R34). -/
def barPair (s : State) (vf : Bool) (k : Nat) : Option (Nat × Bool) :=
  if k / 2 = 0 then some (if vf then 2 ^ 16 else 2 ^ 24, false)
  else if k / 2 = 1 && !vf then some (bar2Bytes s.pcie.bar2Code, true)
  else none

/-- What base address register `k` reads: the address bits above the window's size, and in the low half type 64-bit memory and the
prefetchable bit, as the PCIe specification places them (R34, log entry 47). -/
def barValue (s : State) (vf : Bool) (k : Nat) : Nat := match barPair s vf k with
  | none => 0
  | some (size, pf) =>
    let t := if vf then s.pcie.vfBars else s.pcie.bars
    let a := (tget 0 t (k - k % 2)).toNat + (tget 0 t (k - k % 2 + 1)).toNat * 2 ^ 32
    let base := a - a % size
    if k % 2 = 0 then base % 2 ^ 32 + 4 + 8 * b2n pf else base / 2 ^ 32

/-- The options, limits and controls of a capability, in the order of R30's table; empty for one that the function does not present.
The rows that the table gives to the PF alone are absent from a VF (log entry 47). -/
def capBytes (s : State) (n : Nat) (c : CfgCap) : List Byte :=
  let f := pcieFn s n
  let p := pcieFn s 0
  let h3 := s.fuse.variant == .h3
  let pf (l : List Byte) : List Byte := if n = 0 then l else []
  match c with
  | .pciExpress => leBytes 2 512 ++ leBytes 2 4096 ++ leBytes 1 1 ++ leBytes 1 1 ++ leBytes 1 1 ++ leBytes 1 1
      ++ leBytes 2 (128 * 2 ^ p.mps) ++ leBytes 2 (128 * 2 ^ p.mrrs) ++ leBytes 1 (b2n p.extTag) ++ leBytes 1 (b2n p.tenBitTag)
  | .flitMode => if h3 then pf (leBytes 1 1) else []
  | .physicalLayer => pf (leBytes 1 1 ++ leBytes 1 1 ++ leBytes 1 1 ++ leBytes 1 (b2n h3))
  | .dataLinkFeature => pf (leBytes 1 1)
  | .powerManagement => leBytes 1 1 ++ leBytes 1 0 ++ leBytes 1 0 ++ leBytes 1 1 ++ leBytes 1 0 ++ leBytes 1 (if f.d3hot then 3 else 0)
  | .aspm => leBytes 1 0 ++ leBytes 1 1 ++ leBytes 1 0 ++ leBytes 1 (b2n p.aspmL1)
  | .msix => leBytes 2 (if n = 0 then 2048 else 64) ++ leBytes 1 (b2n f.msixEnable) ++ leBytes 1 (b2n f.msixMask)
  | .aer => pf (leBytes 1 (b2n s.pcie.aerCorMask) ++ leBytes 1 (b2n s.pcie.aerUncMask) ++ leBytes 1 (b2n s.pcie.aerUncFatal)
      ++ leBytes 1 (b2n s.pcie.aerCorStatus) ++ leBytes 1 (b2n s.pcie.aerUncStatus))
  | .serialNumber => pf (leBytes 8 s.fuse.serial.toNat)
  | .ari => pf (leBytes 1 1)
  | .sriov => pf (leBytes 2 63 ++ leBytes 2 63 ++ leBytes 2 s.pcie.numVFs ++ leBytes 2 1 ++ leBytes 2 1 ++ leBytes 4 0x1F
      ++ leBytes 4 (2 ^ s.pcie.pageSize) ++ leBytes 1 0 ++ leBytes 1 (b2n s.pcie.vfEnable))
  | .resizableBar => pf (leBytes 8 (bar2Bytes 0) ++ leBytes 8 (bar2Bytes 1) ++ leBytes 8 (bar2Bytes 2) ++ leBytes 8 (bar2Bytes 3)
      ++ leBytes 8 (bar2Bytes s.pcie.bar2Code))
  | .ats => leBytes 1 32 ++ leBytes 1 1 ++ leBytes 1 (b2n f.ats)
  | .pri => leBytes 2 (if n = 0 then 1024 else 64) ++ leBytes 1 (b2n f.pri)
  | .pasid => leBytes 1 20 ++ leBytes 1 0 ++ leBytes 1 0 ++ leBytes 1 (b2n f.pasid)
  | .absent => []

/-- The effect of a configuration request that completes normally. The link's and the package's controls (payload and read request
size, tags, ASPM, page size, BARs) are the PF's (R30, R34). -/
def cfgApply (s : State) (n : Nat) (op : CfgOp) : State :=
  let f := pcieFn s n
  let pfOnly (t : State) : State := emit (if n = 0 then t else s) (.completion 0 [] false)
  match op with
  | .readIdentity => emit s (.completion 0 (identityBytes s n) false)
  | .readCap c => emit s (.completion 0 (capBytes s n c) false)
  | .readBar k => emit s (.completion 0 (leBytes 4 (if n = 0 then barValue s false k.val else 0)) false)
  | .readVfBar k => emit s (.completion 0 (leBytes 4 (if n = 0 then barValue s true k.val else 0)) false)
  | .writeBar k w => pfOnly (if (barPair s false k.val).isSome then { s with pcie := { s.pcie with bars := tput s.pcie.bars k.val w } } else s)
  | .writeVfBar k w =>
    pfOnly (if (barPair s true k.val).isSome then { s with pcie := { s.pcie with vfBars := tput s.pcie.vfBars k.val w } } else s)
  | .setPayload c => pfOnly (setPcieFn s 0 { f with mps := c.val })
  | .setReadRequest c => pfOnly (setPcieFn s 0 { f with mrrs := c.val })
  | .setTags e t => pfOnly (setPcieFn s 0 { f with extTag := e, tenBitTag := t })
  | .setAspm l1 => pfOnly (setPcieFn s 0 { f with aspmL1 := l1 })
  | .setPageSize c => pfOnly { s with pcie := { s.pcie with pageSize := c.val } }
  | .setMemSpace on => emit (setPcieFn s n { f with memSpace := on }) (.completion 0 [] false)
  | .setMsix en mask => emit (flushPending (setPcieFn s n { f with msixEnable := en, msixMask := mask }) n) (.completion 0 [] false)
  | .setAts on => emit (setPcieFn s n { f with ats := on }) (.completion 0 [] false)
  | .setPri on => emit (setPcieFn s n { f with pri := on }) (.completion 0 [] false)
  | .setPasid on => emit (setPcieFn s n { f with pasid := on }) (.completion 0 [] false)
  | .setPower d3 => emit (setPcieFn s n { f with d3hot := d3 }) (.completion 0 [] false)
  | .setBar2Size c => pfOnly { s with pcie := { s.pcie with bar2Code := c.val } }
  | .setAer cm um fatal => pfOnly { s with pcie := { s.pcie with aerCorMask := cm, aerUncMask := um, aerUncFatal := fatal } }
  | .clearAer c u => pfOnly { s with pcie := { s.pcie with aerCorStatus := s.pcie.aerCorStatus && !c,
                                                           aerUncStatus := s.pcie.aerUncStatus && !u } }

/-- CONFIG_REQUEST (R31): Request Retry Status until the hub is ready; then a normal completion, or Unsupported Request
from a VF that is not enabled (R30). -/
def execConfigRequest (fn : FnNo) (op : CfgOp) (s : State) : Host.Outcome State Fault Refusal := whenLive s <|
  if s.start.hubReady then
    if fnEnabled s fn.val then .next (cfgApply s fn.val op) else .next (emit s (.completion 1 [] false))
  else .next (emit s (.completion 2 [] false))

/-! ### Register writes (R3 to R5, R36, R37, R490) -/

/-- A full write of a register that holds a value of its own; a write to STA_TEST_CTRL with its lock set raises
LOCK_VIOL (R490). -/
def regWrite (s : State) (a : Nat) (w : Word) : State :=
  let lock := a = staTestCtrl && (reg s staTestCtrl).getLsbD 31
  let s1 := setReg s a (BitVec.ofNat 32 (writeFields (reg s a).toNat w.toNat lock (fieldsAt a)))
  if lock then
    let s2 := if (reg s1 staLockErr).getLsbD 0 then s1 else setReg s1 staLockAddr (BitVec.ofNat 32 a)
    orReg s2 staLockErr 1
  else s1

/-- The enabled bytes of a four-byte access, as (offset, byte). -/
def enabledBytes (w : Word) (be : BitVec 4) : List (Nat × Byte) :=
  ((List.range 4).filter be.getLsbD).map fun i => (i, BitVec.ofNat 8 (w.toNat / 256 ^ i))

/-- Writes the enabled bytes into a window held as a table of bytes. -/
def winWrite (t : Tab Byte) (off : Nat) (w : Word) (be : BitVec 4) : Tab Byte :=
  (enabledBytes w be).foldl (fun t p => mset t (off + p.1) p.2) t

/-- A write of the MSI-X table of a function: any size; unmasked vectors then send what is pending (R36, R44). -/
def msixWrite (s : State) (n off : Nat) (w : Word) (be : BitVec 4) : State :=
  flushPending { s with pcie := { s.pcie with
    msix := (enabledBytes w be).foldl (fun t p => tput t (0x8000 * n + off + p.1) p.2) s.pcie.msix } } n

/-- A write of a request window (R36). -/
def reqWinWrite (s : State) (n off : Nat) (w : Word) (be : BitVec 4) : State :=
  let m := mbx s n
  setMbx s n { m with reqWin := winWrite m.reqWin off w be }

/-- How a partial register write is reported (R36): HUB_ERR.BAR0_SIZE for the PF, the VF's own error log for a VF. -/
def bar0Size (s : State) (n a : Nat) : State :=
  if n = 0 then hubError s 0 a
  else logErr s n { code := 0x1037, cls := 6, inst := n, arg := a }

/-- A host write of BAR0 outside the doorbells, the response window and the block windows, once it is performed (R3, R36): the
instance registers, the HUB block, the request window and the MSI-X table. A full write of a register with a row of its own is that
row's. -/
def bar0Write (s : State) (n a : Nat) (w : Word) (be : BitVec 4) : State :=
  if memSpaceOn s n then
    let inst := if n = 0 then a - 0x2000 else a
    let isInst := if n = 0 then 0x2000 ≤ a && a < 0x2100 else a < 0x100
    if isInst then
      if be ≠ 0xF then bar0Size s n a
      else if inst = 0 then s
      else regWrite s (instBase n + inst) w
    else if n = 0 then
      if 0x3000 ≤ a && a < 0x4000 then reqWinWrite s 0 (a - 0x3000) w be
      else if 0x10000 ≤ a && a < 0x18000 then msixWrite s 0 (a - 0x10000) w be
      else if 0x1000 ≤ a && a < 0x1100 then
        if be ≠ 0xF then bar0Size s 0 a
        else if a = hubAperture then s
        else regWrite s a w
      else if a < 0x100 then
        if be = 0xF then s else bar0Size s 0 a
      else s
    else if 0x1000 ≤ a && a < 0x2000 then reqWinWrite s n (a - 0x1000) w be
    else if 0x4000 ≤ a && a < 0x4400 then msixWrite s n (a - 0x4000) w be
    else if 0x6000 ≤ a && a < 0x6100 then
      if be = 0xF then s else bar0Size s n a
    else s
  else s

/-- Host writes are performed in order of arrival: one that meets a BAR2 access waiting for a die waits behind it (R55, R56). -/
def inOrder (s : State) (op : HostOp) (t : State) : State :=
  if s.power.held.isEmpty then t else { s with power := { s.power with held := s.power.held ++ [op] } }

/-- REGISTER_WRITE (R3, R36, R55). -/
def execRegisterWrite (fn : FnNo) (a : Nat) (w : Word) (be : BitVec 4) (s : State) : Host.Outcome State Fault Refusal := whenLive s <|
  .next (inOrder s (.regWrite fn.val a w be) (bar0Write s fn.val a w be))

/-- HUB_BAR2_APERTURE_WRITE (R39): the base of the BAR2 requests received after it. -/
def execHubBar2ApertureWrite (w : Word) (be : BitVec 4) (s : State) : Host.Outcome State Fault Refusal := whenLive s <|
  if memSpaceOn s 0 then
    if be = 0xF then .next (regWrite s hubAperture w) else .next (bar0Size s 0 hubAperture)
  else .next s

/-- Bit of `windows` for a PF BAR0 offset in a block window (R35, R88). -/
def windowBit (a : Nat) : Nat := if a < 0x800000 then 0 else 1 + (a - 0x800000) / 0x100000

def windowOpen (s : State) (a : Nat) : Bool := s.windows.getLsbD (windowBit a)

/-- What a host write to a block register window records, and whether it takes effect: a partial write is BAR0_SIZE (R36), a write to
a window that is not open BLK_WR (R37); one that is both records both. -/
def blockGuard (s : State) (a : Nat) (be : BitVec 4) : State × Bool :=
  let s1 := if be = 0xF then s else bar0Size s 0 a
  if windowOpen s a then (s1, be == 0xF) else (hubError s1 1 a, false)

/-- Block registers whose writes have rows of their own: SFC_CMD, CLEAT_TX_DATA, UC_PRED_CTRL, LNT_PAT_CTRL. -/
def ownRow (a : Nat) : Bool :=
  a = 0x471004 || a = 0x480020 || (0x800000 ≤ a && (a - 0x800000) % 0x100000 = ucPredCtrl)
    || (0x410000 ≤ a && a < 0x411000 && (a - 0x410000) % 0x400 = lntPatCtrlOff)
    || (0x800000 ≤ a && 0x8000 ≤ (a - 0x800000) % 0x100000 && (a - 0x800000) % 0x100000 < 0x8C00
        && ((a - 0x800000) % 0x100000 - 0x8000) % 0x400 = lntPatCtrlOff)

/-- CLEAT_RTS_N follows the receive FIFO's level while RTS_EN is 1 (R502). -/
def rtsUpdate (s : State) : State :=
  let f := (reg s cleatFlow).toNat
  let n := s.cleat.rx.length
  let high : Bool := bit f 30 && (if bits f 0 7 ≤ n then true else if n ≤ bits f 8 7 then false else s.cleat.rtsHigh)
  { s with cleat := { s.cleat with rtsHigh := high } }

/-- A write of CLEAT_FLOW: levels that R502 does not allow leave both fields as they were. -/
def flowWrite (s : State) (w : Word) : State :=
  let v := w.toNat
  let ok := bits v 8 7 < bits v 0 7 && bits v 0 7 ≤ 64
  let keep := (reg s cleatFlow).toNat % 2 ^ 15
  rtsUpdate (regWrite s cleatFlow (if ok then w else BitVec.ofNat 32 (v - v % 2 ^ 15 + keep)))

/-- A write of CLEAT_CTRL: its fields under their access codes, and SEND releases what the transmit FIFO holds (R501). A change of
MUTE that the port made in the same always-on cycle wins (R499). -/
def cleatCtrlWrite (s : State) (w : Word) : State :=
  let kept := (w &&& ~~~(4 : Word)) ||| (reg s cleatCtrl &&& 4)
  let s1 := regWrite s cleatCtrl (if s.cleat.muteAt = some s.hubTime then kept else w)
  if w.getLsbD 4 then { s1 with cleat := { s1.cleat with released := s1.cleat.tx.length } } else s1

/-- BLOCK_WINDOW_WRITE (R36, R37): refused with HUB_ERR.BLK_WR unless the window is open. SFC_BUF takes any size (chapter 19). -/
def execBlockWindowWrite (a : Nat) (w : Word) (be : BitVec 4) (s : State) : Host.Outcome State Fault Refusal := whenLive s <|
  if memSpaceOn s 0 && 0x400000 ≤ a && a < 0x1000000 then
    let isBuf := 0x472000 ≤ a && a < 0x473000
    if isBuf then
      if windowOpen s a then
        .next { s with sfc := { s.sfc with buf := (enabledBytes w be).foldl (fun t p => tput t (a - 0x472000 + p.1) p.2) s.sfc.buf } }
      else .next (hubError s 1 a)
    else
      let (s1, ok) := blockGuard s a be
      if ok then
        if a = cleatFlow then .next (flowWrite s1 w)
        else if a = cleatCtrl then .next (cleatCtrlWrite s1 w)
        else if !ownRow a then .next (regWrite s1 a w)
        else .next s1
      else .next s1
  else .next s

/-- RESPONSE_WINDOW_WRITE (R49): no effect, and MBX_ERR.RESP_WR. -/
def execResponseWindowWrite (fn : FnNo) (_off : Nat) (_w : Word) (_be : BitVec 4) (s : State) : Host.Outcome State Fault Refusal := whenLive s <|
  if memSpaceOn s fn.val then .next (orReg s (instBase fn.val + mbxErrOff) 2) else .next s

/-- BAR2_ATOMICOP (R40, R468): Unsupported Request, and HUB_ERR.BAR2_ATOMIC with the device physical address. -/
def bar2Base (s : State) : Nat :=
  let b := (reg s hubAperture).toNat
  (b - b % 2 ^ s.pcie.bar2Code) * 2 ^ 36

def execBar2Atomicop (off : Nat) (s : State) : Host.Outcome State Fault Refusal := whenLive s <|
  if memSpaceOn s 0 then .next (emit (hubError s 4 (bar2Base s + off)) (.completion 1 [] false))
  else .next (emit s (.completion 1 [] false))

/-- The bytes of a register that a read with these byte enables returns, lowest first (R36). -/
def readBytes (v : Nat) (be : BitVec 4) : List Byte := (enabledBytes (BitVec.ofNat 32 v) be).map (·.2)

/-- A read of HUB_TIME_LO: the upper half goes into the snapshot, whatever bytes are enabled (R36, R59). -/
def readHubTime (s : State) (be : BitVec 4) : State :=
  emit { s with hubTimeHi := BitVec.ofNat 32 (s.hubTime / 2 ^ 32) } (.completion 0 (readBytes s.hubTime be) false)

/-- HUB_TIME_LO_READ (R59), of all four bytes; READ_CLEAR_READ reads fewer. -/
def execHubTimeLoRead (s : State) : Host.Outcome State Fault Refusal := whenLive s <|
  if memSpaceOn s 0 then .next (readHubTime s 0xF)
  else .next (emit s (.completion 1 [] false))

/-! ### Mailbox commands (R45 to R48, R52) -/

/-- The header in a request window (R45). -/
def winHdr (w : Tab Byte) : Hdr :=
  let h := winRead w 16
  { opcode := field h 0 2, tag := BitVec.ofNat 16 (field h 2 2), length := field h 4 4, flags := BitVec.ofNat 32 (field h 8 4) }

/-- FLAGS of a hub-produced response: RESP, and the request's own version fields (R46). -/
def hubFlags (h : Hdr) : Nat := bits h.flags.toNat 8 16 * 256 + 1

/-- The hub-produced status of a GO, if any, in the order of R46. -/
def goStatus (m : Mailbox) (h : Hdr) : Option Nat :=
  if h.length > 4080 || bits h.flags.toNat 24 8 ≠ 0 || bits h.flags.toNat 1 7 ≠ 0 then some 0xF001
  else if !m.fwReady then some 0xF002
  else if 4 ≤ m.held.length then some 0xF004
  else none

/-- A command written in a state where it has no effect (R47). -/
def cmdState (s : State) (n : Nat) : State := orReg s (instBase n + mbxErrOff) 1

/-- GO in IDLE (R48). -/
def goAccept (s : State) (n : Nat) : State :=
  let m := mbx s n
  let h := winHdr m.reqWin
  let m1 := { m with seq := m.seq + 1 }
  match goStatus m h with
  | some st => deliver (setMbx s n m1) n (frameBytes h.opcode h.tag (hubFlags h) st 0 [])
  | none =>
    setMbx s n { m1 with
      state := .busy
      outstanding := some (m1.seq, h.tag)
      timer := (reg s (instBase n + mbxTimeoutOff)).toNat ≠ 0
      held := m.held ++ [{ seq := m1.seq, hdr := h, payload := (winRead m.reqWin (16 + h.length)).drop 16 }] }

/-- ACK, as performed (R47). -/
def ackMbx (s : State) (n : Nat) : State :=
  if memSpaceOn s n then
    let m := mbx s n
    if m.state = .done || m.state = .timeout then setMbx s n { m with state := .idle } else cmdState s n
  else s

/-- CANCEL, as performed (R47, R51, R52): the request is abandoned and stays with PCF; in the always-on cycle of a matching response
it leaves DONE as it is, without CMD_STATE. -/
def cancelMbx (s : State) (n : Nat) : State :=
  if memSpaceOn s n then
    let m := mbx s n
    if m.state = .busy then setMbx s n { m with state := .idle, outstanding := none, timer := false }
    else if m.state = .done && m.doneAt = some s.hubTime then s
    else cmdState s n
  else s

/-- GO, as performed (R47, R48, R454): it wakes a halted SCP. -/
def goMbx (s : State) (n : Nat) : State :=
  if memSpaceOn s n then
    if (mbx s n).state = .idle then goAccept { s with power := { s.power with scp := true } } n else cmdState s n
  else s

/-- ACK (R47, R55). -/
def execAck (fn : FnNo) (s : State) : Host.Outcome State Fault Refusal := whenLive s <|
  .next (inOrder s (.mbxCmd fn.val 2) (ackMbx s fn.val))

/-- CANCEL (R47, R51, R52, R55). -/
def execCancel (fn : FnNo) (s : State) : Host.Outcome State Fault Refusal := whenLive s <|
  .next (inOrder s (.mbxCmd fn.val 3) (cancelMbx s fn.val))

/-- GO (R47, R48, R55, R56): it takes effect after every BAR2 write received before it. -/
def execGo (fn : FnNo) (s : State) : Host.Outcome State Fault Refusal := whenLive s <|
  .next (inOrder s (.mbxCmd fn.val 1) (goMbx s fn.val))

/-- MBX_TIMEOUT_EXPIRY (R52): in BUSY with the timer running, the request is abandoned and STATE becomes TIMEOUT. -/
def execMbxTimeoutExpiry (fn : FnNo) (s : State) : Host.Outcome State Fault Refusal := whenLive s <|
  let n := fn.val
  let m := mbx s n
  if m.state = .busy && m.timer then
    let s1 := orReg (setMbx s n { m with state := .timeout, outstanding := none, timer := false }) (instBase n + instIrqOff) 1
    .next (if (reg s1 (instBase n + mbxCtrlOff)).getLsbD 1 then raiseVec s1 n 0 else s1)
  else .next s

end Sys2Proof.Machine
end

