-- ==== Sys2Proof/Machine/Lenot.lean ====
section
/-!
DEFINITION. Lenot: flits and their check, lanes and scrambling, credits, routes, acknowledgement and replay, retraining, lane maps, sleep
and pattern control (chapter 14). A flit in flight is its scrambled lanes in the receiving port's `wire`.
-/

namespace Sys2Proof.Machine

/-- The code of LNT_ROUTE at node `n` (chapter 14, Registers). -/
def routeCode (s : State) (n src dst : Nat) : Nat :=
  if n = dst then 7
  else match outPort s n src dst with
    | some (_, p) => p
    | none => match outPort s n n dst with
      | some (_, p) => p
      | none => 6

/-! ### Messages and flits (R338 to R343) -/

/-- The slots of a message (R340). -/
def msgBytes (m : LntMsg) : List Byte :=
  leBytes 1 (m.cls.val + 8 * b2n m.sub + 16 * msgSlots m) ++ leBytes 1 (m.src.val + 16 * m.dst.val) ++ [m.type, 0]
    ++ leBytes 4 m.txn.toNat ++ leBytes 6 m.addr.toNat ++ leBytes 2 m.arg.toNat
    ++ m.body ++ zeros (16 * (msgSlots m - 1) - m.body.length)

/-- TYPE codes of a class (R340). -/
def typeIn (cls t : Nat) : Bool := match cls with
  | 0 => 0x01 ≤ t && t ≤ 0x0C
  | 1 => 0x20 ≤ t && t ≤ 0x23
  | 2 => 0x40 ≤ t && t ≤ 0x44
  | 3 => 0x60 ≤ t && t ≤ 0x61
  | 4 => 0x80 ≤ t && t ≤ 0x81
  | 5 => 0xA0 ≤ t && t ≤ 0xA4
  | _ => false

/-- A message read from its slots, when it is well formed (R340); `room` is the number of slots left in the flit. -/
def readMsg (bs : List Byte) (room : Nat) : Option LntMsg :=
  let c := field bs 0 1
  let len := c / 16
  let dst := field bs 1 1 / 16
  if h : c % 8 < 6 then
    if typeIn (c % 8) (field bs 2 1) && 1 ≤ len && len ≤ 9 && len ≤ room && dst ≤ 8 then
      some { cls := ⟨c % 8, h⟩, sub := bit c 3, src := Fin.ofNat 16 (field bs 1 1), dst := Fin.ofNat 16 dst,
             type := BitVec.ofNat 8 (field bs 2 1), txn := BitVec.ofNat 32 (field bs 4 4), addr := BitVec.ofNat 48 (field bs 8 6),
             arg := BitVec.ofNat 16 (field bs 14 2), body := (bs.drop 16).take (16 * (len - 1)) }
    else none
  else none

/-- One byte into the CRC-64 of R338, most significant bit first. -/
def crc64Bits : Nat → Nat → Nat
  | 0, c => c
  | n + 1, c => crc64Bits n (if 2 ^ 63 ≤ c then (c * 2 % 2 ^ 64) ^^^ 0x42F0E1EBA9EA3693 else c * 2)

def crc64 (bs : List Byte) : Nat :=
  bs.foldl (fun c b => crc64Bits 8 (c ^^^ (b.toNat * 2 ^ 56))) (2 ^ 64 - 1) ^^^ (2 ^ 64 - 1)

/-- The 256 bytes of a flit (R338). -/
def flitBytes (ctrl : Nat) (payload : List Byte) : List Byte :=
  let b := leBytes 8 ctrl ++ payload ++ zeros (240 - payload.length)
  b ++ leBytes 8 (crc64 b)

def flitGood (f : List Byte) : Bool := crc64 (f.take 248) = field f 248 8

/-- The control word of a flit (R339). -/
def ctrlWord (pool total heads : Nat) (rreq : Bool) (kind ack seq : Nat) : Nat :=
  pool * 2 ^ 56 + total % 4096 * 2 ^ 44 + heads * 2 ^ 29 + b2n rreq * 2 ^ 28 + kind * 2 ^ 24 + ack % 4096 * 2 ^ 12 + seq % 4096

/-! ### Lane maps, lanes and scrambling (R337, R354, R355) -/

/-- The fused map of a bundle at a receiving port (R355). -/
def fusedSkip (s : State) (k b : Nat) : List Nat :=
  let w := (tget 0 s.fuse.laneMaps (32 * k + b)).toNat
  (if bit w 5 then [bits w 0 5] else []) ++ (if bit w 13 then [bits w 8 5] else [])

def mapOf (s : State) (k b : Nat) : LaneMap := tget { skip := fusedSkip s k b } (lntPort s k).maps b

/-- The physical lanes that carry data, by logical lane 0 to 15 (R354). -/
def usedLanes (m : LaneMap) : List Nat := ((List.range 18).filter fun l => !m.skip.contains l).take 16

/-- The next 16 bits of a PRBS23 register, whose bit `i` is the sequence bit of 23 − i bits ago, and the register after them; the first bit is
bit 0 (R337). -/
def prbs23 (w : BitVec 23) : BitVec 23 × BitVec 23 :=
  let n := (w ^^^ (w >>> 5)) &&& 0xFFFF
  (n, (w >>> 16) ||| (n <<< 7))

/-- Key bytes of some groups of 16 UI, the first UI in bit 0, and the register after them. -/
def laneKey : Nat → BitVec 23 → List Byte × BitVec 23
  | 0, w => ([], w)
  | n + 1, w =>
    let r := prbs23 w
    let k := laneKey n r.2
    (r.1.setWidth 8 :: (r.1 >>> 8).setWidth 8 :: k.1, k.2)

/-- The key of one flit on a lane, 128 UI, and the register after it. -/
def flitKey (w : BitVec 23) : List Byte := (laneKey 8 w).1
def afterFlit (w : BitVec 23) : BitVec 23 := (laneKey 8 w).2

def xorBytes (a b : List Byte) : List Byte := List.zipWith (fun x y => x ^^^ y) a b

/-- The bytes of a flit on a logical lane: byte k on lane k mod 16 in the UI 8⌊k ÷ 16⌋ onward, least significant bit first (R337). -/
def laneOf (f : List Byte) (i : Nat) : List Byte := (List.range 16).map fun r => f.getD (16 * r + i) 0

/-- A flit on the 18 lanes of a bundle, scrambled (R337, R354). A lane that carries no data is at 0. -/
def toLanes (m : LaneMap) (ws : List (BitVec 23)) (f : List Byte) : List (List Byte) :=
  (List.range 18).map fun l => match (usedLanes m).idxOf? l with
    | some i => xorBytes (laneOf f i) (flitKey (ws.getD i 0))
    | none => zeros 16

/-- The bytes of a flit from its lanes, the scrambling removed. -/
def ofLanes (m : LaneMap) (ws : List (BitVec 23)) (t : List (List Byte)) : List Byte :=
  let lanes := (List.range 16).map fun i => xorBytes (t.getD ((usedLanes m).getD i 18) []) (flitKey (ws.getD i 0))
  (List.range 256).map fun k => (lanes.getD (k % 16) []).getD (k / 16) 0

/-- The scrambler registers of a bundle, by logical lane. -/
def laneRegisters (t : Tab (List (BitVec 23))) (b : Nat) : List (BitVec 23) := tget (List.replicate 16 0) t b

/-- The registers of a bundle go on past a flit. -/
def passFlit (t : Tab (List (BitVec 23))) (b : Nat) : Tab (List (BitVec 23)) := tput t b ((laneRegisters t b).map afterFlit)

/-- The registers of the direction that a port receives, as link training seeds them: the logical lane in the low bits (R337). -/
def seeds (k : Nat) : Tab (List (BitVec 23)) :=
  (List.range 8).map fun b => (b, (List.range 16).map fun i => BitVec.ofNat 23 ((Config.lntSeed (8 * k + b) i).toNat * 16 + i))

/-- Link training seeds the scramblers of a link at both ends. -/
def seedLink (s : State) (k j : Nat) : State :=
  let s1 := setLntPort s k { lntPort s k with rx := seeds k, tx := seeds j }
  setLntPort s1 j { lntPort s1 j with rx := seeds j, tx := seeds k }

/-- The bytes of a flit as the receiving port reads them (R337). -/
def heard (s : State) (k : Nat) (f : LntFlight) : List Byte :=
  ofLanes (mapOf s k f.bundle) (laneRegisters (lntPort s k).rx f.bundle) f.lanes

/-- A port has read the first flit on its wire. -/
def passWire (p : LntPort) : LntPort := match p.wire with
  | [] => p
  | f :: rest => { p with wire := rest, rx := passFlit p.rx f.bundle }

/-! ### Errors and retraining (R352, R353) -/

def lntErr (s : State) (k b : Nat) : State := orReg s (lntReg (k / 4) (k % 4) lntErrOff) (2 ^ b)
def lntBump (s : State) (k off : Nat) : State := bump s (lntReg (k / 4) (k % 4) off)
def linkOf (k : Nat) : Nat := match portPeer (k / 4) (k % 4) with
  | some p => p.link
  | none => 0
def peerKey (k : Nat) : Option Nat := (portPeer (k / 4) (k % 4)).map fun p => portKey p.node p.port

/-- LINK_STATE: a link of a kind changes state (R69). -/
def linkState (s : State) (kind l st : Nat) : State := eventTo s 0 0 0x000A (kind * 256 + l) st 0 0

/-- Both ends of a port's link begin to retrain: no flits are sent, and those in flight are lost (R352). -/
def startRetrain (s : State) (k : Nat) : State :=
  match peerKey k with
  | none => s
  | some j =>
    let go (s : State) (i : Nat) : State := setLntPort s i { lntPort s i with state := 1, wire := [], asking := false, answer := none, sentAck := false }
    if (lntPort s k).state = 2 || (lntPort s k).state = 3 then linkState (go (go s k) j) 0 (linkOf k) 1 else s

/-- A replay starts from the oldest held flit, and the replay timer again (R350 to R352). -/
def startReplay (s : State) (k : Nat) (timer : Bool) : State :=
  let p := lntPort s k
  match p.held with
  | [] => s
  | h :: _ =>
    let n := if p.lastOldest = some h.seq then p.consec + 1 else 1
    let s1 := setLntPort s k { p with resend := p.held.map (·.seq), lastOldest := some h.seq, consec := n, age := 0, restarted := some s.hubTime }
    let s2 := noteCe (lntBump s1 k lntReplayCntOff) .link (linkOf k) 0 1 0
    let s3 := if timer then lntErr (lntBump s2 k lntTimerReplayCntOff) k 2 else s2
    if setting s3 idLntRetrainReplays ≤ n then startRetrain s3 k else s3

/-! ### Sending (R336, R343, R348 to R350) -/

/-- The first waiting message of a pool. -/
def firstOf (w : List LntWaiting) (pool : Nat) : Option LntWaiting := w.find? fun x => poolOf x.msg == pool

/-- The class order of a port (R343): a class passed over while 32 flits were sent comes first. -/
def classOrder (p : LntPort) : List Nat :=
  let o := [4, 3, 2, 1, 0, 5]
  (o.filter fun c => 32 ≤ tget 0 p.passed c) ++ o.filter fun c => tget 0 p.passed c < 32

/-- The next message to place, with room for `slots` slots. -/
def nextMsg (p : LntPort) (slots : Nat) : Option LntWaiting :=
  ((classOrder p).flatMap fun c => if c = 5 then [10] else [2 * c, 2 * c + 1]).findSome? fun k =>
    match firstOf p.waiting k with
    | some w => if msgSlots w.msg ≤ slots && tget 0 p.used k + msgSlots w.msg ≤ poolSlots k then some w else none
    | none => none

/-- Takes messages for one flit; the fuel bounds them. -/
def takeMsgs : Nat → LntPort → Nat → LntPort × List LntWaiting
  | 0, p, _ => (p, [])
  | fuel + 1, p, slots => match nextMsg p slots with
    | none => (p, [])
    | some w =>
      let k := poolOf w.msg
      let p1 := { p with waiting := p.waiting.erase w, used := tput p.used k (tget 0 p.used k + msgSlots w.msg),
                         passed := tput p.passed w.msg.cls.val 0 }
      let r := takeMsgs fuel p1 (slots - msgSlots w.msg)
      (r.1, w :: r.2)

/-- HEAD_MASK of some messages laid from slot 0. -/
def headMask : Nat → List LntMsg → Nat
  | _, [] => 0
  | i, m :: r => 2 ^ i + headMask (i + msgSlots m) r

/-- One flit of a kind leaves a port on a bundle for the far end, with the current control word, on the lanes of the far end's map. -/
def sendFlit (s : State) (k j b kind seq heads : Nat) (payload : List Byte) : State :=
  let p := lntPort s k
  let c := ctrlWord p.nextPool (tget 0 p.freed p.nextPool) heads p.gap kind (p.expect + 4095) seq
  let f : LntFlight := { bundle := b, lanes := toLanes (mapOf s j b) (laneRegisters p.tx b) (flitBytes c payload) }
  let s1 := setLntPort s k { p with nextPool := (p.nextPool + 1) % 11, tx := passFlit p.tx b }
  let q := lntPort s1 j
  setLntPort s1 j { q with wire := q.wire ++ [f] }

/-- A PAYLOAD flit of new messages, when some can be placed. It ends a request to sleep, and the port's own consent (R358). -/
def sendNew (s : State) (k j b : Nat) : Option State :=
  let p := lntPort s k
  if 64 ≤ p.held.length then none
  else
    let (p1, ws) := takeMsgs 15 p 15
    if ws.isEmpty then none
    else
      let placed := ws.map fun w => w.msg.cls.val
      let passed := [0, 1, 2, 3, 4, 5].foldl (fun t c =>
        if placed.contains c then tput t c 0
        else if p.waiting.any (fun w => w.msg.cls.val == c) then tput t c (tget 0 t c + 1) else t) p.passed
      let ms := ws.map (·.msg)
      let heads := headMask 0 ms
      let body := ms.flatMap msgBytes
      let payload := body ++ zeros (240 - body.length)
      let s1 := setLntPort s k { p1 with next := (p.next + 1) % 4096, passed := passed, answer := none, sentAck := false,
                                         restarted := if p.held.isEmpty then some s.hubTime else p.restarted,
                                         held := p.held ++ [{ seq := p.next, heads := heads, payload := payload }] }
      let s2 := ws.foldl (fun s w => match w.origin with
        | some (o, pool) => freeSlots s o pool (msgSlots w.msg)
        | none => s) s1
      some (sendFlit s2 k j b 0 p.next heads payload)

/-- Both ends have sent SLEEP_ACK: the lanes go quiet (R358). -/
def sleepBoth (s : State) (k j : Nat) : State :=
  [k, j].foldl (fun s i => setLntPort s i { lntPort s i with state := 3, wire := [], asking := false, answer := none, sentAck := false }) s

/-- The port's own conditions for sleep at this moment (R358). -/
def idlePort (p : LntPort) : Bool := p.waiting.isEmpty && p.held.isEmpty

/-- HUB_TIME has passed a moment by LNT_SLEEP_IDLE_NS. -/
def idleSince (s : State) (t : Option Nat) : Bool := match t with
  | some t => decide (t * 40 + setting s idLntSleepIdle ≤ s.hubTime * 40)
  | none => true

/-- For LNT_SLEEP_IDLE_NS the port has had no PAYLOAD flit to send and has held none (R358). -/
def quietPort (s : State) (p : LntPort) : Bool := idlePort p && idleSince s p.busyAt

/-- Notes that a port is busy now. -/
def noteBusy (s : State) (k : Nat) : State :=
  let p := lntPort s k
  if idlePort p then s else setLntPort s k { p with busyAt := some s.hubTime }

/-- One flit of a round on a bundle: the SLEEP_ACK that is due, unless a message has come meanwhile, a replayed flit, a new PAYLOAD flit,
SLEEP_NAK, or a flit that only acknowledges or asks to sleep (R336, R348, R350, R358). -/
def sendOne (s : State) (k j b : Nat) : State :=
  let p := lntPort s k
  if p.answer = some true then
    let ok := idlePort p
    sendFlit (setLntPort s k { p with answer := none, sentAck := ok }) k j b (if ok then 3 else 4) p.next 0 []
  else match p.resend.find? fun q => p.held.any fun h => h.seq == q with
  | some q =>
    let h := (p.held.find? fun h => h.seq == q).getD { seq := q, heads := 0, payload := [] }
    sendFlit (setLntPort s k { p with resend := (p.resend.dropWhile (· != q)).drop 1 }) k j b 0 q h.heads h.payload
  | none => match sendNew s k j b with
    | some s1 => s1
    | none =>
      if p.answer = some false then sendFlit (setLntPort s k { p with answer := none, sentAck := false }) k j b 4 p.next 0 []
      else sendFlit s k j b (if p.asking then 2 else 1) p.next 0 []

/-- The round's flits, one on each enabled bundle in ascending order (R336). -/
def runRound (s : State) (k j : Nat) : State :=
  ((List.range 8).filter (bit (lntPort s k).bundles)).foldl (fun s b => sendOne s k j b) s

def popcount8 (m : Nat) : Nat := ((List.range 8).filter (bit m)).length

/-- LENOT_FLIT_ROUND (R336): the messages that the node's own units offer this port enter, then one flit goes out on each enabled
bundle. A round takes 4 ns. -/
def execLenotFlitRound (p : PortNo) (ms : List LntMsg) (s : State) : Host.Outcome State Fault Refusal := whenLive s <|
  let n := p.node.val
  let k := portKey n p.port.val
  match peerKey k with
  | none => .next s
  | some j =>
    let mine := ms.filter fun m => m.src.val == n && typeIn m.cls.val m.type.toNat && m.dst.val ≤ 8 && m.dst.val ≠ n && msgSlots m ≤ 9
      && !(s.uc.msgs.any fun x => x.txn == some m.txn.toNat) && (match outPort s n m.src.val m.dst.val with
          | some (_, o) => o == p.port.val
          | none => false)
    let s1 := mine.foldl (fun s m => offerMsg s n { m with sub := false } none) s
    let x := lntPort s1 k
    if x.state = 2 then
      let s2 := noteBusy (runRound (noteBusy (setLntPort s1 k { x with age := x.age + 1 }) k) k j) k
      if (lntPort s2 k).sentAck && (lntPort s2 j).sentAck then .next (sleepBoth s2 k j) else .next s2
    else .next s1

/-! ### Receiving (R338 to R340, R347 to R349) -/

/-- The receiver enters the gap state (R347). -/
def enterGap (s : State) (k : Nat) : State :=
  let p := lntPort s k
  if p.gap then s else lntErr (setLntPort s k { p with gap := true }) k 1

/-- What the control word of a good flit does: credits, acknowledgement, replay request (R339, R343, R349, R350). An acknowledgement that
frees a flit restarts the replay timer (R351). -/
def useCtrl (s : State) (k : Nat) (c : Nat) : State :=
  let p := lntPort s k
  let pool := bits c 56 4
  let total := bits c 44 12
  let p1 := if pool ≤ 10 then
      { p with used := tput p.used pool (tget 0 p.used pool - (total + 4096 - tget 0 p.seen pool) % 4096), seen := tput p.seen pool total }
    else p
  let a := bits c 12 12
  let p2 := if p1.held.any (fun h => h.seq == a) then
      let kept := (p1.held.dropWhile (fun h => h.seq != a)).drop 1
      { p1 with held := kept, resend := p1.resend.filter fun q => kept.any (fun h => h.seq == q),
                restarted := some s.hubTime, busyAt := some s.hubTime }
    else p1
  let s1 := setLntPort s k p2
  if bit c 28 then
    match p2.held with
    | [] => s1
    | h :: _ => if p2.lastOldest = some h.seq && p2.age < 16 then s1 else startReplay s1 k false
  else s1

/-- A malformed message is discarded: LNT_ERR.MSG and an uncontained error (R340, R521). -/
def lntMalformed (s : State) (k : Nat) (bs : List Byte) : State :=
  fatalStop (lntErr s k 6)
    { code := 0x1014, cls := 4, source := 4, die := linkFirstDie (linkOf k), unit := linkOf k, arg := field bs 0 8 }

/-- A message accepted at a port: delivered, or on to the next port with its buffer still held (R270, R341, R344). -/
def takeMsg1 (s : State) (k : Nat) (m : LntMsg) (bs : List Byte) : State :=
  let n := k / 4
  let free (s : State) : State := freeSlots s k (poolOf m) (msgSlots m)
  if m.dst.val = n then
    if m.cls.val < 5 then
      let r := arriveMsg s k m
      if r.2 then r.1 else free r.1
    else
      let s1 := free s
      if m.type = 0xA0 then { s1 with lnt := { s1.lnt with inbox := s1.lnt.inbox ++ [(n, m)] } } else s1
  else match lntNext s n m.src.val m.dst.val with
    | some _ => offerMsg s n m (some (k, poolOf m))
    | none => lntMalformed (free s) k bs

/-- The messages of an accepted flit, slot by slot. -/
def takeSlots (s : State) (k heads : Nat) (payload : List Byte) : State :=
  (List.range 15).foldl (fun s i =>
    if bit heads i then
      let bs := payload.drop (16 * i)
      match readMsg bs (15 - i) with
      | some m => takeMsg1 s k m bs
      | none => lntMalformed s k bs
    else s) s

/-- The far end does not consent: the port's request to sleep ends, and its own consent (R358). -/
def endAsking (s : State) (p : LntPort) : LntPort :=
  { p with asking := false, sentAck := false, endedAt := if p.asking || p.sentAck then some s.hubTime else p.endedAt }

/-- A PAYLOAD flit against EXPECT (R347); it ends a request to sleep (R358). -/
def takePayload (s : State) (k : Nat) (f : List Byte) : State :=
  let c := field f 0 8
  let p := lntPort s k
  let q := c % 4096
  let p1 := endAsking s p
  if q = p.expect then takeSlots (setLntPort s k { p1 with expect := (p.expect + 1) % 4096, gap := false }) k (bits c 29 15) ((f.drop 8).take 240)
  else
    let d := (p.expect + 4096 - q) % 4096
    if 1 ≤ d && d ≤ 2048 then lntBump (setLntPort s k p1) k lntDupCntOff
    else enterGap (setLntPort s k p1) k

/-- A flit with a bad CRC, or with a good one and a reserved KIND: dropped whole (R338, R339, R528). -/
def dropFlit (s : State) (k : Nat) (f : List Byte) : State :=
  if flitGood f then enterGap (lntErr s k 5) k
  else enterGap (noteCe (lntErr (lntBump s k lntCrcCntOff) k 0) .link (linkOf k) 1 0 0) k

/-- A good flit's sleep kind (R358): mutual consent, an answer to give, or an answer received. -/
def takeSleep (s : State) (k j kind : Nat) : State :=
  let p := lntPort s k
  match kind with
  | 2 => if p.asking then sleepBoth s k j
         else if p.sentAck then s
         else setLntPort s k { p with answer := some (quietPort s p) }
  | 3 =>
    if (lntPort s j).sentAck && p.sentAck then sleepBoth s k j
    else if p.asking then setLntPort s k { p with answer := some (idlePort p) } else s
  | _ => setLntPort s k (endAsking s p)

/-- Takes a good flit that has left the wire of port `k`, whose far end is `j`: its control word, then what its KIND brings. -/
def takeFlit (s : State) (k j : Nat) (f : List Byte) : State :=
  let c := field f 0 8
  let s1 := useCtrl s k c
  match bits c 24 4 with
  | 0 => takePayload s1 k f
  | 1 => s1
  | n => takeSleep s1 k j n

/-- Takes the first flit on the wire of a port when its KIND is the one named and its CRC is good. -/
def recvFlit (s : State) (pn : PortNo) (kind : Nat) : State :=
  let k := portKey pn.node.val pn.port.val
  let p := lntPort s k
  match p.wire, peerKey k with
  | f :: _, some j =>
    let bs := heard s k f
    if p.state = 2 && flitGood bs && bits (field bs 0 8) 24 4 = kind then takeFlit (setLntPort s k (passWire p)) k j bs else s
  | _, _ => s

/-- LENOT_PAYLOAD_FLIT (R347). -/
def execLenotPayloadFlit (p : PortNo) (s : State) : Host.Outcome State Fault Refusal := whenLive s <| .next (recvFlit s p 0)
/-- LENOT_ACK_ONLY_FLIT (R348). -/
def execLenotAckOnlyFlit (p : PortNo) (s : State) : Host.Outcome State Fault Refusal := whenLive s <| .next (recvFlit s p 1)
/-- LENOT_SLEEP_REQ (R358). -/
def execLenotSleepReq (p : PortNo) (s : State) : Host.Outcome State Fault Refusal := whenLive s <| .next (recvFlit s p 2)
/-- LENOT_SLEEP_ACK (R358). -/
def execLenotSleepAck (p : PortNo) (s : State) : Host.Outcome State Fault Refusal := whenLive s <| .next (recvFlit s p 3)
/-- LENOT_SLEEP_NAK (R358). -/
def execLenotSleepNak (p : PortNo) (s : State) : Host.Outcome State Fault Refusal := whenLive s <| .next (recvFlit s p 4)

/-- A bit of a flit changed on the way. -/
def flipBit (f : List Byte) (b : Nat) : List Byte := f.set (b / 8) ((f.getD (b / 8) 0) ^^^ BitVec.ofNat 8 (2 ^ (b % 8)))

/-- A flit that is discarded whole: its CRC does not match, or its KIND is reserved (R338, R339). -/
def flitRefused (f : List Byte) : Bool := !flitGood f || decide (5 ≤ bits (field f 0 8) 24 4)

/-- CORRUPTED_FLIT (R338, R339, R347): the first flit on the wire arrives with some bits changed; where its CRC does not match, or matches and
its KIND is reserved, it is discarded whole. -/
def execCorruptedFlit (pn : PortNo) (bs : List (Fin 2048)) (s : State) : Host.Outcome State Fault Refusal := whenLive s <|
  let k := portKey pn.node.val pn.port.val
  let p := lntPort s k
  match p.wire with
  | [] => .next s
  | f :: _ =>
    let g := bs.foldl (fun g b => flipBit g b.val) (heard s k f)
    if p.state = 2 && flitRefused g then .next (dropFlit (setLntPort s k (passWire p)) k g) else .next s

/-! ### Sleep and timers (R351, R358) -/

/-- LENOT_SLEEP_IDLE_EXPIRY (R10, R358): the port asks once it has been quiet for LNT_SLEEP_IDLE_NS, and not within that time of the end of an
earlier request. -/
def execLenotSleepIdleExpiry (pn : PortNo) (s : State) : Host.Outcome State Fault Refusal := whenLive s <|
  let k := portKey pn.node.val pn.port.val
  let p := lntPort s k
  if p.state = 2 && quietPort s p && idleSince s p.endedAt && setting s idLntSleepIdle ≠ 0 then .next (setLntPort s k { p with asking := true }) else .next s

/-- Both ends of a sleeping link are awake again; their scramblers, at rest meanwhile, begin from their seeds (R358, log entry 41). -/
def wakeLink (s : State) (k : Nat) : State := match peerKey k with
  | none => s
  | some j =>
    if (lntPort s k).state = 3 then
      seedLink ([k, j].foldl (fun s i => setLntPort s i { lntPort s i with state := 2 }) s) k j
    else s

/-- LENOT_WAKE (R358). -/
def execLenotWake (pn : PortNo) (s : State) : Host.Outcome State Fault Refusal := whenLive s <| .next (wakeLink s (portKey pn.node.val pn.port.val))

/-- LENOT_REPLAY_TIMER_EXPIRY (R10, R350, R351): the timer runs while a flit is held. An expiry in the HUB_TIME cycle in which the timer was
restarted is none: the shortest LNT_REPLAY_NS is longer, so the acknowledgement came first. -/
def execLenotReplayTimerExpiry (pn : PortNo) (s : State) : Host.Outcome State Fault Refusal := whenLive s <|
  let k := portKey pn.node.val pn.port.val
  if (lntPort s k).state = 2 && (lntPort s k).restarted != some s.hubTime then .next (startReplay s k true) else .next s

/-! ### Retraining and lane tests (R352 to R357) -/

/-- LANE_LOCK_LOSS (R352): of a lane of an enabled bundle. -/
def execLaneLockLoss (pn : PortNo) (b : Fin 8) (_lane : Fin 18) (s : State) : Host.Outcome State Fault Refusal := whenLive s <|
  let k := portKey pn.node.val pn.port.val
  if bit (lntPort s k).bundles b.val then .next (startRetrain s k) else .next s

/-- LENOT_RETRAIN (R352): replays from one flit have reached the limit, or the far end retrains. -/
def execLenotRetrain (pn : PortNo) (s : State) : Host.Outcome State Fault Refusal := whenLive s <| .next (startRetrain s (portKey pn.node.val pn.port.val))

/-- Failing lanes of a bundle, as a list. -/
def failLanes (l : List (Fin 8 × BitVec 18)) (b : Nat) : List Nat :=
  (List.range 18).filter fun i => l.any fun p => p.1.val == b && p.2.getLsbD i

/-- A lane test or retraining of one bundle at a receiving port: the new map, or none where the bundle is disabled. On v3 failing
lanes are skipped while at most two are. On v2 every failing lane that the fused map does not skip disables the bundle, a left-over spare that
carries no data too: of R357's two clauses on it the first, with R21, is followed, a DESIGN CHOICE of log entry 41 (R352, R354, R356, R357). -/
def retest (v : Nat) (m : LaneMap) (fails : List Nat) : Option LaneMap :=
  let new := fails.filter fun l => !m.skip.contains l
  if new.isEmpty then some m
  else if v = 2 || 2 < m.skip.length + new.length then none
  else some { skip := (List.range 18).filter fun l => m.skip.contains l || new.contains l, tested := true }

/-- Applies a lane test at one receiving port: results, maps, and the bundles that it can keep. -/
def applyTest (s : State) (k v : Nat) (fails : List (Fin 8 × BitVec 18)) (old : Nat) : State × Nat :=
  let p := lntPort s k
  let kept := (List.range 8).filter fun b => bit old b && (retest v (mapOf s k b) (failLanes fails b)).isSome
  let maps := kept.foldl (fun t b => match retest v (mapOf s k b) (failLanes fails b) with
    | some m => tput t b m
    | none => t) p.maps
  let res := (List.range 8).foldl (fun t b => tput t b ((failLanes fails b).foldl (fun m l => m + 2 ^ l) 0)) p.ltResult
  (setLntPort s k { p with maps := maps, ltResult := res }, kept.foldl (fun m b => m + 2 ^ b) 0)

/-- Sets both ends' bundles; a bundle is enabled or disabled at both ends together (R336). A loss is recorded (R521). -/
def setBundles (s : State) (l up old : Nat) : State :=
  let ks := linkPorts l
  let s1 := [ks.1, ks.2].foldl (fun s k => setLntPort s k { lntPort s k with bundles := up }) s
  let lost := old - (old &&& up)
  if lost = 0 then s1
  else
    let s2 := lntErr (lntErr s1 ks.1 4) ks.2 4
    logErr s2 0 { code := 0x1011, cls := 6, source := 4, die := linkFirstDie l, unit := l, arg := up + lost * 256 }

/-- A retraining that fails: the link is out of service, what its ports held is lost, and the error is uncontained (R353). -/
def failLink (s : State) (l : Nat) : State :=
  let ks := linkPorts l
  let s1 := [ks.1, ks.2].foldl (fun s k =>
    lntErr (setLntPort s k { lntPort s k with state := 5, held := [], resend := [], waiting := [] }) k 7) s
  fatalStop (linkState s1 0 l 5) { code := 0x1013, cls := 4, source := 4, die := linkFirstDie l, unit := l }

/-- LENOT_RETRAIN_COMPLETE (R352, R353): the failing lanes at the near and the far receiving end, and whether any bundle locked. -/
def execLenotRetrainComplete (pn : PortNo) (near far : List (Fin 8 × BitVec 18)) (locked : Bool) (s : State) :
    Host.Outcome State Fault Refusal := whenLive s <|
  let k := portKey pn.node.val pn.port.val
  match peerKey k with
  | none => .next s
  | some j =>
    if (lntPort s k).state = 1 && s.start.phase ≠ .dies then
      let l := linkOf k
      let v := (lntPort s k).version
      let old := (lntPort s k).bundles
      let r1 := applyTest s k v near old
      let r2 := applyTest r1.1 j v far old
      let up := if locked then r1.2 &&& r2.2 else 0
      let s1 := setBundles r2.1 l up old
      let s2 := [k, j].foldl (fun s i => lntErr (lntBump s i lntRetrainCntOff) i 3) s1
      if popcount8 up < 4 then .next (failLink s2 l)
      else
        let s3 := [k, j].foldl (fun s i => setLntPort s i { lntPort s i with state := 2, consec := 0, lastOldest := none }) s2
        .next (startReplay (startReplay (linkState (seedLink s3 k j) 0 l 2) k false) j false)
    else .next s

/-- The version a spoke or ring link settles (R18, R20): v2 on the spokes of an H2 package. -/
def settledVersion (s : State) (l : Nat) : Nat := if 8 ≤ l && s.fuse.variant = .h2 then 2 else 3

/-- LENOT_LANE_TEST_COMPLETE (R343, R356, R357): at start, the maps in force, the bundles, and the link in or out of service. -/
def execLenotLaneTestComplete (link : Fin 12) (f1 f2 : List (Fin 8 × BitVec 18)) (s : State) : Host.Outcome State Fault Refusal := whenLive s <|
  let l := link.val
  let ks := linkPorts l
  if s.start.phase = .dies && (lntPort s ks.1).state ≤ 1 then
    let v := settledVersion s l
    let fresh (s : State) (k : Nat) : State := setLntPort s k { state := 1, version := v }
    let s0 := fresh (fresh s ks.1) ks.2
    let r1 := applyTest s0 ks.1 v f1 255
    let r2 := applyTest r1.1 ks.2 v f2 255
    let up := r1.2 &&& r2.2
    let s1 := setBundles r2.1 l up 255
    if popcount8 up < 4 then
      let s2 := [ks.1, ks.2].foldl (fun s k => setLntPort s k { lntPort s k with state := 5 }) s1
      .next (logErr s2 0 { code := 0x1012, cls := 6, source := 4, die := linkFirstDie l, unit := l })
    else .next (seedLink ([ks.1, ks.2].foldl (fun s k => setLntPort s k { lntPort s k with state := 2 }) s1) ks.1 ks.2)
  else .next s

/-! ### Route changes (R346) -/

/-- Begins the change of a pair to a new route: a MARK on each class along the old one. -/
def startChange (s : State) (src dst : Nat) (r : List Nat) : State :=
  if s.lnt.changes.any (fun c => c.src == src && c.dst == dst) then s
  else { s with lnt := { s.lnt with changes := s.lnt.changes ++
    [{ src := src, dst := dst, marks := [0, 1, 2, 3, 4, 5], dones := [], route := r }] } }

/-- The pairs whose best route over some links differs from the one in force begin to change to it. -/
def reroute (s : State) (links : List Nat) : State :=
  (List.range 81).foldl (fun s k =>
    if k / 9 = k % 9 then s
    else match bestRoute links (k / 9) (k % 9) with
      | some r => if routeOf s (k / 9) (k % 9) = some r then s else startChange s (k / 9) (k % 9) r
      | none => s) s

/-- A message of the pair and class is still on its way. -/
def inNetwork (s : State) (src dst cls : Nat) : Bool :=
  s.lnt.ports.any fun p => p.2.waiting.any (fun w => w.msg.src.val == src && w.msg.dst.val == dst && w.msg.cls.val == cls)
    || p.2.held.any fun h => (List.range 15).any fun i => bit h.heads i && (match readMsg (h.payload.drop (16 * i)) (15 - i) with
        | some m => m.src.val == src && m.dst.val == dst && m.cls.val == cls
        | none => false)

def modChange (s : State) (src dst : Nat) (f : LntChange → LntChange) : State :=
  { s with lnt := { s.lnt with changes := s.lnt.changes.map fun c => if c.src == src && c.dst == dst then f c else c } }

/-- MARK (R346): it follows every message of its class and pair, and its destination answers with MARK_DONE. -/
def execMark (src dst : Fin 9) (cls : Fin 6) (s : State) : Host.Outcome State Fault Refusal := whenLive s <|
  if inNetwork s src.val dst.val cls.val then .next s
  else .next (modChange s src.val dst.val fun c =>
    if c.marks.contains cls.val then { c with marks := c.marks.filter (· != cls.val), dones := c.dones ++ [cls.val] } else c)

/-- The source switches the pair to its new route and releases the held messages. -/
def finishChange (s : State) (c : LntChange) : State :=
  let s1 := { s with lnt := { s.lnt with changes := s.lnt.changes.filter (fun d => !(d.src == c.src && d.dst == c.dst)),
                                         routes := tput s.lnt.routes (9 * c.src + c.dst) c.route } }
  c.held.foldl (fun s m => offerMsg s c.src m none) s1

/-- MARK_DONE (R346). -/
def execMarkDone (src dst : Fin 9) (cls : Fin 6) (s : State) : Host.Outcome State Fault Refusal := whenLive s <|
  let s1 := modChange s src.val dst.val fun c => { c with dones := c.dones.filter (· != cls.val) }
  match s1.lnt.changes.find? (fun c => c.src == src.val && c.dst == dst.val) with
  | some c => .next (if c.marks.isEmpty && c.dones.isEmpty then finishChange s1 c else s1)
  | none => .next s1

/-- REGISTER_ACCESS_MESSAGE (R340, R341): the oldest register access that has reached a node is answered with a register reply; ARG, which the spec leaves
to the type, is a free value. -/
def execRegisterAccessMessage (n : Fin 9) (s : State) : Host.Outcome State Fault Refusal := whenLive s <|
  match s.lnt.inbox.find? (fun p => p.1 == n.val) with
  | none => .next s
  | some (k, m) =>
    let (s1, x) := takeFree { s with lnt := { s.lnt with inbox := s.lnt.inbox.erase (k, m) } }
    .next (offerMsg s1 n.val { m with sub := false, src := m.dst, dst := m.src, type := 0xA1, arg := BitVec.ofNat 16 x, body := [] } none)

/-! ### Pattern control (R359) -/

/-- A value written to LNT_PAT_CTRL: a PATTERN other than 0x1 to 0x4 leaves PATTERN and ENABLE as they were. -/
def patValue (old new : Nat) : Nat :=
  let pat := bits new 26 4
  if 1 ≤ pat && pat ≤ 4 then bits new 31 1 * 2 ^ 31 + pat * 2 ^ 26 + new % 2 ^ 26
  else bits old 31 1 * 2 ^ 31 + bits old 26 4 * 2 ^ 26 + new % 2 ^ 26

/-- Sets LNT_PAT_CTRL of a port; setting ENABLE clears its lane counters. -/
def patCtrl (s : State) (k v : Nat) : State :=
  let a := lntReg (k / 4) (k % 4) lntPatCtrlOff
  let old := (reg s a).toNat
  let s1 := setReg s a (BitVec.ofNat 32 v)
  if bit v 31 && !bit old 31 then
    (List.range 144).foldl (fun s i => setReg s (lntReg (k / 4) (k % 4) (0x100 + 4 * i)) 0) s1
  else s1

/-- LNT_PAT_CTRL_WRITE (R37, R359): a host write while the block's window is open. -/
def execLntPatCtrlWrite (pn : PortNo) (w : Word) (be : BitVec 4) (s : State) : Host.Outcome State Fault Refusal := whenLive s <|
  let k := portKey pn.node.val pn.port.val
  let a := lntReg pn.node.val pn.port.val lntPatCtrlOff
  if memSpaceOn s 0 && (peerKey k).isSome then
    let (s1, ok) := blockGuard s a be
    .next (if ok then patCtrl s1 k (patValue (reg s a).toNat w.toNat) else s1)
  else .next s

end Sys2Proof.Machine
end

