-- ==== Sys2Proof/Machine/Hawser.lean ====
section
/-!
DEFINITION. Hawser: code, frames, credits, acknowledgement and replay, gain, sleep and wake, the torus, and remote writes
(chapter 15). A frame received is an operand: the symbols of its lanes, with the bits that the decoder corrects.
-/

namespace Sys2Proof.Machine

def hwsPort (s : State) (p : Nat) : HwsPort := tget {} s.hws.ports p
def setHwsPort (s : State) (p : Nat) (x : HwsPort) : State := { s with hws := { s.hws with ports := tput s.hws.ports p x } }
def hwsErr (s : State) (p b : Nat) : State := orReg s (hwsReg p hwsErrOff) (2 ^ b)
def hwsBump (s : State) (p off : Nat) : State := bump s (hwsReg p off)

/-! ### The code (R363, R364) -/

/-- P^s of a 256-bit block: bit r becomes bit (r + s) mod 256 of the block. -/
def rotBlock (x k : Nat) : Nat := x / 2 ^ k + x % 2 ^ k * 2 ^ (256 - k)

/-- Shifts of information column j in rows 0, 1 and 2. -/
def shiftAt (row j : Nat) : Nat := match row with
  | 0 => j + 1
  | 1 => 3 * j + 20
  | _ => (7 * j + 108) % 256

/-- The sum of a row over the information blocks of some bytes. -/
def rowSum (row : Nat) (frame : List Byte) : Nat :=
  (List.range 45).foldl (fun a j => a ^^^ rotBlock (field frame (32 * j) 32) (shiftAt row j)) 0

/-- The three parity blocks of a frame of 1,440 bytes (R364). -/
def parity (frame : List Byte) : Nat × Nat × Nat :=
  let p0 := rowSum 0 frame
  let p1 := rotBlock p0 1 ^^^ rowSum 1 frame
  (p0, p1, rotBlock p1 1 ^^^ rowSum 2 frame)

/-- The codeword of a frame, as 1,536 bytes. -/
def encodeFrame (frame : List Byte) : List Byte :=
  let p := parity frame
  frame ++ leBytes 32 p.1 ++ leBytes 32 p.2.1 ++ leBytes 32 p.2.2

/-- Hc = 0 (R363). -/
def syndromeZero (w : List Byte) : Bool :=
  w.length = 1536 && parity (w.take 1440) = (field w 1440 32, field w 1472 32, field w 1504 32)

/-- The frame of a codeword has a good CRC (R367). -/
def frameGood (w : List Byte) : Bool := crc64 (w.take 1432) = field w 1432 8

/-! ### Lanes and symbols (R365) -/

/-- Lanes in service. -/
def hwsWidth (x : HwsPort) : Nat := if x.width = 1 || x.width = 2 then 2 else 4

/-- The next 24 bits of a PRBS31 register, whose bit `i` is the sequence bit of 31 − i bits ago, and the register after them; the first bit is
bit 0. -/
def prbs31 (w : BitVec 31) : BitVec 31 × BitVec 31 :=
  let n := (w ^^^ (w >>> 3)) &&& 0xFFFFFF
  (n, (w >>> 24) ||| (n <<< 7))

/-- Symbol `i` of some bits, bit 2i as the more significant. -/
def symOf (b : Byte) (i : Nat) : BitVec 2 := BitVec.ofBool (b.getLsbD (2 * i)) ++ BitVec.ofBool (b.getLsbD (2 * i + 1))

/-- Key symbols of some groups of 12 symbols, and the register after them. -/
def symKey : Nat → BitVec 31 → List (BitVec 2) × BitVec 31
  | 0, w => ([], w)
  | n + 1, w =>
    let r := prbs31 w
    let k := symKey n r.2
    ([0, 1, 2].flatMap (fun i => (List.range 4).map (symOf ((r.1 >>> (8 * i)).setWidth 8))) ++ k.1, k.2)

/-- The key of a frame on one of `n` lanes, and the register after it. -/
def frameKey (n : Nat) (w : BitVec 31) : List (BitVec 2) := (symKey (512 / n) w).1
def afterFrame (n : Nat) (w : BitVec 31) : BitVec 31 := (symKey (512 / n) w).2

/-- The Gray map. -/
def grayLevel (c : BitVec 2) : Pam4 := match c.toNat with
  | 0 => .m3
  | 1 => .m1
  | 3 => .p1
  | _ => .p3
def grayCode : Pam4 → BitVec 2
  | .m3 => 0
  | .m1 => 1
  | .p1 => 3
  | .p3 => 2

/-- The symbols of a codeword on lane `l` of `n`: symbol q is on lane q mod n. -/
def laneSyms (n l : Nat) (w : List Byte) : List (BitVec 2) :=
  if n = 4 then w.map fun b => symOf b l else w.flatMap fun b => [symOf b l, symOf b (l + 2)]

/-- A byte of its four symbols. -/
def byteOf (a b c d : BitVec 2) : Byte :=
  BitVec.ofBool (d.getLsbD 0) ++ BitVec.ofBool (d.getLsbD 1) ++ BitVec.ofBool (c.getLsbD 0) ++ BitVec.ofBool (c.getLsbD 1)
    ++ BitVec.ofBool (b.getLsbD 0) ++ BitVec.ofBool (b.getLsbD 1) ++ BitVec.ofBool (a.getLsbD 0) ++ BitVec.ofBool (a.getLsbD 1)

/-- The bytes of two lanes, two symbols of each to a byte. -/
def join2 : List (BitVec 2) → List (BitVec 2) → List Byte
  | a :: c :: x, b :: d :: y => byteOf a b c d :: join2 x y
  | _, _ => []
/-- The bytes of four lanes. -/
def join4 : List (BitVec 2) → List (BitVec 2) → List (BitVec 2) → List (BitVec 2) → List Byte
  | a :: x, b :: y, c :: z, d :: t => byteOf a b c d :: join4 x y z t
  | _, _, _, _ => []

def xorSyms (a k : List (BitVec 2)) : List (BitVec 2) := List.zipWith (fun x y => x ^^^ y) a k

/-- A codeword as the levels of `n` lanes, scrambled before the Gray map. -/
def toLine (n : Nat) (ws : List (BitVec 31)) (w : List Byte) : List (List Pam4) :=
  (List.range n).map fun l => (xorSyms (laneSyms n l w) (frameKey n (ws.getD l 0))).map grayLevel

/-- The codeword of the hard decisions on `n` lanes, the scrambling removed. -/
def ofLine (n : Nat) (ws : List (BitVec 31)) (lanes : List (List Pam4)) : List Byte :=
  let x (l : Nat) : List (BitVec 2) := xorSyms ((lanes.getD l []).map grayCode) (frameKey n (ws.getD l 0))
  if n = 4 then join4 (x 0) (x 1) (x 2) (x 3) else join2 (x 0) (x 1)

/-- What the decoder delivers of a frame (R366): the hard decisions where their syndrome is zero, else with the bits it changes. Which bits those
are is the decoder's own; a frame it leaves without a zero syndrome is discarded. -/
def hwsHeard (x : HwsPort) (f : HwsLine) : List Byte :=
  let w := ofLine (hwsWidth x) x.rx f.lanes
  if syndromeZero w then w else f.fixes.foldl (fun w b => flipBit w b.val) w

/-- A port has received a frame: its scrambler registers go on past it. -/
def passRx (x : HwsPort) : HwsPort := { x with rx := (List.range 4).map fun l => afterFrame (hwsWidth x) (x.rx.getD l 0) }

/-! ### Messages (R369, R370) -/

def hwsSlots (m : HwsMsg) : Nat := 1 + (m.data.length + 15) / 16

def hwsMsgBytes (m : HwsMsg) : List Byte :=
  let n := hwsSlots m
  leBytes 1 (m.cls + 8 * b2n m.sub + 16 * m.type) ++ leBytes 1 n ++ leBytes 2 (m.src % 1024 + m.route * 1024) ++ leBytes 2 m.dst
    ++ leBytes 3 m.txn ++ leBytes 1 (16 * (n - 1) - m.data.length) ++ leBytes 6 m.addr ++ m.data ++ zeros (16 * (n - 1) - m.data.length)

/-- TYPEs of a class (R369). -/
def hwsTypeOk (cls t : Nat) : Bool := match cls with
  | 0 => t == 1 || t == 2
  | 1 => t == 1
  | 2 => t < 14
  | 3 => t == 1
  | _ => false

def hwsPool (m : HwsMsg) : Nat := match m.cls with
  | 0 => b2n m.sub
  | 1 => 2 + b2n m.sub
  | 2 => 4
  | _ => 5 + b2n m.sub

/-- Slots of a pool at a port (R370). -/
def hwsPoolSlots (p k : Nat) : Nat := if k < 2 then 512 else if k < 4 then 64 else if k = 4 then (if 6 ≤ p then 1024 else 0) else 64

/-! ### Torus and routes (R387 to R390) -/

def dims (s : State) : List Nat := [setting s idHwsDimX, setting s idHwsDimY, setting s idHwsDimZ]
def coord (pkg d : Nat) : Nat := match d with
  | 0 => bits pkg 0 3
  | 1 => bits pkg 3 3
  | _ => bits pkg 6 4
def inTorus (s : State) (pkg : Nat) : Bool := pkg < 1024 && (List.range 3).all fun d => coord pkg d < (dims s).getD d 1
def ownPkg (s : State) : Nat := setting s idHwsPkgId

/-- A package ID with one coordinate replaced. -/
def withCoord (pkg d v : Nat) : Nat := match d with
  | 0 => pkg - bits pkg 0 3 + v
  | 1 => pkg - bits pkg 3 3 * 8 + v * 8
  | _ => pkg - bits pkg 6 4 * 64 + v * 64

/-- The neighbour over a torus port (R361, R386). -/
def neighbour (s : State) (pkg p : Nat) : Nat :=
  let d := p / 2
  let n := (dims s).getD d 1
  withCoord pkg d ((coord pkg d + (if p % 2 = 0 then 1 else n - 1)) % n)

/-- A torus link from a package over a port is in service, as PCF's fabric map shows it from either end (R389). -/
def fabricUp (s : State) (pkg p : Nat) : Bool :=
  !s.hws.down.contains (pkg, p) && !s.hws.down.contains (neighbour s pkg p, p ^^^ 1)

/-- The path of some hops over a port is in service. -/
def pathUp (s : State) (p : Nat) : Nat → Nat → Bool
  | _, 0 => true
  | pkg, n + 1 => fabricUp s pkg p && pathUp s p (neighbour s pkg p) n

/-- The direction of one dimension (R389): 0 plus, 1 minus; none where both are blocked. -/
def dimDir (s : State) (at_ dst d : Nat) : Option Nat :=
  let n := (dims s).getD d 1
  let k := (coord dst d + n - coord at_ d) % n
  if k = 0 then some 0
  else
    let pref := if k ≤ n - k then 0 else 1
    let hops (dir : Nat) : Nat := if dir = 0 then k else n - k
    if pathUp s (2 * d + pref) at_ (hops pref) then some pref
    else if pathUp s (2 * d + (1 - pref)) at_ (hops (1 - pref)) then some (1 - pref)
    else none

/-- ROUTE from this package to a destination (R389). -/
def routeTo (s : State) (dst : Nat) : Option Nat :=
  let a0 := ownPkg s
  let a1 := withCoord a0 0 (coord dst 0)
  let a2 := withCoord a1 1 (coord dst 1)
  match dimDir s a0 dst 0, dimDir s a1 dst 1, dimDir s a2 dst 2 with
  | some x, some y, some z => some (x + 2 * y + 4 * z)
  | _, _, _ => none

/-- The next torus port of a message at a package, by ROUTE and the distance that remains; none at its destination. -/
def nextPort (s : State) (m : HwsMsg) : Option Nat :=
  ((List.range 3).find? fun d => coord (ownPkg s) d ≠ coord m.dst d).map fun d => 2 * d + bits m.route d 1

/-- SUB on the next link (R389): 1 from the dateline of a dimension until the turn. `from_` is the port it came in by. -/
def hwsSub (s : State) (m : HwsMsg) (from_ : Option Nat) (p : Nat) : Bool :=
  let d := p / 2
  let n := (dims s).getD d 1
  let c := coord (ownPkg s) d
  let crosses := if p % 2 = 0 then c + 1 = n else c = 0
  crosses || (m.sub && (match from_ with
    | some q => q / 2 == d
    | none => false))

/-! ### Sending (R367, R368, R370 to R376) -/

/-- The header of a frame (R368). -/
def hwsHdr (x : HwsPort) (kind seq : Nat) : Nat :=
  tget 0 x.freed x.nextPool % 4096 * 2 ^ 32 + x.nextPool * 2 ^ 29 + b2n x.rburst * 2 ^ 28 + b2n x.gap * 2 ^ 27 + kind * 2 ^ 24
    + (x.expect + 4095) % 4096 * 2 ^ 12 + seq % 4096

/-- A frame goes out of a port with the current header. -/
def sendFrame (s : State) (p kind seq : Nat) (payload : List Byte) : State :=
  let x := hwsPort s p
  let b := leBytes 8 (hwsHdr x kind seq) ++ payload ++ zeros (1424 - payload.length)
  let n := hwsWidth x
  emit (setHwsPort s p { x with nextPool := (x.nextPool + 1) % 7, tx := (List.range 4).map fun l => afterFrame n (x.tx.getD l 0) })
    (.hwsFrame p (toLine n x.tx (encodeFrame (b ++ leBytes 8 (crc64 b)))))

def hwsOrder (x : HwsPort) : List Nat :=
  let o := [1, 2, 0, 3]
  (o.filter fun c => 32 ≤ tget 0 x.passed c) ++ o.filter fun c => tget 0 x.passed c < 32

def classPools : Nat → List Nat
  | 0 => [0, 1]
  | 1 => [2, 3]
  | 2 => [4]
  | _ => [5, 6]

def nextHws (p : Nat) (x : HwsPort) (slots : Nat) : Option HwsWaiting :=
  ((hwsOrder x).flatMap classPools).findSome? fun k =>
    match x.waiting.find? (fun w => hwsPool w.msg == k) with
    | some w => if hwsSlots w.msg ≤ slots && tget 0 x.used k + hwsSlots w.msg ≤ hwsPoolSlots p k then some w else none
    | none => none

def takeHws (p : Nat) : Nat → HwsPort → Nat → HwsPort × List HwsWaiting
  | 0, x, _ => (x, [])
  | fuel + 1, x, slots => match nextHws p x slots with
    | none => (x, [])
    | some w =>
      let k := hwsPool w.msg
      let r := takeHws p fuel { x with waiting := x.waiting.erase w, used := tput x.used k (tget 0 x.used k + hwsSlots w.msg),
                                       passed := tput x.passed w.msg.cls 0 }
        (slots - hwsSlots w.msg)
      (r.1, w :: r.2)

def hwsFree (s : State) (p pool n : Nat) : State :=
  let x := hwsPort s p
  setHwsPort s p { x with freed := tput x.freed pool ((tget 0 x.freed pool + n) % 4096) }

def hwsIdle (x : HwsPort) : Bool := x.waiting.isEmpty && x.held.isEmpty

/-- One PAYLOAD frame of new messages, when the port may send one. It ends a request to sleep, and the port's own consent (R379). -/
def sendNewFrame (s : State) (p : Nat) : Option State :=
  let x := hwsPort s p
  if x.state ≠ 2 || 256 ≤ x.held.length then none
  else
    let (x1, ws) := takeHws p 89 x 89
    if ws.isEmpty then none
    else
      let passed := [0, 1, 2, 3].foldl (fun t c =>
        if ws.any (fun w => w.msg.cls == c) then tput t c 0
        else if x.waiting.any (fun w => w.msg.cls == c) then tput t c (tget 0 t c + 1) else t) x.passed
      let payload := ws.flatMap fun w => hwsMsgBytes w.msg
      let s1 := setHwsPort s p { x1 with next := (x.next + 1) % 4096, passed := passed, asking := false, sentAck := false,
                                         restarted := if x.held.isEmpty then some s.hubTime else x.restarted, busyAt := some s.hubTime,
                                         held := x.held ++ [(x.next, payload)] }
      let s2 := ws.foldl (fun s w => match w.origin with
        | some (o, pool) => hwsFree s o pool (hwsSlots w.msg)
        | none => s) s1
      some (sendFrame s2 p 0 x.next payload)

/-- A port sends what it can. The fuel bounds the frames. -/
def hwsPump (s : State) (p : Nat) : Nat → State
  | 0 => s
  | n + 1 => match sendNewFrame s p with
    | some s1 => hwsPump s1 p n
    | none => s

/-- Queues a message at a port and sends it if the port is awake. -/
def hwsQueue (s : State) (p : Nat) (m : HwsMsg) (origin : Option (Nat × Nat)) : State :=
  let x := hwsPort s p
  hwsPump (setHwsPort s p { x with waiting := x.waiting ++ [{ msg := m, origin := origin }] }) p 256

/-- A port that carries messages: up, retraining or asleep. -/
def hwsServes (x : HwsPort) : Bool := x.state = 2 || x.state = 3 || (x.state = 1 && x.trained)

/-- The twin port of a destination stack while the other is out of service or not (R390). -/
def twinPort (s : State) (stack : Nat) : Option Nat :=
  let a := hwsServes (hwsPort s 6)
  let b := hwsServes (hwsPort s 7)
  if stack < 4 then (if a then some 6 else if b then some 7 else none) else if b then some 7 else if a then some 6 else none

/-- What waits at a port that leaves service is lost; a forwarded message leaves its buffer and is counted as discarded (R370, R389). -/
def dropWaiting (s : State) (p : Nat) : State :=
  let ws := (hwsPort s p).waiting
  ws.foldl (fun s w => match w.origin with
    | some (o, pool) => bump (hwsFree s o pool (hwsSlots w.msg)) hwsDiscardCnt
    | none => s) (setHwsPort s p { hwsPort s p with held := [], waiting := [] })

/-- LINK_STATE of a Hawser port, and PCF's own entry in the fabric map (R69, R389). -/
def hwsLinkState (s : State) (p st : Nat) : State :=
  let me := (ownPkg s, p)
  let s1 := if p < 6 then
      { s with hws := { s.hws with down := if st = 5 then s.hws.down.filter (· != me) ++ [me]
                                          else if st = 2 then s.hws.down.filter (· != me) else s.hws.down } }
    else s
  linkState s1 1 p st

/-- Retraining in service begins (R385). -/
def hwsRetrain (s : State) (p : Nat) : State :=
  let x := hwsPort s p
  if x.state = 2 || x.state = 3 then
    hwsLinkState (setHwsPort s p { x with state := 1, asking := false, sentAck := false, waking := false, bursts := 0, burstAcq := false }) p 1
  else s

/-- A replay starts: the held frames go out again, oldest first, with current headers (R374, R385). -/
def hwsReplay (s : State) (p : Nat) (timer : Bool) : State :=
  let x := hwsPort s p
  match x.held with
  | [] => s
  | h :: _ =>
    let n := if x.lastOldest = some h.1 then x.consec + 1 else 1
    let s1 := hwsBump (setHwsPort s p { x with lastOldest := some h.1, consec := n, replayAt := s.hubTime,
                                                restarted := some s.hubTime }) p hwsReplayCntOff
    let s2 := if timer then hwsErr (hwsBump s1 p hwsTimerReplayCntOff) p 3 else s1
    if setting s2 idHwsRetrainReplays ≤ n then hwsRetrain s2 p
    else x.held.foldl (fun s f => sendFrame s p 0 f.1 f.2) s2

/-! ### Receiving (R366, R368, R369, R371 to R375) -/

def hwsGap (s : State) (p : Nat) : State :=
  let x := hwsPort s p
  if x.gap then s else hwsErr (setHwsPort s p { x with gap := true }) p 2

/-- The symbols of a burst on each lane (R378): the preamble, then the delimiter. -/
def delimiter : Word := 0xB38F0A5D
def burstSyms : List Pam4 :=
  (List.replicate 128 [Pam4.p3, Pam4.p3, Pam4.m3, Pam4.m3]).flatten
    ++ (List.range 32).map fun i => if delimiter.getLsbD (31 - i) then Pam4.p3 else Pam4.m3

/-- A burst goes out, and the scramblers start again from the trained seeds (R365, R378). -/
def sendBurst (s : State) (p : Nat) : State :=
  let x := hwsPort s p
  emit (setHwsPort s p { x with tx := x.seeds }) (.hwsBurst p (List.replicate (hwsWidth x) burstSyms))

/-- What a usable header does: credits, acknowledgement, replay and burst requests (R368, R373, R374, R381). An acknowledgement that frees a
frame restarts the replay timer (R375). -/
def useHdr (s : State) (p h : Nat) : State :=
  let x := { hwsPort s p with waking := false, bursts := 0, bad := 0, good := true }
  let pool := bits h 29 3
  let total := bits h 32 12
  let x1 := if pool < 7 then
      { x with used := tput x.used pool (tget 0 x.used pool - (total + 4096 - tget 0 x.seen pool) % 4096), seen := tput x.seen pool total }
    else x
  let a := bits h 12 12
  let x2 := if x1.held.any (fun f => f.1 == a) then
      { x1 with held := (x1.held.dropWhile (fun f => f.1 != a)).drop 1, restarted := some s.hubTime, busyAt := some s.hubTime }
    else x1
  let s1 := setHwsPort s p x2
  let s2 := if bit h 27 then
      match x2.held with
      | [] => s1
      | f :: _ => if x2.lastOldest = some f.1 && s.hubTime * 40 < x2.replayAt * 40 + 500 then s1 else hwsReplay s1 p false
    else s1
  if bit h 28 then
    let y := hwsPort s2 p
    let recent := match y.burstAt with
      | some t => decide (s.hubTime < t + 25)
      | none => false
    if recent then s2 else sendBurst (setHwsPort s2 p { y with burstAt := some s.hubTime }) p
  else s2

/-- A malformed message (R369, R521). -/
def hwsMalformed (s : State) (p : Nat) (bs : List Byte) : State :=
  logErr (hwsErr s p 10) 0 { code := 0x1022, cls := 6, source := 5, die := 8, unit := p, arg := field bs 0 8 }

/-- A message at this package: delivered, forwarded by ROUTE, or discarded on a blocked link (R389, R391). RSP, TWN and MGT are taken on arrival;
a REQ keeps its slots until it is handled (R370, R394). -/
def hwsTake (s : State) (p : Nat) (m : HwsMsg) : State :=
  let free (s : State) : State := hwsFree s p (hwsPool m) (hwsSlots m)
  if m.dst = ownPkg s || (6 ≤ p && m.cls = 2) then
    let s1 := if m.cls = 0 then s else free s
    { s1 with hws := { s1.hws with inbox := s1.hws.inbox ++ [(p, m)] } }
  else match nextPort s m with
    | none => free s
    | some o =>
      if hwsServes (hwsPort s o) then hwsQueue s o { m with sub := hwsSub s m (some p) o } (some (p, hwsPool m))
      else bump (free s) hwsDiscardCnt

/-- The messages of an accepted frame, from slot 0; the fuel is the slots left (R369). -/
def takeFrame (s : State) (p : Nat) : Nat → List Byte → State
  | 0, _ => s
  | fuel + 1, bs =>
    let len := bits (field bs 1 1) 0 5
    let cls := field bs 0 1 % 8
    let dst := field bs 4 2
    if bs.isEmpty || field bs 1 1 = 0 then s
    else if field bs 1 1 < 18 && 16 * len ≤ bs.length && hwsTypeOk cls (field bs 0 1 / 16) && inTorus s dst
        && field bs 9 1 < 16 && field bs 9 1 ≤ 16 * (len - 1) then
      let m : HwsMsg := { cls := cls, sub := bit (field bs 0 1) 3, type := field bs 0 1 / 16, src := field bs 2 2 % 1024,
                          route := bits (field bs 2 2) 10 3, dst := dst, txn := field bs 6 3, addr := field bs 10 6,
                          data := (bs.drop 16).take (16 * (len - 1) - field bs 9 1) }
      takeFrame (hwsTake s p m) p fuel (bs.drop (16 * len))
    else
      let s1 := hwsMalformed s p bs
      if 1 ≤ len && 16 * len ≤ bs.length then takeFrame s1 p fuel (bs.drop (16 * len)) else s1

/-- The far port does not consent: the port's request to sleep ends, and its own consent (R358, R379). -/
def endHwsAsking (s : State) (x : HwsPort) : HwsPort :=
  { x with asking := false, sentAck := false, endedAt := if x.asking || x.sentAck then some s.hubTime else x.endedAt }

/-- A usable PAYLOAD frame against EXPECT (R371); it ends a request to sleep (R379). -/
def takeHwsPayload (s : State) (p : Nat) (w : List Byte) : State :=
  let x := hwsPort s p
  let q := field w 0 8 % 4096
  let x1 := endHwsAsking s x
  if q = x.expect then takeFrame (setHwsPort s p { x1 with expect := (x.expect + 1) % 4096, gap := false }) p 89 ((w.drop 8).take 1424)
  else
    let d := (x.expect + 4096 - q) % 4096
    if 1 ≤ d && d ≤ 2048 then hwsBump (setHwsPort s p x1) p hwsDupCntOff else hwsGap (setHwsPort s p x1) p

/-- HUB_TIME has passed a moment by HWS_SLEEP_IDLE_NS. -/
def hwsIdleSince (s : State) (t : Option Nat) : Bool := match t with
  | some t => decide (t * 40 + setting s idHwsSleepIdle ≤ s.hubTime * 40)
  | none => true

/-- For HWS_SLEEP_IDLE_NS the port has had no PAYLOAD frame to send and has held none (R379). -/
def hwsQuiet (s : State) (x : HwsPort) : Bool := hwsIdle x && hwsIdleSince s x.busyAt

/-- The drivers turn off (R379). -/
def hwsSleep (s : State) (p : Nat) : State :=
  setHwsPort s p { hwsPort s p with state := 3, asking := false, sentAck := false, burstAcq := false, rburst := false }

/-- A usable sleep frame (R358, R379). -/
def takeHwsSleep (s : State) (p kind : Nat) : State :=
  let x := hwsPort s p
  match kind with
  | 2 => if x.asking then hwsSleep s p
         else if hwsQuiet s x then sendFrame (setHwsPort s p { x with sentAck := true }) p 3 x.next []
         else sendFrame s p 4 x.next []
  | 3 => if x.sentAck then hwsSleep s p
         else if x.asking && hwsIdle x then hwsSleep (sendFrame s p 3 x.next []) p else s
  | _ => setHwsPort s p (endHwsAsking s x)

/-- Takes a usable frame of the KIND named (R366, R368). A PAYLOAD frame is answered with what the port has to send, or ACK_ONLY (R372). -/
def recvFrame (s : State) (p kind : Nat) (f : HwsLine) : State :=
  let w := hwsHeard (hwsPort s p) f
  let h := field w 0 8
  if (hwsPort s p).state = 2 && syndromeZero w && frameGood w && bits h 24 3 = kind then
    let s1 := useHdr (setHwsPort s p (passRx (hwsPort s p))) p h
    let s2 := if kind = 0 then takeHwsPayload s1 p w else if kind = 1 then s1 else takeHwsSleep s1 p kind
    let s3 := hwsPump s2 p 256
    if kind = 0 && (hwsPort s3 p).next = (hwsPort s2 p).next && (hwsPort s3 p).state = 2 then
      sendFrame s3 p 1 (hwsPort s3 p).next []
    else s3
  else s

/-- HWS_PAYLOAD_FRAME (R371). -/
def execHwsPayloadFrame (p : HwNo) (f : HwsLine) (s : State) : Host.Outcome State Fault Refusal := whenLive s <| .next (recvFrame s p.val 0 f)
/-- HWS_ACK_ONLY_FRAME (R372). -/
def execHwsAckOnlyFrame (p : HwNo) (f : HwsLine) (s : State) : Host.Outcome State Fault Refusal := whenLive s <| .next (recvFrame s p.val 1 f)
/-- HWS_SLEEP_REQ (R379). -/
def execHwsSleepReq (p : HwNo) (f : HwsLine) (s : State) : Host.Outcome State Fault Refusal := whenLive s <| .next (recvFrame s p.val 2 f)
/-- HWS_SLEEP_ACK (R379). -/
def execHwsSleepAck (p : HwNo) (f : HwsLine) (s : State) : Host.Outcome State Fault Refusal := whenLive s <| .next (recvFrame s p.val 3 f)
/-- HWS_SLEEP_NAK (R379). -/
def execHwsSleepNak (p : HwNo) (f : HwsLine) (s : State) : Host.Outcome State Fault Refusal := whenLive s <| .next (recvFrame s p.val 4 f)

/-- A discarded frame puts the receiver in the gap state; the eighth in a row raises RBURST (R371, R381). -/
def frameLost (s : State) (p : Nat) : State :=
  let s1 := hwsGap s p
  let x := hwsPort s1 p
  setHwsPort s1 p { x with bad := x.bad + 1, rburst := x.rburst || 8 ≤ x.bad + 1 }

/-- DISCARDED_FRAME (R366, R368, R371, R528): no zero syndrome, a failing CRC, or usable with a reserved KIND. The header of a usable frame
is used all the same. -/
def execDiscardedFrame (p : HwNo) (f : HwsLine) (s : State) : Host.Outcome State Fault Refusal := whenLive s <|
  let n := p.val
  let w := hwsHeard (hwsPort s n) f
  let s1 := setHwsPort s n (passRx (hwsPort s n))
  if (hwsPort s n).state ≠ 2 then .next s
  else if !syndromeZero w then .next (frameLost (noteCe (hwsErr (hwsBump s1 n hwsLdpcFailCntOff) n 0) .port n 1 0 0) n)
  else if !frameGood w then .next (frameLost (noteCe (hwsErr (hwsBump s1 n hwsCrcCntOff) n 1) .port n 0 1 0) n)
  else if 5 ≤ bits (field w 0 8) 24 3 then
    let k := (hwsPort s n).bad
    let s2 := useHdr s1 n (field w 0 8)
    .next (frameLost (hwsErr (setHwsPort s2 n { hwsPort s2 n with bad := k }) n 11) n)
  else .next s

/-! ### Timers, sleep and wake (R375, R379 to R381, R385) -/

/-- HWS_SLEEP_IDLE_EXPIRY (R10, R358, R379): the port asks once it has been quiet for HWS_SLEEP_IDLE_NS, and not within that time of the end of
an earlier request. -/
def execHwsSleepIdleExpiry (p : HwNo) (s : State) : Host.Outcome State Fault Refusal := whenLive s <|
  let x := hwsPort s p.val
  if x.state = 2 && hwsQuiet s x && hwsIdleSince s x.endedAt && setting s idHwsSleepIdle ≠ 0 then
    .next (sendFrame (setHwsPort s p.val { x with asking := true }) p.val 2 x.next [])
  else .next s

/-- HWS_REPLAY_TIMER_EXPIRY (R10, R374, R375). An expiry in the HUB_TIME cycle in which the timer was restarted is none: the shortest HWS_REPLAY_NS
is longer, so the acknowledgement came first. -/
def execHwsReplayTimerExpiry (p : HwNo) (s : State) : Host.Outcome State Fault Refusal := whenLive s <|
  if (hwsPort s p.val).state = 2 && (hwsPort s p.val).restarted != some s.hubTime then .next (hwsReplay s p.val true) else .next s

/-- A sleeping port wakes and sends a burst, then frames (R380). -/
def hwsWake (s : State) (p : Nat) (acq : Bool) : State :=
  let x := hwsPort s p
  if x.state = 3 then
    hwsPump (sendBurst (hwsBump (setHwsPort s p { x with state := 2, waking := true, bursts := 0, burstAcq := acq }) p hwsWakeCntOff) p) p 256
  else setHwsPort s p { x with burstAcq := x.burstAcq || (acq && x.state = 2) }

/-- SIGNAL_DETECT (R380). -/
def execSignalDetect (p : HwNo) (s : State) : Host.Outcome State Fault Refusal := whenLive s <| .next (hwsWake s p.val true)

/-- HWS_WAKE (R380): a port with a message to send. -/
def execHwsWake (p : HwNo) (s : State) : Host.Outcome State Fault Refusal := whenLive s <|
  if (hwsPort s p.val).state = 3 && !(hwsPort s p.val).waiting.isEmpty then .next (hwsWake s p.val false) else .next s

/-- BURST_ACQUISITION_FAILURE (R381): no delimiter, or the first 4 frames after it all discarded; the receiver is in burst acquisition still, or
again. -/
def execBurstAcquisitionFailure (p : HwNo) (s : State) : Host.Outcome State Fault Refusal := whenLive s <|
  let x := hwsPort s p.val
  if x.state = 2 && (x.burstAcq || (x.frozen && !x.good && 4 ≤ x.bad)) then
    .next (hwsErr (hwsBump (setHwsPort s p.val { x with burstAcq := true, rburst := true, frozen := false }) p.val hwsWakeFailCntOff) p.val 4)
  else .next s

/-- WAKE_BURST_TIMEOUT (R381): a new burst; after 4 of them, training under R382, from T0. -/
def execWakeBurstTimeout (p : HwNo) (s : State) : Host.Outcome State Fault Refusal := whenLive s <|
  let x := hwsPort s p.val
  if x.state = 2 && x.waking then
    if 4 ≤ x.bursts then .next (hwsRetrain (setHwsPort s p.val { x with full := true, peer := none }) p.val)
    else .next (sendBurst (setHwsPort s p.val { x with bursts := x.bursts + 1 }) p.val)
  else .next s

/-- HWS_FRAME_LOSS_TIMEOUT (R385). -/
def execHwsFrameLossTimeout (p : HwNo) (s : State) : Host.Outcome State Fault Refusal := whenLive s <|
  if (hwsPort s p.val).state = 2 then .next (hwsRetrain s p.val) else .next s

/-- HWS_RETRAIN_RETRY_TIMER (R382): an out-of-service port is trained again. -/
def execHwsRetrainRetryTimer (p : HwNo) (s : State) : Host.Outcome State Fault Refusal := whenLive s <|
  let x := hwsPort s p.val
  if x.state = 5 then .next (hwsLinkState (setHwsPort s p.val { x with state := 1, trained := false, peer := none }) p.val 1) else .next s

/-! ### Gain (R377, R378); steps of 0.5 dB are 8/16 dB -/

/-- One lane's continuous gain step. -/
def gainStep (g want : Nat) : Nat :=
  if g + 8 < want then min 480 (g + 8) else if want + 8 < g then g - 8 else g

/-- GAIN_UPDATE (R377): `want` is each lane's estimate in 1/16 dB. With FIXED set, the gain is held at GAIN_SET. -/
def execGainUpdate (p : HwNo) (want : List Nat) (s : State) : Host.Outcome State Fault Refusal := whenLive s <|
  let x := hwsPort s p.val
  let c := (reg s (hwsReg p.val hwsGainCtrlOff)).toNat
  if x.state ≠ 2 || x.frozen then .next s
  else if bit c 31 then .next (setHwsPort s p.val { x with gain := x.gain.map fun _ => 8 * bits c 0 6 })
  else .next (setHwsPort s p.val { x with gain := (List.range 4).map fun l => gainStep (x.gain.getD l 0) (want.getD l (x.gain.getD l 0)) })

/-- The delimiter is detected on a lane: 32 decisions match it with at most 3 mismatches (R378). -/
def delimiterSeen (w : Word) : Bool := decide (((List.range 32).filter fun i => w.getLsbD i != delimiter.getLsbD i).length ≤ 3)

/-- START_OF_BURST_DELIMITER (R365, R378, R381): where the decisions of every lane in service match the delimiter, the gain that the fast loop has
settled on freezes, the scramblers are reseeded, and acquisition ends. -/
def execStartOfBurstDelimiter (p : HwNo) (b : BurstSeen) (s : State) : Host.Outcome State Fault Refusal := whenLive s <|
  let x := hwsPort s p.val
  if x.state = 2 && (x.burstAcq || x.rburst || x.waking) && ((b.seen.take (hwsWidth x)).all delimiterSeen) then
    .next (setHwsPort s p.val { x with burstAcq := false, rburst := false, frozen := true, bad := 0, good := false, rx := x.peerSeeds,
                                       gain := (List.range 4).map fun l => min 480 (b.gains.getD l 0) })
  else .next s

/-- GAIN_HANDOVER (R378): continuous gain resumes from the frozen value rounded to the nearest step; half way, a free bit says which. -/
def execGainHandover (p : HwNo) (s : State) : Host.Outcome State Fault Refusal := whenLive s <|
  let x := hwsPort s p.val
  if x.frozen then
    let (s1, f) := takeFree s
    let round (l : Nat) : Nat :=
      let g := x.gain.getD l 0
      if g % 8 = 4 then (g / 8 + bits f l 1) * 8 else (g + 4) / 8 * 8
    .next (setHwsPort s1 p.val { x with frozen := false, gain := (List.range 4).map round })
  else .next s

/-! ### Remote writes (R388 to R397) -/

/-- A byte in an assigned range of a tenant that is frozen, saving or restoring (R436). -/
def inHeldRange (s : State) (a : Nat) : Bool :=
  s.tenants.any fun t => tenantHeld s t.1
    && (let b := tget 0 t.2.cfg.base (a / 2 ^ 36 % 8)
        b ≤ a && a < b + tget 0 t.2.cfg.len (a / 2 ^ 36 % 8))

/-- A byte that an inbound write from a package may touch (R393, R436). -/
def inboundOk (s : State) (src a : Nat) : Bool :=
  let st := a / 2 ^ 36 % 8
  let off := a % 2 ^ 36
  reachable s a && replicaTop s st ≤ off && off < poolBottom s st && !inHeldRange s a
    && (List.range 8).any fun w =>
      let base := setting s (0x03C0 + 4 * w)
      let r := setting s (0x03C2 + 4 * w)
      base ≠ 0 && base ≤ a && a < base + setting s (0x03C1 + 4 * w) && a < 2 ^ 48 && bits r 0 10 ≤ src && src ≤ bits r 16 10

/-- Performs the accepted bytes of a WDATA, and answers how many (R393, R394). -/
def inboundWrite (s : State) (src a : Nat) (bs : List Byte) : State × Nat :=
  let ok := (bs.zip (List.range bs.length)).filter fun p => inboundOk s src (a + p.2)
  if ok.length = bs.length then (homeWrite s a bs, bs.length)
  else
    (bumpBy (ok.foldl (fun s p => homeWrite s (a + p.2) [p.1]) s) hwsDeniedCnt 32 (bs.length - ok.length), ok.length)

def inTxn (s : State) (src txn : Nat) : Option InTxn := s.hws.inTxns.find? fun t => t.src == src && t.txn == txn
def putInTxn (s : State) (t : InTxn) : State :=
  { s with hws := { s.hws with inTxns := s.hws.inTxns.filter (fun u => !(u.src == t.src && u.txn == t.txn)) ++ [t] } }
def dropInTxn (s : State) (src txn : Nat) : State :=
  { s with hws := { s.hws with inTxns := s.hws.inTxns.filter fun u => !(u.src == src && u.txn == txn) } }

/-- The arrival counter of a TXN (R260, R394). -/
def arrivalAdd (s : State) (src a : Nat) (denied : Bool) : State :=
  if a ≠ 0 && !denied && (List.range 8).all (fun k => inboundOk s src (a + k)) then
    homeWrite s a (leBytes 8 (leNat (homeRead s a 8) + 1))
  else s

/-- Sends a message of this package toward another, over the twin ports for the twin's package (R389, R390). -/
def hwsSend (s : State) (m : HwsMsg) (twin : Option Nat) (stack : Nat) : State :=
  if twin = some m.dst then
    match twinPort s stack with
    | some p => hwsQueue s p m none
    | none => s
  else match routeTo s m.dst with
    | none => s
    | some r =>
      let m1 := { m with route := r }
      match nextPort s m1 with
      | some p => if hwsServes (hwsPort s p) then hwsQueue s p { m1 with sub := hwsSub s m1 none p } none else bump s hwsDiscardCnt
      | none => s

/-- The twin's package while paired, from its capability word (R390). -/
def twinPkg (s : State) : Option Nat := [6, 7].findSome? fun p => (hwsPort s p).peer.map fun w => bits w 64 10

/-- A TXN whose pieces have all been performed ends: counter, then WDONE (R394). -/
def finishIn (s : State) (paired : Bool) (t : InTxn) : State :=
  match t.close with
  | none => s
  | some (a, n) =>
    if t.pieces = n then
      let s1 := arrivalAdd (dropInTxn s t.src t.txn) t.src a t.denied
      let st := if t.denied then stRemoteDenied else stOk
      hwsSend s1 { cls := 1, type := 1, src := ownPkg s, dst := t.src, txn := t.txn, addr := st + t.bytes * 2 ^ 16 }
        (if paired then twinPkg s else none) 0
    else s

/-- The oldest delivered message of a class and type. -/
def inboxMsg (s : State) (cls type : Nat) : Option (Nat × HwsMsg) := s.hws.inbox.find? fun p => p.2.cls == cls && p.2.type == type
/-- A delivered message is handled; the slots of a REQ are then free (R370). -/
def dropInbox (s : State) (m : Nat × HwsMsg) : State :=
  let s1 := if m.2.cls = 0 then hwsFree s m.1 (hwsPool m.2) (hwsSlots m.2) else s
  { s1 with hws := { s1.hws with inbox := s1.hws.inbox.erase m } }

/-- INBOUND_TXN_TIMEOUT (R394). -/
def execInboundTxnTimeout (src txn : Nat) (s : State) : Host.Outcome State Fault Refusal := whenLive s <| .next (dropInTxn s src txn)

/-- WDATA messages of a write: pieces of at most 256 bytes that cross no 256-byte boundary (R392). The fuel bounds them. -/
def wdataOf (m : HwsMsg) : Nat → Nat → List Byte → List HwsMsg
  | 0, _, _ => []
  | fuel + 1, a, bs =>
    if bs.isEmpty then []
    else
      let k := 256 - a % 256
      { m with type := 1, addr := a, data := bs.take k } :: wdataOf m fuel (a + k) (bs.drop k)

/-- Checks of R388 and of the operand range: the offset of the field at fault. -/
def rwriteBad (s : State) (c : Cmd) : Option Nat :=
  let dst := field c.bytes 16 8
  let n := field c.bytes 24 4
  let arr := field c.bytes 32 8
  if !inTorus s (dst / 2 ^ 48) then some 16
  else if n = 0 || 2 ^ 24 < n then some 24
  else if arr ≠ 0 && arr / 2 ^ 48 ≠ dst / 2 ^ 48 then some 32
  else if arr % 8 ≠ 0 then some 32
  else none

/-- The lowest TXN not in use. -/
def freeTxn (s : State) : Nat := ((List.range (s.hws.outTxns.length + 1)).find? fun t => !s.hws.outTxns.any (fun o => o.txn == t)).getD 0

/-- The way to a package: over a twin port, or a ROUTE (R389, R390). -/
def wayTo (s : State) (paired : Bool) (dst stack : Nat) : Option Nat :=
  if paired && twinPkg s = some dst then (twinPort s stack).map (· + 8) else routeTo s dst

/-- An RWRITE to this package itself (R397). -/
def rwriteSelf (s : State) (q i : Nat) (c : Cmd) (bs : List Byte) : State :=
  let src := ownPkg s
  let a := field c.bytes 16 8 % 2 ^ 48
  let first := ((List.range bs.length).find? fun k => !inboundOk s src (a + k)).map fun k => (a + k) / 2 ^ 36 % 8
  let (s1, n) := inboundWrite s src a bs
  let s2 := arrivalAdd s1 src (field c.bytes 32 8 % 2 ^ 48) (n ≠ bs.length)
  endCmd s2 q i (match first with
    | none => { status := stOk, result := n }
    | some st => { status := stRemoteDenied, detail := st, result := n })

/-- An RWRITE (R388 to R392): refused, unreachable, waiting for room or for a route's drain, or its messages sent. -/
def rwriteRun (s : State) (paired : Bool) (q i : Nat) (c : Cmd) : State :=
  let ga := field c.bytes 16 8
  let dst := ga / 2 ^ 48
  let a := ga % 2 ^ 48
  match rwriteBad s c with
  | some off => endCmd s q i { status := stBadRequest, detail := off }
  | none =>
    match readBuf s (queue s q) c 8 (field c.bytes 8 8) (field c.bytes 24 4) with
    | (s, .error r) => endCmd s q i r
    | (s, .ok bs) =>
        if dst = ownPkg s then rwriteSelf s q i c bs
        else match wayTo s paired dst (a / 2 ^ 36 % 8) with
          | none => endCmd s q i { status := stUnreachable }
          | some r =>
            let busy := s.hws.outTxns.any fun t => t.dst == dst
            if 8192 ≤ s.hws.outTxns.length || (busy && tget r s.hws.lastRoute dst ≠ r) then s
            else
              let t := freeTxn s
              let m : HwsMsg := { cls := 0, type := 2, src := ownPkg s, dst := dst, txn := t, addr := field c.bytes 32 8 % 2 ^ 48 }
              let ws := wdataOf m (bs.length / 256 + 2) a bs
              let s1 := setStage { s with hws := { s.hws with
                outTxns := s.hws.outTxns ++ [{ txn := t, queue := q, index := i, dst := dst }], lastRoute := tput s.hws.lastRoute dst r } } q i .running
              (ws ++ [{ m with data := leBytes 4 ws.length }]).foldl
                (fun s w => hwsSend s w (if paired then twinPkg s else none) (a / 2 ^ 36 % 8)) s1

/-- DETAIL of REMOTE_DENIED at the source: the destination stack, where the write names one; else a free choice of its two (R392). -/
def deniedStack (s : State) (c : Cmd) : State × Nat :=
  let a := field c.bytes 16 8 % 2 ^ 48
  let lo := a / 2 ^ 36 % 8
  let hi := (a + field c.bytes 24 4 - 1) / 2 ^ 36 % 8
  if lo = hi then (s, lo)
  else
    let (s1, f) := takeFree s
    (s1, if bit f 0 then lo else hi)

/-- WDONE (R392). -/
def execWdone (s : State) : Host.Outcome State Fault Refusal := whenLive s <|
  match inboxMsg s 1 1 with
  | none => .next s
  | some (p, m) =>
    let s1 := dropInbox s (p, m)
    match s1.hws.outTxns.find? (fun t => t.txn == m.txn && t.dst == m.src) with
    | none => .next s1
    | some t =>
      let s2 := { s1 with hws := { s1.hws with outTxns := s1.hws.outTxns.erase t } }
      match findCmd (queue s2 t.queue) t.index with
      | none => .next s2
      | some c =>
        let st := m.addr % 2 ^ 16
        let (s3, d) := if st = stRemoteDenied then deniedStack s2 c else (s2, 0)
        .next (endCmd s3 t.queue t.index { status := st, detail := d, result := m.addr / 2 ^ 16 % 2 ^ 32 })

/-- E2E_TIMER_EXPIRY (R395). -/
def execE2eTimerExpiry (q : QueueNo) (i : Nat) (s : State) : Host.Outcome State Fault Refusal := whenLive s <|
  match s.hws.outTxns.find? (fun t => t.queue == q.val && t.index == i) with
  | none => .next s
  | some t =>
    let s1 := bump { s with hws := { s.hws with outTxns := s.hws.outTxns.erase t } } hwsE2eTmoCnt
    .next (endCmd s1 q.val i { status := stUnreachable, detail := 1 })

/-- RFENCE (R396). -/
def execRfence (q : QueueNo) (i : Nat) (s : State) : Host.Outcome State Fault Refusal := whenLive s <|
  match startedCmd s q.val i 0x41 with
  | none => .next s
  | some c =>
    let dst := field c.bytes 8 2
    if !inTorus s dst then .next (endCmd s q.val i { status := stBadRequest, detail := 8 })
    else
      let before := (queue s q.val).cmds.takeWhile fun d => d.index != i
      if before.any (fun d => cmdOpcode d = 0x40 && field d.bytes 16 8 / 2 ^ 48 = dst) then .next s
      else .next (endCmd s q.val i { status := stOk })

/-- PCF_MESSAGE (R369, R389): PCF of another package reports torus links out of service or back; its format is PCF's own. -/
def execPcfMessage (report : List (Nat × Fin 6 × Bool)) (s : State) : Host.Outcome State Fault Refusal := whenLive s <|
  match inboxMsg s 3 1 with
  | none => .next s
  | some m =>
    let s1 := dropInbox s m
    .next (report.foldl (fun s r =>
      let e := (r.1, r.2.1.val)
      { s with hws := { s.hws with down := s.hws.down.filter (· != e) ++ (if r.2.2 then [] else [e]) } })
      { s1 with power := { s1.power with scp := true } })

end Sys2Proof.Machine
end

