-- ==== Sys2Proof/Machine/Twin.lean ====
section
/-!
DEFINITION. Twin pairs: identity, messages, forming, mirroring, heartbeats, fencing and promotion, as operations (R401 to R416).
-/

namespace Sys2Proof.Machine

def setTwin (s : State) (t : Twin) : State := { s with twin := t }

/-! ### Identity and state (R401, R404, R406) -/

def identWritten (s : State) : Bool := s.settings.written.contains idTwinPairId
def ownPair (s : State) : Nat := setting s idTwinPairId
def ownSide (s : State) : Nat := if identWritten s then setting s idTwinSide else 0
def variantCode (s : State) : Nat := match s.fuse.variant with
  | .h3 => 3
  | .h2 => 2

/-- The peer's capability word, once either twin port has taken one (R383). -/
def peerWord (s : State) : Option Nat := [6, 7].findSome? fun p => (hwsPort s p).peer

/-- The twin state changes, and TWIN_STATE is written (R69, R406). -/
def twinTo (s : State) (st : Nat) : State :=
  if s.twin.state = st then s
  else eventTo (setTwin s { s.twin with state := st }) 0 0 0x0008 st s.twin.partner 0 0

/-- A pair is in force or being formed: session messages are taken and sent. -/
def paired (s : State) : Bool := [1, 2, 3, 7].contains s.twin.state && !s.twin.fenced

/-! ### Messages (R408, R513) -/

def twnMsg (s : State) (type addr txn : Nat) (data : List Byte) : HwsMsg :=
  { cls := 2, type := type, src := ownPkg s, dst := (twinPkg s).getD (ownPkg s), txn := txn % 2 ^ 24, addr := addr, data := data }

/-- A message that names a session, over the port of its home stack (R390, R408). -/
def twnSend (s : State) (stack : Nat) (m : HwsMsg) : State := match twinPort s stack with
  | some p => hwsQueue s p m none
  | none => s

/-- A message over both twin ports that are in service. -/
def twnBoth (s : State) (m : HwsMsg) : State :=
  [6, 7].foldl (fun s p => if hwsServes (hwsPort s p) then hwsQueue s p m none else s) s

/-- HB on every channel (R411). -/
def sendHb (s : State) : State :=
  let t := s.twin
  let a := t.live.toNat
  let s1 := twnBoth s (twnMsg s 0 (a + t.state * 2 ^ 32 + ownSide s * 2 ^ 40) t.hbSeq [])
  let s2 := cleatTwin s1 0 t.hbSeq a t.state (ownSide s)
  setTwin s2 { s2.twin with hbSeq := t.hbSeq + 1 }

def fenceAddr (s : State) : Nat := ownPair s + ownSide s * 2 ^ 32

/-- FENCE on every channel (R412). -/
def sendFence (s : State) : State :=
  cleatTwin (twnBoth s (twnMsg s 1 (fenceAddr s) 0 [])) 1 s.twin.hbSeq (ownPair s) (ownSide s) 0

/-- An answer to a FENCE on the channel it came by: 6, 7, or 8 for the Cleat bus. -/
def answerFence (s : State) (chan type : Nat) : State :=
  if chan = 8 then cleatTwin s type s.twin.hbSeq (ownPair s) (ownSide s) 0
  else hwsQueue s chan (twnMsg s type (fenceAddr s) 0 []) none

/-- PAIR_REQ on both ports (R402, R408). -/
def sendPairReq (s : State) : State := match s.twin.act with
  | none => s
  | some a =>
    let id := if identWritten s then ownPair s + ownSide s * 2 ^ 32 else 0xFF * 2 ^ 32
    twnBoth s (twnMsg s 4 (id + (if a.attach then 3 else 1) * 2 ^ 40) 0
      (leBytes 1 (variantCode s) ++ leBytes 1 s.serving.mode ++ leBytes 1 (setting s idKvRowPages) ++ zeros 5 ++ leBytes 8 s.fuse.serial.toNat))

/-! ### Sessions and turns that end (R98, R173, R410) -/

/-- A mirrored session that this package holds active (R410). -/
def isMirrored (x : Session) : Bool := x.state != .free && x.state != .shadow && bit x.sflags 0
/-- Mirrored sessions, and shadows, with their numbers. -/
def mirroredSessions (s : State) : List Nat := ((liveSessions s).filter fun p => isMirrored p.2).map (·.1)
def shadowSessions (s : State) : List Nat := ((liveSessions s).filter fun p => p.2.state == .shadow).map (·.1)

/-- The session's open turn completes with a status, and leaves the admission queue and prefill (R101, R173). -/
def endTurn (s : State) (n status detail : Nat) : State :=
  let x := session s n
  match x.turn with
  | none => s
  | some t =>
    let s1 := setSession s n { x with turn := none }
    let s2 := { s1 with serving := { s1.serving with admq := s1.serving.admq.filter (· != n), prefill := s1.serving.prefill.filter (· != n) } }
    endCmd s2 t.queue t.index { status := status, detail := detail, result := t.written }

/-- SH_END for a session whose shadow the partner holds; it is due later when no twin port serves (R410). -/
def sendEnd (s : State) (n : Nat) : State :=
  let x := session s n
  if bit x.sflags 0 && x.shOpen && !x.mirrorLost && paired s then
    match twinPort s x.home with
    | some _ => twnSend s x.home (twnMsg s 8 n 0 [])
    | none => setTwin s { s.twin with endsDue := s.twin.endsDue ++ [(n, x.home)] }
  else s

/-- A RESERVE whose zero-fill runs ends with its session (R141). -/
def endFilling (s : State) (n : Nat) : State :=
  let x := session s n
  match x.resv with
  | .filling p => if x.state = .waitPage then s else endCmd s p.queue p.index { status := stWrongState, detail := 0 }
  | _ => s

/-- A session ends: its turn completes with the status given, its reservation is abandoned, its shadow is ended, and its rows go
back (R98, R141, R410). -/
def endSession (s : State) (n tstatus tdetail : Nat) : State :=
  freeSession (abandonResv (endFilling (endTurn (sendEnd s n) n tstatus tdetail) n) n) n

/-- A session ends other than by SESSION_END: SESSION_ENDED to its owner (R69). -/
def loseSession (s : State) (n status detail : Nat) : State :=
  let x := session s n
  let t := if status = stBundleRetired then stBundleRetired else stWrongState
  let s1 := eventTo (endSession s n t 0) x.owner x.owner 0x0005 n x.userTag status detail
  if status = stBundleRetired then
    { s1 with serving := { s1.serving with cnt := { s1.serving.cnt with retired := s1.serving.cnt.retired + 1 } } }
  else s1

/-! ### Mirroring (R139, R405, R409, R530) -/

/-- SH_OPEN for a session (R405, R410). -/
def sendOpen (s : State) (n : Nat) : State :=
  let x := session s n
  match twinPort s x.home with
  | none => s
  | some _ =>
    let m := twnMsg s 5 (n + x.owner * 2 ^ 16 + x.network * 2 ^ 24 + x.home * 2 ^ 32 + x.sflags * 2 ^ 40) 0
      (leBytes 4 x.maxTokens ++ zeros 4 ++ leBytes 8 x.userTag ++ (x.bundleDigest ++ zeros 32).take 32)
    setSession (twnSend s x.home m) n { x with shOpen := true }

/-- Addresses of a position's bytes in one layer: keys of every head, then values (R408). -/
def posAddrs (s : State) (x : Session) (layer p : Nat) : List (Option Nat) :=
  [0, 1].flatMap fun k => (List.range x.net.kvHeads).map fun h => elemAddr s x layer k h p 0

/-- The mirroring of a session stops: MIRROR_LOST, and where `tell`, SH_END (R410, R530). -/
def stopMirror (s : State) (n reason : Nat) (tell : Bool) : State :=
  let s0 := if tell then sendEnd s n else s
  let x := session s0 n
  let s1 := setSession s0 n { x with mirrorLost := true }
  logErr s1 x.owner { code := 0x1034, cls := 6, source := 7, die := x.home, unit := x.home, inst := x.owner, arg := n + reason * 2 ^ 32 }

/-- A position of a session is read from a poisoned sector. -/
def posPoisoned (s : State) (x : Session) (p : Nat) : Bool :=
  let w := x.net.headDim * kvElem x.net
  (List.range x.net.layers).any fun l => (posAddrs s x l p).any fun a => match a with
    | some a => (poisonIn s a w).isSome
    | none => false

/-- SH_DATA of one position: every layer, in parts of at most 256 bytes. -/
def sendPos (s : State) (n p : Nat) : State :=
  let x := session s n
  let w := x.net.headDim * kvElem x.net
  (List.range x.net.layers).foldl (fun s l =>
    let bs := (posAddrs s x l p).flatMap fun a => match a with
      | some a => homeRead s a w
      | none => zeros w
    (List.range ((bs.length + 255) / 256)).foldl (fun s k =>
      twnSend s x.home (twnMsg s 6 (n + p * 2 ^ 16) (l + k * 256) ((bs.drop (256 * k)).take 256))) s) s

/-- The committed positions from M on go to the twin, then SH_COMMIT (R139, R409). -/
def mirrorSend (s : State) (n : Nat) : State :=
  let s0 := if (session s n).shOpen then s else sendOpen s n
  let x := session s0 n
  let ps := (List.range (x.c - x.m)).map (· + x.m)
  if (twinPort s0 x.home).isNone || x.c ≤ x.m then s0
  else if ps.any (posPoisoned s0 x) then stopMirror s0 n 0xFF true
  else
    let s1 := ps.foldl (fun s p => sendPos s n p) s0
    twnSend (setSession s1 n { session s1 n with m := x.c }) x.home (twnMsg s1 7 (n + x.c * 2 ^ 16) 0 [])

/-- MIRROR_SEND (R409): nothing is sent outside a pair, to a fenced package's partner, or for a session that is not mirrored. -/
def execMirrorSend (n : Nat) (s : State) : Host.Outcome State Fault Refusal := whenLive s <|
  let x := session s n
  if isMirrored x && !x.mirrorLost && paired s then .next (mirrorSend s n) else .next s

/-! ### Forming (R401 to R405) -/

/-- Every shadow is dropped. -/
def dropShadows (s : State) : State := (shadowSessions s).foldl freeSession s

/-- The cursors and marks of mirroring start afresh. -/
def resetMirror (s : State) : State :=
  (mirroredSessions s).foldl (fun s n => setSession s n { session s n with m := 0, a := 0, shOpen := false, mirrorLost := false }) s

/-- Forming ends without a pair: the state before it, no shadow, and the OP_DONE (R402, R403, R405). -/
def failForm (s : State) (status detail : Nat) : State := match s.twin.act with
  | none => s
  | some a =>
    let s1 := if s.twin.state = 1 then twinTo (dropShadows s) a.prev else s
    opDone (setTwin s1 { s1.twin with act := none, syncSent := false, syncRcvd := false, peerReq := none }) a.op status detail

/-- The checks of R86 and R402 on the peer's word: INCOMPATIBLE, or DENIED with DETAIL 2. -/
def wordRefusal (s : State) (w : Nat) : Option (Nat × Nat) :=
  let ident := bit w 121
  if identWritten s && ident && (bits w 88 32 ≠ ownPair s || bits w 120 1 = ownSide s) then some (stDenied, 2)
  else if bits w 80 8 ≠ variantCode s then some (stIncompatible, 0)
  else none

/-- The identity that a forming package takes (R401). -/
def takeIdentity (s : State) (r : PairReq) : State :=
  if identWritten s then s
  else
    let own := s.fuse.serial.toNat
    let low := min own r.serial
    let (id, side) := if r.side = 0xFF then (if low % 2 ^ 32 = 0 then 1 else low % 2 ^ 32, if own < r.serial then 0 else 1)
      else (r.pairId, 1 - r.side)
    (writeGroup s idTwinPairId [id, side] false).1

/-- SYNC_DONE when every mirrored session has been acknowledged; PAIRED once it has been sent and received (R405). -/
def trySync (s : State) : State :=
  if s.twin.state ≠ 1 then s
  else
    let due := (mirroredSessions s).all fun n => (session s n).mirrorLost || (session s n).a = (session s n).c
    let s1 := if due && !s.twin.syncSent then setTwin (twnSend s 0 (twnMsg s 12 0 0 [])) { (twnSend s 0 (twnMsg s 12 0 0 [])).twin with syncSent := true } else s
    if s1.twin.syncSent && s1.twin.syncRcvd then
      let s2 := twinTo (setTwin s1 { s1.twin with act := none, syncSent := false, syncRcvd := false, peerReq := none }) 2
      match s1.twin.act with
      | some a => opDone s2 a.op stOk 0
      | none => s2
    else s1

/-- The pair forms when each package has an action outstanding and the checks pass (R402, R403, R405). -/
def tryForm (s : State) : State := match s.twin.act, s.twin.peerReq with
  | some a, some r =>
    if s.twin.state = 1 then s
    else if a.partner ≠ 0 && a.partner ≠ r.serial then failForm s stNotFound 0
    else if r.variant ≠ variantCode s then failForm s stIncompatible 0
    else if identWritten s && r.side ≠ 0xFF && (r.pairId ≠ ownPair s || r.side = ownSide s) then failForm s stDenied 2
    else if r.mode ≠ s.serving.mode || r.rowPages ≠ setting s idKvRowPages then failForm s stIncompatible 0
    else
      let s1 := takeIdentity (setTwin s { s.twin with partner := r.serial, fenced := false }) r
      let s2 := twinTo (resetMirror (dropShadows s1)) 1
      trySync ((mirroredSessions s2).foldl sendOpen s2)
  | _, _ => s

/-! ### Promotion (R415) -/

/-- The half of a stack holds a bundle with a digest. -/
def halfBundle (s : State) (lower : Bool) (digest : List Byte) : Option Bundle :=
  match if lower then s.serving.halfA else s.serving.halfB with
  | some b => if b.digest = digest then some b else none
  | none => none

/-- Free rows of a half: stacks in service, the one with most free rows first. -/
def halfStacks (s : State) (lower : Bool) : List Nat :=
  ((List.range 4).map fun k => if lower then k else k + 4).filter (dieInService s)

/-- The stack of a list with the most free rows; ties go to the lowest number. -/
def mostFree (s : State) (l : List Nat) : Option Nat := l.foldl (fun b st => match b with
  | none => some st
  | some t => if (pool s t).free.length < (pool s st).free.length then some st else some t) none

/-- One row is copied to a free row of the stack with the most free rows of a list (R415, R418). -/
def moveRow (s : State) (n j : Nat) (to_ : List Nat) : Option State :=
  let x := session s n
  match mostFree s to_, x.rowMap.find? (fun r => r.1 == j) with
  | some st, some (_, r) =>
    match (pool s st).free with
    | [] => none
    | row :: _ =>
      let bs := homeRead s (rowBase s r.stack r.row) (setting s idKvRowPages * 65536)
      let s1 := claimRow (popRows s st 1).1 st x.owner row
      let s2 := homeWrite s1 (rowBase s st row) bs
      let s3 := setSession s2 n { session s2 n with rowMap := tput (session s2 n).rowMap j { stack := st, row := row } }
      some (freeRows s3 r.stack [r.row])
  | _, _ => none

/-- Every row of a session on some stacks is moved to others; none where the free rows do not reach. -/
def moveRows (s : State) (n : Nat) (from_ to_ : List Nat) : Option State :=
  let js := ((session s n).rowMap.filter fun r => from_.contains r.2.stack).map (·.1)
  js.foldl (fun r j => r.bind fun s => moveRow s n j to_) (some s)

/-- A session's counters of a move (R415, R418). -/
def relocated (s : State) : State := bump s twnRelocatedCnt

/-- The owner that a promoted session passes to (R415). -/
def promotedOwner (s : State) (v : Nat) : Nat := if v ≠ 0 && fnEnabled s v && (tenant s v).state != .unconfigured then v else 0

/-- The promoted session runs under its bundle's network; a frozen owner's session is frozen, and a save that runs counts it (R440). -/
def openPromoted (s : State) (n : Nat) (b : Option Bundle) : State :=
  let x := session s n
  let o := promotedOwner s x.owner
  let t := tenant s o
  let frozen := o ≠ 0 && (t.state == .frozen || t.state == .saving || t.state == .restoring)
  let net := match b with
    | some b => b.nets.getD x.network x.net
    | none => x.net
  let x1 : Session :=
    { x with state := if frozen then .frozen else .active, owner := o, net := net, seed := s.free,
             bundle := (b.map (·.handle)).getD x.bundle, f := x.c, t := x.c, resv := .none, turn := none,
             m := 0, a := 0, shOpen := false, mirrorLost := false }
  let s1 := setSession { s with free := s.free + 1 } n x1
  let s2 := if t.state = .saving then setTenant s1 o { t with op := t.op.map fun p => { p with promoted := p.promoted + 1 } } else s1
  bump s2 twnPromotedCnt

/-- One shadow is made active: trimmed, given to its owner, and placed with its bundle, or ended (R415). -/
def promote (s : State) (n : Nat) (trim : Bool) : State :=
  let x := session s n
  if x.state ≠ .shadow then s
  else
    let cut := ceilDiv x.c (kvSpan x.net)
    let gone := if trim then (x.rowMap.filter fun r => cut ≤ r.1).map (·.2) else []
    let s1 := serveAll (freeRefs (setSession s n { x with rowMap := x.rowMap.filter fun r => !(trim && cut ≤ r.1) }) gone)
    let lower := x.home < 4
    match halfBundle s1 lower x.bundleDigest with
    | some b => openPromoted s1 n (some b)
    | none =>
      if s1.serving.mode ≠ 1 then openPromoted s1 n none
      else match halfBundle s1 (!lower) x.bundleDigest with
      | none => loseSession (setSession s1 n { session s1 n with owner := promotedOwner s1 x.owner }) n stBundleRetired 0
      | some b =>
        match moveRows s1 n (halfStacks s1 lower) (halfStacks s1 (!lower)), mostFree s1 (halfStacks s1 (!lower)) with
        | some s2, some st => openPromoted (relocated (setSession s2 n { session s2 n with home := st })) n (some b)
        | _, _ => loseSession (setSession s1 n { session s1 n with owner := promotedOwner s1 x.owner }) n stBundleRetired 0

/-! ### Twin ports and the pair (R407, R409, R411) -/

/-- The Cleat channel has had a live heartbeat within TWIN_DEAD_MS. -/
def cleatLive (s : State) : Bool := match s.twin.heardAt.find? (fun p => p.1 == 8) with
  | some (_, t) => s.hubTime < t + setting s idTwinDeadMs * 25000
  | none => false

def portsOut (s : State) : Bool := (twinPort s 0).isNone

/-- A twin port leaves service: the cursors of the sessions that it carried go back to A, and the pair may lose its link (R407, R409). -/
def twinPortLost (s : State) (p : Nat) : State :=
  if p < 6 || !paired s then s
  else
    let mine (x : Session) : Bool := portsOut s || (if p = 6 then decide (x.home < 4) else decide (4 ≤ x.home))
    let s1 := (mirroredSessions s).foldl (fun s n =>
      let x := session s n
      if mine x then setSession s n { x with m := x.a } else s) s
    if portsOut s1 && s1.twin.state = 2 && cleatLive s1 then twinTo s1 3 else s1

/-- A twin port comes into service: LINK_LOST ends, sends that were due are made, and an outstanding action is announced (R402, R407). -/
def twinPortUp (s : State) (p : Nat) : State :=
  if p < 6 then s
  else
    let s1 := if s.twin.state = 3 then
        let s2 := (mirroredSessions s).foldl (fun s n => setSession s n { session s n with m := (session s n).a }) s
        twinTo s2 2
      else s
    let s3 := s1.twin.endsDue.foldl (fun s e => twnSend s e.2 (twnMsg s 8 e.1 0 [])) s1
    sendPairReq (setTwin s3 { s3.twin with endsDue := [] })

/-- The package enters SUSPECT: the SCP wakes, and FENCE goes out (R411, R412, R454). -/
def toSuspect (s : State) : State :=
  let s1 := twinTo (setTwin s { s.twin with refused := false }) 4
  sendFence { s1 with power := { s1.power with scp := true } }

/-- A FENCE is accepted (R412). -/
def acceptFence (s : State) (chan : Nat) : State :=
  let s1 := answerFence (setTwin s { s.twin with fenced := true }) chan 2
  let s2 := twinTo s1 9
  { s2 with power := { s2.power with scp := true } }

end Sys2Proof.Machine
end

