-- ==== Sys2Proof/Machine/HwsLate.lean ====
section
/-!
DEFINITION. The Hawser events that meet the pair or the package's sleep: remote writes sent and received, the T0 word and the end
of training (R382 to R386, R392 to R394, R402, R458).
-/

namespace Sys2Proof.Machine

/-- The pair is paired, so that messages to the twin's package take a twin port (R390). -/
def pairUp (s : State) : Bool := s.twin.state = 2 || s.twin.state = 3 || s.twin.state = 7

/-- An earlier RWRITE of the queue to the same destination has not yet been sent (R259). -/
def rwriteBehind (x : Queue) (i : Nat) (c : Cmd) : Bool :=
  (x.cmds.takeWhile fun d => d.index != i).any fun d => cmdOpcode d = 0x40
    && field d.bytes 16 8 / 2 ^ 48 = field c.bytes 16 8 / 2 ^ 48 && (d.stage = .fetched || d.stage = .started)

/-- RWRITE (R259, R392): after the earlier ones of its queue to its destination. -/
def execRwrite (q : QueueNo) (i : Nat) (s : State) : Host.Outcome State Fault Refusal := whenLive s <|
  match startedCmd s q.val i 0x40 with
  | none => .next s
  | some c => if rwriteBehind (queue s q.val) i c then .next s else .next (rwriteRun s (pairUp s) q.val i c)

/-- The stack that an inbound message addresses. -/
def msgDie (m : HwsMsg) : Nat := m.addr / 2 ^ 36 % 8

/-- WDATA (R393, R394): held while the package or the die wakes (R458), and while 4,096 inbound TXNs are open. -/
def execWdata (s : State) : Host.Outcome State Fault Refusal := whenLive s <|
  match inboxMsg s 0 1 with
  | none => .next s
  | some (p, m) =>
    if !dieAwake s (msgDie m) then .next (wakeDie s (msgDie m))
    else if s.power.entering then .next (wakePackage s)
    else if (inTxn s m.src m.txn).isNone && 4096 ≤ s.hws.inTxns.length then .next s
    else
      let t := (inTxn s m.src m.txn).getD { src := m.src, txn := m.txn }
      let (s1, n) := inboundWrite (dropInbox s (p, m)) m.src m.addr m.data
      let t1 := { t with pieces := t.pieces + 1, bytes := t.bytes + n, denied := t.denied || n ≠ m.data.length }
      .next (finishIn (putInTxn s1 t1) (pairUp s) t1)

/-- CLOSE (R394). -/
def execClose (s : State) : Host.Outcome State Fault Refusal := whenLive s <|
  match inboxMsg s 0 2 with
  | none => .next s
  | some (p, m) =>
    if s.power.deep || s.power.entering then .next (wakePackage s)
    else if (inTxn s m.src m.txn).isNone && 4096 ≤ s.hws.inTxns.length then .next s
    else
      let t := (inTxn s m.src m.txn).getD { src := m.src, txn := m.txn }
      let t1 := { t with close := some (m.addr, field m.data 0 4) }
      .next (finishIn (putInTxn (dropInbox s (p, m)) t1) (pairUp s) t1)

/-! ### T0 and training (R382 to R386) -/

/-- HWS_LINK_CHANGE with the HWS_ERR bits that a change set (R521). -/
def hwsChange (s : State) (p bits_ : Nat) : State :=
  logErr (orReg s (hwsReg p hwsErrOff) bits_) 0 { code := 0x1021, cls := 6, source := 5, die := 8, unit := p, arg := bits_ }

/-- The peer that R386 expects of a port. -/
def peerExpected (s : State) (p w : Nat) : Bool :=
  if 6 ≤ p then bits w 74 3 = p else bits w 74 3 = p ^^^ 1 && bits w 64 10 = neighbour s (ownPkg s) p

/-- CAPABILITY_WORD (R383, R386, R402): a peer that is not the expected one leaves the port out of service, and so does a twin of the
other ordering code (R23). -/
def execCapabilityWord (p : HwNo) (word : BitVec 128) (s : State) : Host.Outcome State Fault Refusal := whenLive s <|
  let n := p.val
  let x := hwsPort s n
  let w := word.toNat
  if x.state ≠ 1 || (x.trained && !x.full) then .next s
  else
    let s1 := setHwsPort s n { x with peer := some w }
    if !peerExpected s n w then .next (hwsLinkState (hwsChange (setHwsPort s1 n { x with peer := some w, state := 5 }) n 0x100) n 5)
    else
      let s2 := if 6 ≤ n && bits w 80 8 ≠ variantCode s then
          hwsLinkState (setHwsPort s1 n { x with peer := some w, state := 5 }) n 5 else s1
      match (if 6 ≤ n then wordRefusal s w else none) with
      | some r => .next (failForm s2 r.1 r.2)
      | none => .next s2

/-- 212.5 Gb/s is allowed at both ends (R22, R362). -/
def fastAllowed (s : State) (x : HwsPort) : Bool := match x.peer with
  | some w => s.fuse.variant == .h3 && setting s idHwsRateMax = 0 && bits w 77 2 = 2 && !bit w 79
  | none => false

/-- A port that loses its link loses the frames it holds (R385), and what waited there: a forwarded message is counted as discarded (R389). -/
def hwsDown (s : State) (p : Nat) : State :=
  let s1 := dropWaiting s p
  twinPortLost (hwsLinkState (setHwsPort s1 p { hwsPort s1 p with state := 5, full := false }) p 5) p

/-- T3 has trained the scrambler seeds of both directions (R365, R382). -/
def hwsSeeded (x : HwsPort) (p : Nat) (peer : List (BitVec 31)) : HwsPort :=
  let mine := (List.range 4).map (Config.hwsSeed p)
  { x with seeds := mine, peerSeeds := peer, tx := mine, rx := peer }

/-- The end of training from start: a fresh link, or out of service. -/
def startTrained (s : State) (p : Nat) (result : Option (Bool × Fin 3)) (seeds : List (BitVec 31)) : State :=
  let x := hwsPort s p
  match result with
  | none => hwsDown s p
  | some (fast, w) =>
    let fb := fastAllowed s x && !fast
    let s1 := setHwsPort s p (hwsSeeded { state := 2, rate := if fast then 2 else 1, width := w.val + 1, fallback := fb, trained := true,
                                          peer := x.peer, gain := x.gain, waiting := x.waiting } p seeds)
    let s2 := if fb then hwsChange s1 p 0x80 else s1
    twinPortUp (hwsPump (hwsLinkState s2 p 2) p 256) p

/-- The end of training of a port that has been in service (R374, R381, R384, R385): retraining keeps the rate, and keeps or reduces the width;
training from T0 gives both. The held frames are sent again. -/
def inTrained (s : State) (p : Nat) (result : Option (Bool × Fin 3)) (seeds : List (BitVec 31)) : State :=
  let x := hwsPort s p
  match result with
  | none => hwsDown (hwsChange s p 0x200) p
  | some (fast, w) =>
    let lost := !x.full && x.width = 3 && w.val + 1 ≠ 3
    let fb := x.full && fastAllowed s x && !fast
    let y := if x.full then { x with rate := if fast then 2 else 1, width := w.val + 1, fallback := fb }
      else { x with width := if x.width = 3 then w.val + 1 else x.width }
    let s1 := setHwsPort s p (hwsSeeded { y with state := 2, full := false } p seeds)
    let s2 := hwsLinkState (hwsChange s1 p (0x20 + (if lost then 0x40 else 0) + (if fb then 0x80 else 0))) p 2
    let z := hwsPort s2 p
    hwsPump (twinPortUp (z.held.foldl (fun s f => sendFrame s p 0 f.1 f.2) (setHwsPort s2 p { z with consec := 0, lastOldest := none })) p) p 256

/-- HWS_TRAINING_COMPLETE (R365, R384, R385). A result that the two ends do not allow does not occur. -/
def execHwsTrainingComplete (p : HwNo) (t : HwsTrained) (s : State) : Host.Outcome State Fault Refusal := whenLive s <|
  let result := t.result
  let x := hwsPort s p.val
  let fast := match result with
    | some (f, w) => f && (w.val ≠ 2 || !fastAllowed s x)
    | none => false
  let t0 := !x.trained || x.full
  if x.state ≠ 1 || (t0 && (fast || (result.isSome && x.peer.isNone))) then .next s
  else if x.trained then .next (inTrained s p.val result t.seeds)
  else .next (startTrained s p.val result t.seeds)

end Sys2Proof.Machine
end

