-- ==== Sys2Proof/Machine/Pairs.lean ====
section
/-!
DEFINITION. The twin messages and timers as commands (R405 to R420). A message that has arrived is the oldest of its type in the
package; channel 8 is the Cleat bus.
-/

namespace Sys2Proof.Machine

/-- Takes the oldest twin message of a type; a session message outside a pair, or at a fenced package, is discarded (R412). -/
def takeTwn (s : State) (type : Nat) (f : State → Nat → HwsMsg → State) : Host.Outcome State Fault Refusal :=
  match inboxMsg s 2 type with
  | none => .next s
  | some pm =>
    let s1 := dropInbox s pm
    if 5 ≤ type && !paired s then .next s1 else .next (f s1 pm.1 pm.2)

/-- S, the session that a message names. -/
def msgSession (m : HwsMsg) : Nat := m.addr % 2 ^ 16
/-- ADDR bytes 2 to 5. -/
def msgValue (m : HwsMsg) : Nat := m.addr / 2 ^ 16 % 2 ^ 32

/-! ### Heartbeats (R407, R411, R454) -/

/-- What a live heartbeat changes: SUSPECT is left before PROMOTING, and a pair without twin ports is LINK_LOST. -/
def liveHb (s : State) (chan : Nat) : State :=
  let s1 := setTwin s { s.twin with heardAt := tput s.twin.heardAt chan s.hubTime }
  if s1.twin.state = 4 then twinTo s1 (if chan = 8 && portsOut s1 then 3 else 2)
  else if s1.twin.state = 2 && chan = 8 && portsOut s1 then twinTo s1 3 else s1

/-- HB (R411): live when LIVE differs from the last received on the channel. A partner that has left the pair leaves this package SOLO (R416). -/
def execHb (s : State) : Host.Outcome State Fault Refusal := whenLive s <|
  takeTwn s 0 fun s chan m =>
    let live := m.addr % 2 ^ 32
    let fresh := !(s.twin.heard.any fun h => h.1 == chan && h.2 == live)
    let s1 := setTwin s { s.twin with heard := tput s.twin.heard chan live, peerState := some (bits m.addr 32 8) }
    let s2 := if fresh then liveHb s1 chan else s1
    if bits m.addr 32 8 = 8 && (s2.twin.state = 2 || s2.twin.state = 3) && (shadowSessions s2).isEmpty then twinTo s2 6 else s2

/-- HEARTBEAT_TICK (R411). -/
def execHeartbeatTick (s : State) : Host.Outcome State Fault Refusal := whenLive s <|
  if s.start.phase = .reset || s.start.phase = .rom then .next s else .next (sendHb s)

/-- LIVE_INCREMENT (R411, R454, R532): PCF while it runs, or the twin unit while PCF has halted the SCP. -/
def execLiveIncrement (s : State) : Host.Outcome State Fault Refusal := whenLive s <|
  if s.start.pcfRunning && !s.err.fatal then .next (setTwin s { s.twin with live := s.twin.live + 1 }) else .next s

/-- A live heartbeat has arrived in this HUB_TIME cycle (R10, R411). -/
def heardNow (s : State) : Bool := s.twin.heardAt.any fun h => h.2 == s.hubTime

/-- TWIN_DEAD_TIMEOUT (R10, R405, R411): a live heartbeat of the same cycle is taken, and the expiry is none. -/
def execTwinDeadTimeout (s : State) : Host.Outcome State Fault Refusal := whenLive s <|
  if heardNow s then .next s
  else if s.twin.state = 2 || s.twin.state = 3 then .next (toSuspect s)
  else if s.twin.state = 1 then .next (failForm s stNotFound 0)
  else .next s

/-! ### Fencing (R412, R413) -/

/-- TWIN_FENCE (R412). -/
def execTwinFence (s : State) : Host.Outcome State Fault Refusal := whenLive s <|
  takeTwn s 1 fun s chan m =>
    if !identWritten s || m.addr % 2 ^ 32 ≠ ownPair s then bump s twnFenceBadCnt
    else if bits m.addr 32 8 = ownSide s then s
    else if ownSide s = 0 && (s.twin.state = 4 || s.twin.state = 5) then answerFence s chan 3
    else acceptFence s chan

/-- An answer concerns this package's own FENCE. -/
def ownAnswer (s : State) (m : HwsMsg) : Bool := s.twin.state = 4 && m.addr % 2 ^ 32 = ownPair s && bits m.addr 32 8 ≠ ownSide s

/-- FENCE_ACK (R413). -/
def execFenceAck (s : State) : Host.Outcome State Fault Refusal := whenLive s <|
  takeTwn s 2 fun s _ m => if ownAnswer s m then twinTo s 5 else s

/-- FENCE_NAK (R413). -/
def execFenceNak (s : State) : Host.Outcome State Fault Refusal := whenLive s <|
  takeTwn s 3 fun s _ m => if ownAnswer s m then setTwin s { s.twin with refused := true } else s

/-- FENCE_RESEND_TICK (R412). -/
def execFenceResendTick (s : State) : Host.Outcome State Fault Refusal := whenLive s <| if s.twin.state = 4 then .next (sendFence s) else .next s

/-- FENCE_ANSWER_TIMEOUT (R413). -/
def execFenceAnswerTimeout (s : State) : Host.Outcome State Fault Refusal := whenLive s <|
  if s.twin.state = 4 && !s.twin.refused then .next (twinTo s 5) else .next s

/-- FENCED_SESSION_CLEANUP (R412): reservations are rolled back, turns end, and the sessions become shadows. An action of the package's
own that runs ends with them. -/
def execFencedSessionCleanup (s : State) : Host.Outcome State Fault Refusal := whenLive s <|
  if s.twin.fenced && s.start.pcfRunning then
    let s1 := (mirroredSessions s).foldl (fun s n =>
      let s2 := abandonResv (endFilling (endTurn s n stWrongState 3) n) n
      setSession s2 n { session s2 n with state := .shadow, shOpen := false, mirrorLost := false, m := 0, a := 0 }) s
    let s3 := failForm s1 stNotFound 0
    match s3.twin.detach with
    | some op => .next (opDone (setTwin s3 { s3.twin with detach := none }) op stWrongState 9)
    | none => .next s3
  else .next s

/-! ### Pairing (R402 to R405) -/

/-- PAIR_REQ (R402, R403). -/
def execPairReq (s : State) : Host.Outcome State Fault Refusal := whenLive s <|
  takeTwn s 4 fun s _ m =>
    let r : PairReq := { pairId := m.addr % 2 ^ 32, side := bits m.addr 32 8, variant := field m.data 0 1, mode := field m.data 1 1,
                         rowPages := field m.data 2 1, serial := field m.data 8 8 }
    tryForm (setTwin s { s.twin with peerReq := some r })

/-- SYNC_DONE (R405). -/
def execSyncDone (s : State) : Host.Outcome State Fault Refusal := whenLive s <|
  takeTwn s 12 fun s _ _ => trySync (setTwin s { s.twin with syncRcvd := true })

/-- TWIN_PAIR_WAIT_TIMEOUT (R402). -/
def execTwinPairWaitTimeout (s : State) : Host.Outcome State Fault Refusal := whenLive s <|
  if s.twin.act.isSome && s.twin.state ≠ 1 then .next (failForm s stNotFound 0) else .next s

/-! ### Shadows (R408 to R410) -/

/-- SH_NAK for a session, on the port of a stack. -/
def sendNak (s : State) (n home reason : Nat) : State := twnSend s home (twnMsg s 9 (n + reason * 2 ^ 16) 0 [])

/-- A shadow is freed with SH_NAK (R410, R418, R420). -/
def nakShadow (s : State) (n reason : Nat) : State := sendNak (freeSession s n) n (session s n).home reason

/-- The bundle with a digest, wherever the package holds it. -/
def bundleOf (s : State) (digest : List Byte) : Option Bundle :=
  (s.serving.halfA.toList ++ s.serving.halfB.toList ++ s.serving.active.toList ++ s.serving.staged.toList).find? (·.digest == digest)

/-- SH_OPEN (R410). While forming, a number in use on both packages ends the forming (R403). -/
def execShOpen (s : State) : Host.Outcome State Fault Refusal := whenLive s <|
  takeTwn s 5 fun s _ m =>
    let n := msgSession m
    let home := bits m.addr 32 8 % 8
    if 16384 ≤ n || (session s n).state ≠ .free then
      let s1 := sendNak s n home 1
      if s.twin.state = 1 && (session s n).state ≠ .shadow then failForm s1 stWrongState 0 else s1
    else
      let digest := (m.data.drop 16).take 32
      let b := bundleOf s digest
      let net := bits m.addr 24 8
      setSession s n { gen := (session s n).gen, state := .shadow, owner := bits m.addr 16 8, network := net, home := home, sflags := bits m.addr 40 8,
                       maxTokens := field m.data 0 4, userTag := field m.data 8 8, bundleDigest := digest,
                       bundle := (b.map (·.handle)).getD 0,
                       net := match b with
                         | some b => b.nets.getD net {}
                         | none => {} }

/-- Rows that shadows hold on a stack. -/
def shadowRows (s : State) (st : Nat) : Nat :=
  ((shadowSessions s).map fun n => ((session s n).rowMap.filter fun r => r.2.stack == st).length).sum

/-- A shadow has a row for a position, popped where it needs one; none where the pop fails (R122, R410). -/
def shadowRow (s : State) (n p : Nat) : Option State :=
  let x := session s n
  let j := p / kvSpan x.net
  if x.rowMap.any (fun r => r.1 == j) then some s
  else
    let st := x.home
    if x.net.kvHeads ≠ 0 && popServed s st 1 1 && (shadowRows s st + 1) * 1000 ≤ setting s idTwinShadowPm * (pool s st).rows then
      let r := popRows s st 1
      let s1 := fillRows r.1 st x.owner r.2
      some (setSession s1 n { session s1 n with rowMap := r.2.foldl (fun t row => tput t j { stack := st, row := row }) x.rowMap })
    else none

/-- Where byte `b` of a position's bytes in a layer lies. -/
def posByte (s : State) (x : Session) (layer p b : Nat) : Option Nat :=
  let w := x.net.headDim * kvElem x.net
  (elemAddr s x layer (b / (x.net.kvHeads * w)) (b / w % x.net.kvHeads) p 0).map (· + b % w)

/-- SH_DATA (R410). -/
def execShData (s : State) : Host.Outcome State Fault Refusal := whenLive s <|
  takeTwn s 6 fun s _ m =>
    let n := msgSession m
    let p := msgValue m
    if (session s n).state ≠ .shadow then s
    else match shadowRow s n p with
      | none => nakShadow s n (if dieInService s (session s n).home then 0 else 2)
      | some s1 =>
        let x := session s1 n
        (m.data.zip (List.range m.data.length)).foldl (fun s e =>
          match posByte s x (m.txn % 256) p (m.txn / 256 % 256 * 256 + e.2) with
          | some a => homeWrite s a [e.1]
          | none => s) s1

/-- SH_COMMIT, answered with SH_ACK (R409, R410). -/
def execShCommit (s : State) : Host.Outcome State Fault Refusal := whenLive s <|
  takeTwn s 7 fun s _ m =>
    let n := msgSession m
    let x := session s n
    if x.state ≠ .shadow then s
    else
      let c := msgValue m
      twnSend (setSession s n { x with c := c, f := c, t := c }) x.home (twnMsg s 13 (n + c * 2 ^ 16) 0 [])

/-- SH_END (R410). -/
def execShEnd (s : State) : Host.Outcome State Fault Refusal := whenLive s <|
  takeTwn s 8 fun s _ m => if (session s (msgSession m)).state = .shadow then freeSession s (msgSession m) else s

/-- SH_NAK (R403, R410). -/
def execShNak (s : State) : Host.Outcome State Fault Refusal := whenLive s <|
  takeTwn s 9 fun s _ m =>
    let n := msgSession m
    let reason := bits m.addr 16 8
    if isMirrored (session s n) && !(session s n).mirrorLost then
      let s1 := trySync (stopMirror (bump s twnMirrorLostCnt) n reason false)
      if s.twin.state = 1 && reason = 1 then failForm s1 stWrongState 0 else s1
    else s

/-- SH_ACK (R409). -/
def execShAck (s : State) : Host.Outcome State Fault Refusal := whenLive s <|
  takeTwn s 13 fun s _ m =>
    let n := msgSession m
    if isMirrored (session s n) then trySync (setSession s n { session s n with a := msgValue m }) else s

/-! ### Promotion (R415, R416, R420) -/

/-- HANDOVER (R407, R416): the last one leaves this package SOLO, unless the partner's heartbeat says that it stays paired. -/
def execHandover (s : State) : Host.Outcome State Fault Refusal := whenLive s <|
  takeTwn s 10 fun s _ m =>
    let n := msgSession m
    let x := session s n
    if x.state ≠ .shadow then s
    else
      let s1 := promote (setSession s n { x with c := msgValue m, f := msgValue m, t := msgValue m }) n false
      if (shadowSessions s1).isEmpty && s1.twin.peerState ≠ some 2 && (s1.twin.state = 2 || s1.twin.state = 3) then twinTo s1 6 else s1

/-- PROMOTE_REQ (R420). -/
def execPromoteReq (s : State) : Host.Outcome State Fault Refusal := whenLive s <| takeTwn s 11 fun s _ m => promote s (msgSession m) true

/-- The lowest-numbered shadow. -/
def firstShadow (s : State) : Option Nat := (shadowSessions s).head?

/-- PROMOTE_SHADOW (R407, R415). -/
def execPromoteShadow (s : State) : Host.Outcome State Fault Refusal := whenLive s <|
  if s.twin.state = 5 then
    match firstShadow s with
    | none => .next (twinTo s 6)
    | some n =>
      let s1 := promote s n true
      .next (if (shadowSessions s1).isEmpty then twinTo s1 6 else s1)
  else .next s

/-! ### Detach (R416) -/

/-- One mirrored session is handed to the partner: its turn ends, the rest of its positions go, then HANDOVER, and the copy here is
freed. -/
def handOver (s : State) (n : Nat) : State :=
  let s1 := mirrorSend (endTurn s n stWrongState 3) n
  let x := session s1 n
  freeSession (twnSend s1 x.home (twnMsg s1 10 (n + x.c * 2 ^ 16) 0 [])) n

/-- When no session but shadows remains, the detaching package drops its shadows, telling the partner, and is DETACHED (R416). -/
def tryDetach (s : State) : State :=
  if s.twin.state = 7 && s.twin.detach.isSome && ((liveSessions s).filter fun p => p.2.state != .shadow).isEmpty then
    let s1 := (shadowSessions s).foldl (fun s n => twnSend (freeSession s n) (session s n).home (twnMsg s 8 n 0 [])) s
    let s2 := twinTo s1 8
    match s2.twin.detach with
    | some op => opDone (setTwin s2 { s2.twin with detach := none }) op stOk 0
    | none => s2
  else s

/-- A step boundary of a detaching package: every mirrored session without an open reservation is handed over (R416). A restart of PCF
ends the detach, and nothing is handed over after it (R65). -/
def detachStep (s : State) : State :=
  if s.twin.state = 7 && s.twin.detach.isSome then
    tryDetach (((mirroredSessions s).filter fun n => (session s n).resv == .none && !(session s n).mirrorLost).foldl handOver s)
  else s

/-- DETACH_DRAIN_EXPIRY (R416). -/
def execDetachDrainExpiry (s : State) : Host.Outcome State Fault Refusal := whenLive s <|
  if s.twin.state = 7 && s.twin.detach.isSome then
    let s1 := ((mirroredSessions s).filter fun n => !(session s n).mirrorLost).foldl (fun s n => handOver (abandonResv (endFilling s n) n) n) s
    let rest := ((liveSessions s1).filter fun p => p.2.state != .shadow).map (·.1)
    .next (tryDetach (rest.foldl (fun s n => loseSession s n stPoolEmpty (session s n).home) s1))
  else .next s

end Sys2Proof.Machine
end

