-- ==== Sys2Proof/Machine/Pcf.lean ====
section
/-!
DEFINITION. How PCF takes and answers requests: the request that an issuer's queue holds at its head, the layouts and their checks,
the order of the checks, and the answer (R48 to R51, R58 to R66, R433, R479, R509, R511, R532).
-/

namespace Sys2Proof.Machine

/-! ### Issuers and requests -/

/-- Number of an issuer: a mailbox, or 64 for the Cleat port (R511). -/
def issuerNo : Issuer → Nat
  | .mbx n => n.val
  | .cleat => 64

/-- A request as PCF serves it. -/
structure Req where
  who : Nat
  seq : Half
  hdr : Hdr
  payload : List Byte
  deriving DecidableEq, Repr

/-- The header and payload of a mailbox frame carried on the bus (R45, R509). -/
def frameHdr (bs : List Byte) : Hdr :=
  { opcode := field bs 0 2, tag := BitVec.ofNat 16 (field bs 2 2), length := field bs 4 4, flags := BitVec.ofNat 32 (field bs 8 4) }

/-- The request that PCF serves next of an issuer: requests of one mailbox run in SEQ order (R51). -/
def curReq (s : State) (w : Nat) : Option Req :=
  if w = 64 then s.cleat.running.head?.map fun r =>
    { who := 64, seq := BitVec.ofNat 16 r.seq, hdr := frameHdr r.bytes, payload := (r.bytes.drop 16).take (field r.bytes 4 4) }
  else ((mbx s w).held.find? fun h => h.answer.isNone).map fun h => { who := w, seq := h.seq, hdr := h.hdr, payload := h.payload }

/-- The instance that a request acts as: the bus is a PF issuer (R511). -/
def Req.inst (r : Req) : Nat := opInst r.who

/-- FLAGS of every PCF response: version 3.4 and RESP (R61). -/
abbrev pcfFlags : Nat := 0x00030401

/-- Answers the request at an issuer's head: a mailbox's answer waits for its posting, the bus's goes out as RESPONSE frames. -/
def answer (s : State) (r : Req) (a : Resp) : State :=
  if r.who = 64 then
    match s.cleat.running with
    | [] => s
    | c :: rest =>
      cleatRespond (setCleat s { s.cleat with running := rest }) c.src c.seq c.broadcast
        (frameBytes r.hdr.opcode r.hdr.tag pcfFlags a.status a.detail a.payload)
  else
    let m := mbx s r.who
    setMbx s r.who { m with held := m.held.map fun h => if h.seq = r.seq && h.answer.isNone then { h with answer := some a } else h }

def refuse (s : State) (r : Req) (status detail : Nat) : State := answer s r { status := status, detail := detail }
def okWith (s : State) (r : Req) (bs : List Byte) : State := answer s r { status := stOk, payload := bs }
/-- ACCEPTED carries its command's response layout (R60). -/
def acceptedWith (s : State) (r : Req) (bs : List Byte) : State := answer s r { status := stAccepted, payload := bs }
def accepted (s : State) (r : Req) : State := acceptedWith s r []

/-- The identity of the operation that a request starts (R66). -/
def Req.op (r : Req) : OpId := { issuer := r.who, seq := r.seq, tag := r.hdr.tag, opcode := r.hdr.opcode }

/-! ### Opcodes and issuers (R61, R64, R70, R511) -/

def opcodes : List Nat :=
  [0x0001, 0x0002, 0x0003, 0x0101, 0x0102, 0x0103, 0x0201, 0x0202, 0x0203, 0x0301, 0x0302, 0x0303, 0x0401, 0x0402, 0x0403, 0x0501,
   0x0502, 0x0503, 0x0601, 0x0602, 0x0603, 0x0701, 0x0702, 0x0703, 0x0801, 0x0802]

/-- Commands that a VF may issue (R64). -/
def vfMay (op : Nat) : Bool :=
  [0x0001, 0x0002, 0x0003, 0x0101, 0x0102, 0x0103, 0x0203, 0x0301, 0x0302, 0x0303, 0x0401, 0x0403, 0x0503, 0x0702].contains op

/-- Commands that are served on the bus (R511). -/
def busMay (op : Nat) (payload : List Byte) : Bool :=
  [0x0001, 0x0002, 0x0203, 0x0403, 0x0401, 0x0503, 0x0602, 0x0702, 0x0801, 0x0802].contains op || (op = 0x0603 && field payload 0 1 = 4)

/-- Commands that a frozen tenant's mailbox serves (R64). -/
def frozenMay (op : Nat) : Bool := [0x0001, 0x0002, 0x0503, 0x0702].contains op

/-! ### Layouts (R60) -/

/-- A field of a request layout: offset, size, and the values that it may hold. -/
structure ReqField where
  off : Nat
  size : Nat
  ok : Nat → Bool

def anyF (off size : Nat) : ReqField := ⟨off, size, fun _ => true⟩
def zeroF (off size : Nat) : ReqField := ⟨off, size, fun v => v == 0⟩
def rangeF (off size lo hi : Nat) : ReqField := ⟨off, size, fun v => decide (lo ≤ v) && decide (v ≤ hi)⟩
def alignF (off size a : Nat) : ReqField := ⟨off, size, fun v => v % a == 0⟩
/-- A power of two in a range, or 0 where that is allowed. -/
def powerF (off size lo hi : Nat) (zero : Bool) : ReqField :=
  ⟨off, size, fun v => (zero && v == 0) || (decide (lo ≤ v) && decide (v ≤ hi) && 2 ^ Nat.log2 v == v)⟩

/-- Links of each kind of LINK_TEST (R85). -/
def linkCount (kind : Nat) : Nat := if kind = 0 then 12 else if kind = 3 then 1 else 8
def linkPatterns (kind : Nat) : List Nat := match kind with
  | 0 => [1, 2, 3, 4]
  | 1 => [1, 2, 3, 0x10, 0x11]
  | 2 => [1, 2, 3]
  | _ => [1]
def laneLimit (kind : Nat) : Nat := match kind with
  | 0 => 2 ^ 26
  | 1 => 16
  | _ => 2 ^ 32

/-- The bundle that new sessions are bound to: from PHASE 4 of a swap the new one (R97). -/
def admitBundle (s : State) : Option Bundle := match s.serving.swap with
  | some w => if w.stage = .drainB || w.stage = .loadB then some w.bundle else s.serving.active
  | none => s.serving.active

/-- The request layout of a command, with the ranges that the spec states for its fields. -/
def layoutOf (s : State) (r : Req) : List ReqField :=
  let p := r.payload
  let vf := r.inst ≠ 0
  match r.hdr.opcode with
  | 0x0003 => [alignF 0 8 4096, powerF 8 4 64 65536 true, zeroF 12 4]
  | 0x0101 =>
    let asidOk := fun v => (vf && (tenant s r.inst).cfg.asidCount == 0)
      || (decide (v ≠ 0) && decide (v < 4096) && (tagOwner s v == r.inst))
    [rangeF 0 1 0 3, ⟨1, 1, fun v => v == 0xFF || decide (v < 8) || field p 0 1 == 3⟩,
     ⟨2, 2, fun v => v == 0xFFFF || (if vf then decide (8 ≤ v) && decide (v ≤ 63) else decide (16 ≤ v) && decide (v ≤ 2047))⟩,
     powerF 4 4 64 65536 false, alignF 8 8 4096, alignF 16 8 64, ⟨24, 2, asidOk⟩, rangeF 26 1 0 3, zeroF 27 5]
  | 0x0102 => [anyF 0 2, rangeF 2 1 0 1, zeroF 3 1]
  | 0x0103 => [anyF 0 2, zeroF 2 2]
  | 0x0201 => [alignF 0 8 65536, anyF 8 8, powerF 16 1 1 8 false, zeroF 17 7]
  | 0x0202 => [anyF 0 4, rangeF 4 4 0 600000]
  | 0x0301 =>
    let nets := match admitBundle s with
      | some b => b.nets
      | none => []
    let lim := if nets.isEmpty then 2 ^ 32 else netLimit (nets.getD (field p 0 1) {})
    [⟨0, 1, fun v => nets.isEmpty || decide (v < nets.length)⟩, rangeF 1 1 0 3, ⟨2, 1, fun v => v == 0xFF || decide (v < 8)⟩, zeroF 3 1,
     rangeF 4 4 1 lim, anyF 8 8]
  | 0x0302 => [anyF 0 4, rangeF 4 1 0 1, zeroF 5 3]
  | 0x0303 => [anyF 0 4, zeroF 4 4, anyF 8 8]
  | 0x0401 => [⟨0, 2, fun v => (settingDef v).isSome⟩, zeroF 2 2]
  | 0x0402 => [rangeF 0 2 1 32, rangeF 2 1 0 1, zeroF 3 5]
  | 0x0501 =>
    [rangeF 0 1 1 63, zeroF 1 1, rangeF 2 2 0 64, rangeF 4 4 0 16384] ++ (List.range 8).map (fun k => alignF (8 + 4 * k) 4 64)
      ++ [rangeF 40 2 1 64, zeroF 42 2]
  | 0x0502 =>
    let act := field p 1 1
    let none_ := act = 1 || act = 2 || act = 6
    let log := act = 5
    [rangeF 0 1 1 63, rangeF 1 1 1 6, zeroF 2 6, ⟨8, 8, fun v => if none_ then v == 0 else v % 4096 == 0⟩,
     ⟨16, 8, fun v => !log || decide (field p 32 8 / 4096 ≤ v)⟩, ⟨24, 8, fun v => !log || v % 4096 == 0⟩,
     ⟨32, 8, fun v => !log || (v % 4096 == 0 && v != 0 && decide (field p 24 8 + v ≤ 2 ^ 48))⟩]
  | 0x0503 => [⟨0, 1, fun v => if vf then v == 0 else decide (1 ≤ v) && decide (v ≤ 63)⟩, zeroF 1 3]
  | 0x0601 =>
    let k := field p 0 1
    [rangeF 0 1 0 3, rangeF 1 1 0 (linkCount k - 1), ⟨2, 1, fun v => (linkPatterns k).contains v⟩, zeroF 3 1,
     rangeF 4 4 0 (laneLimit k - 1), rangeF 8 4 1 60000, zeroF 12 4]
  | 0x0602 => [rangeF 0 1 0 3, rangeF 1 1 0 (linkCount (field p 0 1) - 1), zeroF 2 2]
  | 0x0603 => [rangeF 0 1 1 4, zeroF 1 7, anyF 8 8]
  | 0x0701 => [rangeF 0 1 0 1, rangeF 1 1 0 8, zeroF 2 2]
  | 0x0702 => [anyF 0 4, rangeF 4 2 1 127, zeroF 6 2]
  | 0x0703 => [rangeF 0 1 0 7, rangeF 1 1 1 2, zeroF 2 2, rangeF 4 4 0 600000]
  | 0x0801 => [rangeF 0 1 1 2, zeroF 1 3]
  | _ => []

/-- A field offends: it does not lie wholly within LENGTH, or its value is not allowed (R60). -/
def offends (r : Req) (f : ReqField) : Bool := r.hdr.length < f.off + f.size || !f.ok (field r.payload f.off f.size)

/-- The payload offset of the first offending field (R60, R62). -/
def badField (s : State) (r : Req) : Option Nat := ((layoutOf s r).find? (offends r)).map (·.off)

/-! ### The checks before a command is served (R61 to R64, R479, R532) -/

/-- The index of the record that explains the fatal error, in the issuer's log (R525, R532). -/
def fatalIndex (s : State) (n : Nat) : Nat :=
  match (errLog s n).recs.find? (fun e => e.code == s.err.fatalCode) with
  | some e => e.index % 65536
  | none => 0

/-- The payload that a refused SETTING_SET carries (R77). -/
def setPayload (s : State) (epoch : Word) (failed : Nat) : List Byte :=
  leBytes 4 (if epoch = 0 then s.settings.epoch.issuing else epoch).toNat ++ leBytes 2 failed ++ zeros 2

/-- The payload of a DENIED or BAD_REQUEST that no entry of a SETTING_SET causes (R77). -/
def refusedPayload (s : State) (op : Nat) : List Byte := if op = 0x0402 then setPayload s 0 0xFFFF else []

/-- VERSION, UNKNOWN_OPCODE and DENIED for the instance type (R61, R63, R64, R511). -/
def firstChecks (s : State) (r : Req) : Option Resp :=
  let op := r.hdr.opcode
  let fl := r.hdr.flags.toNat
  if op ≠ 1 && (bits fl 16 8 ≠ 3 || 4 < bits fl 8 8) then some { status := stVersion, detail := 0x0304 }
  else if !opcodes.contains op then some { status := stUnknownOpcode }
  else if (r.who = 64 && !busMay op r.payload) || (r.inst ≠ 0 && !vfMay op) then
    some { status := stDenied, payload := refusedPayload s op }
  else none

/-! ### The memory that QUEUE_OPEN names (R149) -/

/-- A location some bytes before another. -/
def locBack (l : Loc) (k : Nat) : Loc := match l with
  | .dev a => .dev (a - k)
  | .host f a p => .host f (a - k) p

/-- The pinned mapping of `n` bytes, 4 KiB page by page from the page that holds the first; none where any of them has no
translation, or lacks W where `w` asks for it (R149). -/
def pinPages (s : State) (asid va n : Nat) (w : Bool) : Option (List Loc) :=
  ((List.range ((va + n - 1) / 4096 + 1 - va / 4096)).map fun i => (va / 4096 + i) * 4096).foldr
    (fun p t => match xlateOk s asid (max p va), t with
      | some x, some l => if (w && !x.w) || x.span < min (p + 4096) (va + n) - max p va then none else some (locBack x.loc (va - p) :: l)
      | _, _ => none) (some [])

/-- The ring and the completion area that a QUEUE_OPEN names, pinned; or the offset of the first that is not mapped (R149). -/
def pinQueue (s : State) (p : List Byte) : Except Nat (List Loc × List Loc) :=
  let asid := field p 24 2
  let n := field p 4 4
  match pinPages s asid (field p 8 8) (64 * n) false, pinPages s asid (field p 16 8) (64 + 32 * n) true with
  | none, _ => .error 8
  | _, none => .error 16
  | some ring, some compl => .ok (ring, compl)

/-- A VF without a tag, whose QUEUE_OPEN has no address space to look in (R423). -/
def tagless (s : State) (inst : Nat) : Bool := inst ≠ 0 && (tenant s inst).cfg.asidCount = 0

/-- The BAD_REQUEST that a frozen tenant's QUEUE_OPEN has before FROZEN (R63, R149). -/
def ringFault (s : State) (r : Req) : Option Nat :=
  if r.hdr.opcode = 0x0101 && !tagless s r.inst then
    match pinQueue s r.payload with
    | .error off => some off
    | .ok _ => none
  else none

/-- The issuer's tenant is frozen, or a restart of PCF has ended its freeze on the way there (R64, R65). -/
def frozenFor (s : State) (n : Nat) : Bool :=
  tenantHeld s n || (n ≠ 0 && (tenant s n).state == .freezing && (tenant s n).op.isNone)

/-- Every check that comes before NOT_FOUND in the order of R63; none: the command is served. -/
def preCheck (s : State) (r : Req) : Option Resp :=
  let op := r.hdr.opcode
  match firstChecks s r with
  | some a => some a
  | none =>
    if s.err.fatal && (r.inst ≠ 0 || ! [0x0001, 0x0002, 0x0702].contains op) then
      some { status := stDeviceError, detail := fatalIndex s r.inst }
    else match badField s r with
      | some off => some { status := stBadRequest, detail := off, payload := refusedPayload s op }
      | none =>
        if frozenFor s r.inst && !frozenMay op then match ringFault s r with
          | some off => some { status := stBadRequest, detail := off }
          | none => some { status := stFrozen }
        else if s.start.phase = .failed
            && !([0x0001, 0x0002, 0x0702, 0x0401, 0x0402].contains op || (op = 0x0701 && field r.payload 1 1 = 0)) then
          some { status := stWrongState, detail := 0x000F }
        else none

/-- PCF runs on an awake SCP. -/
def pcfUp (s : State) : Bool := s.start.pcfRunning && s.power.scp

/-- A request of a tenant that is freezing is held until the freeze ends (R433). -/
def heldByFreeze (s : State) (r : Req) : Bool :=
  r.inst ≠ 0 && (tenant s r.inst).state == .freezing && (tenant s r.inst).op.isSome && !frozenMay r.hdr.opcode

/-- Serves the request at an issuer's head when it is the command that the row names: the checks, then the command. -/
def serve (who : Issuer) (op : Nat) (action : Option (Nat × Nat)) (s : State) (f : Req → State → State) :
    Host.Outcome State Fault Refusal :=
  match curReq s (issuerNo who) with
  | none => .next s
  | some r =>
    let mine := r.hdr.opcode = op && (match action with
      | some (off, v) => field r.payload off 1 == v
      | none => true)
    if !mine || !pcfUp s || heldByFreeze s r then .next s
    else match preCheck s r with
      | some a => .next (answer s r a)
      | none => .next (f r s)

/-- A command that needs the C-dies: the package wakes first, and the request waits until it is ready (R456, R457). -/
def awake (f : Req → State → State) (r : Req) (s : State) : State := if s.power.deep then wakePackage s else f r s

/-! ### Posting (R50, R51, R66) -/

/-- Takes the request at the head of a mailbox, once it is answered; a request that no command serves is answered here. -/
def answeredHead (s : State) (n : Nat) : Option (State × Held × Resp) :=
  let s1 := match (mbx s n).held with
    | h :: _ =>
      if h.answer.isSome then s
      else match curReq s n with
        | some r => if heldByFreeze s r then s else (match preCheck s r with
          | some a => answer s r a
          | none => s)
        | none => s
    | [] => s
  match (mbx s1 n).held with
  | h :: rest => h.answer.map fun a => (setMbx s1 n { mbx s1 n with held := rest }, h, a)
  | [] => none

/-- A response that no outstanding request matches (R50). -/
def staleResp (s : State) (n : Nat) (h : Held) (a : Resp) : State :=
  let b := instBase n
  let s1 := setReg s (b + mbxStaleTagOff) (BitVec.ofNat 32 (h.seq.toNat * 65536 + h.hdr.tag.toNat))
  bumpBy (setReg s1 (b + mbxStaleStatusOff) (BitVec.ofNat 32 (a.status * 65536 + a.detail % 65536))) (b + mbxStaleCntOff) 16 1

/-- MBX_RESPONSE_POST (R50). The bus's responses go out when they are made. -/
def execMbxResponsePost (who : Issuer) (s : State) : Host.Outcome State Fault Refusal := whenLive s <|
  match who with
  | .cleat => .next s
  | .mbx n =>
    if !pcfUp s then .next s
    else match answeredHead s n.val with
      | none => .next s
      | some (s1, h, a) =>
        let m := mbx s1 n.val
        if m.state = .busy && m.outstanding = some (h.seq, h.hdr.tag) then
          .next (deliver s1 n.val (frameBytes h.hdr.opcode h.hdr.tag pcfFlags a.status a.detail a.payload))
        else .next (staleResp s1 n.val h a)

end Sys2Proof.Machine
end

