-- ==== Sys2Proof/Machine/RegView.lean ====
section
/-!
DEFINITION. What a register reads: registers that report other state are computed here, every other from its stored value
(R3, R25 to R28, R35, R36, R41, R59, R114, and the register tables of chapters 01 to 21).
-/

namespace Sys2Proof.Machine

/-! ### Identification (chapter 01) -/

def phaseCode : Phase → Nat
  | .reset => 0
  | .rom => 1
  | .secure => 2
  | .settings => 3
  | .dies => 4
  | .stackIds => 5
  | .service => 6
  | .ready => 7
  | .recovery => 0xE
  | .failed => 0xF

def stackCode : StackCond → Nat
  | .notTrained => 0
  | .inService => 1
  | .failed => 2

def h3 (s : State) : Bool := s.fuse.variant == .h3

/-- CDIE_IDn: the identity bits once discovered, and STATE (R26). -/
def cdieId (s : State) (n : Nat) : Nat :=
  let c := dieCond s n
  if !s.start.discovered.getLsbD n then dieCode c * 2 ^ 12
  else 0x21000000 + (tget 0 s.fuse.dieRevMinor n).toNat * 2 ^ 20 + n * 2 ^ 17 + dieCode c * 2 ^ 12 + 0xFF

/-- STACK_IDn (R26). -/
def stackIdWord (s : State) (n : Nat) : Nat :=
  let x := tget {} s.stackIds n
  x.mfr.toNat * 2 ^ 24 + x.height.toNat * 2 ^ 20 + x.density.toNat * 2 ^ 16 + stackCode x.cond * 2 ^ 8 + min x.repairs 255

/-- The PKG block. -/
def pkgReg (s : State) (o : Nat) : Nat :=
  match o with
  | 0x000 => 0x05080000 + variantCode s
  | 0x004 => (if h3 s then 0x00623800 else 0x00512000) + 8
  | 0x008 => s.fuse.serial.toNat % 2 ^ 32
  | 0x00C => s.fuse.serial.toNat / 2 ^ 32
  | 0x010 => 0x10000000 + hubRevMajor s.fuse.variant * 2 ^ 24 + s.fuse.hubRevMinor.toNat * 2 ^ 20 + s.fuse.lotTrace.toNat
  | 0x014 => 0x31A00000
  | 0x018 => s.fuse.assy.toNat
  | _ =>
    if 0x020 ≤ o && o < 0x040 then cdieId s ((o - 0x020) / 4)
    else if 0x040 ≤ o && o < 0x060 then stackIdWord s ((o - 0x040) / 4)
    else 0

/-! ### Host attachment (chapter 02) -/

def mbxCode : MbxState → Nat
  | .idle => 0
  | .busy => 1
  | .done => 2
  | .timeout => 3

/-- INST_ID of function `n`. -/
def instId (n : Nat) : Nat := if n = 0 then 0 else 64 + n

/-- The instance registers that report other state. -/
def instReg (s : State) (n o : Nat) : Nat :=
  match o with
  | 0x000 => 0
  | 0x004 => (mbx s n).seq.toNat * 2 ^ 16 + b2n (mbx s n).fwReady * 8 + mbxCode (mbx s n).state
  | 0x040 => instId n
  | _ => (reg s (instBase n + o)).toNat

def hubStatus (s : State) : Nat :=
  phaseCode s.start.phase * 16 + b2n s.start.pcfRunning * 2 + b2n (s.start.phase == .ready)

/-! ### Serving (chapter 04) -/

/-- BUNDLE_QUERY.PHASE (R74). -/
def bundlePhase (s : State) : Nat :=
  let v := s.serving
  match v.swap with
  | some w => match w.stage with
    | .accepted => 2
    | .drainB | .loadB => 4
    | .drainA | .loadA | .drainAll | .loadAll => 3
  | none =>
    if v.load.isSome then 1
    else if v.staged.isSome then 2
    else if v.active.isSome then 5
    else 0

/-- The retry hint, in ms (R104); the spec states no rounding, so whether it is rounded up is a free value. -/
def retryHint (s : State) : Nat :=
  let lo := setting s idRetryMin
  let hi := setting s idRetryMax
  let n := (s.serving.left.filter fun t => s.hubTime < t + 25000000).length
  let x := setting s idAdmqDepth * 1000
  if n = 0 then hi
  else min hi (max lo (x / (8 * n) + if x % (8 * n) = 0 then 0 else (Config.freeWord (s.free + 3)).toNat % 2))

/-- A die's decode tokens of the last step reached DECODE_SHARE_MAX percent of STEP_TOKENS (R103). -/
def decodeCapped (s : State) (d : Nat) : Bool :=
  setting s idDecodeShareMax * setting s idStepTokens ≤ tget 0 s.serving.lastDecode d * 100

/-- CAPS_QUERY.MODE. -/
def pkgMode (s : State) : Nat := s.serving.mode

/-- SRV_STATE; RETRY_HINT_MS reads its reset value 0 where no batcher runs (R114). -/
def srvState (s : State) : Nat :=
  (if s.serving.mode = 1 then min (retryHint s) 0xFFFF else 0) * 2 ^ 16 + bundlePhase s * 2 ^ 8 + b2n (setting s idAdmqDepth ≤ s.serving.admq.length) * 8
    + b2n ((List.range 8).any fun d => tget 0 s.serving.lastDecode d ≠ 0 && decodeCapped s d) * 4 + pkgMode s

/-- The counters of the block in the order of their offsets. -/
def srvCounts (c : SrvCnt) : List Nat :=
  [c.steps, c.stepsLate, c.decodeTokens, c.prefillTokens, c.draftProposed, c.draftAccepted, c.turnsAdmitted, c.turnsOverloaded,
   c.createOverloaded, c.retired, c.waitPage]

def srvReg (s : State) (a : Nat) : Nat :=
  match a with
  | 0x420000 => s.serving.snapSeq.toNat
  | 0x420004 => srvState s
  | 0x420008 => s.serving.admq.length
  | 0x420068 => s.serving.stepUsLast % 2 ^ 24
  | _ =>
    if 0x420010 ≤ a && a < 0x420068 then
      (srvCounts s.serving.snap).getD ((a - 0x420010) / 8) 0 / 2 ^ (32 * ((a - 0x420010) / 4 % 2)) % 2 ^ 32
    else (reg s a).toNat

/-! ### C-die blocks (chapters 05, 07, 09, 11 to 13) -/

def dieCores (s : State) (d : Nat) : List Core := (s.cores.filter fun p => p.1 / 512 == d).map (·.2)

/-- The next value of a free measurement, at most `hi` (log entry 1). -/
def measured (s : State) (k hi : Nat) : Nat := (Config.freeWord (s.free + k)).toNat % (hi + 1)

def slotArmed (s : State) (d lo : Nat) : Nat :=
  ((s.sess.slots.filter fun p => 64 * d + lo ≤ p.1 && p.1 < 64 * d + lo + 32).map fun p => 2 ^ (p.1 % 32)).sum

/-- Phase SETTINGS has ended: the stored values are in force (R485). -/
def settingsFixed (s : State) : Bool := 4 ≤ phaseCode s.start.phase && s.start.phase != .recovery

/-- Registers of C-die `d` that report other state. -/
def dieView (s : State) (d o : Nat) : Nat :=
  let p := pool s d
  let x := tget {} s.hbm d
  match o with
  | 0x2000 => ((dieCores s d).map fun c => c.groups.length).sum
  | 0x2004 => ((dieCores s d).map fun c => c.ctxs.length).sum
  | 0x3010 => measured s 0 1000
  | 0x4000 => setting s idAtomFarThresh * 2 ^ 16 + setting s idAtomMode * 2 ^ 12 + setting s idClaimHoldCyc
  | 0x4004 => (s.uc.dir.filter fun e => sliceOf e.1 == d).length
  | 0x5000 => stackCode (tget {} s.stackIds d).cond * 2 ^ 8 + b2n (85 < x.temp) * 16 + b2n x.selfRefresh * 8 + b2n x.fill * 4
      + b2n (x.scrub && setting s idHbmScrubHours != 0) * 2 + x.refMode
  | 0x5004 => setting s idHbmScrubHours * 2 ^ 24 + setting s idHbmSkinkShare * 2 ^ 16 + setting s idHbmCeRetire * 2 ^ 8
      + setting s idHbmWrBatch
  | 0x5020 => x.retired.length
  | 0x5030 => measured s 0 1000 * 2 ^ 16 + measured s 1 1000
  | 0x6000 => p.rows * 2 ^ 12 + (if settingsFixed s then setting s idKvRowPages else 0)
  | 0x6004 => p.free.length * 2 ^ 12 + b2n (!p.wait.isEmpty) * 2 + b2n (p.rows ≠ 0 && p.free.length ≤ reserveRows s d)
  | 0x6008 => reserveRows s d
  | 0x600C => p.wait.length
  | 0x6020 => slotArmed s d 0
  | 0x6024 => slotArmed s d 32
  | 0x6028 => ((liveSessions s).filter fun e => e.2.home == d).length
  | 0x7014 => (s.xlat.susp.filter fun e => e.inst / 2 == d).length
  | _ => (reg s (dieReg d o)).toNat

/-! ### Links (chapters 14, 15) -/

/-- LNT_LANE_MAP or LNT_FUSE_MAP of a map. -/
def mapWord (m : LaneMap) (up : Bool) : Nat :=
  b2n (!up) * 2 ^ 31 + b2n m.tested * 2 ^ 30
    + (match m.skip with
       | [] => 0
       | [a] => 32 + a
       | a :: b :: _ => 32 + a + 8192 + b * 256)

/-- A Lenot port's registers; a port that has no link reads zero. -/
def lntView (s : State) (n p o : Nat) : Nat := match portPeer n p with
  | none => 0
  | some e =>
    let k := portKey n p
    let x := lntPort s k
    if o = 0 then x.bundles * 2 ^ 24 + e.link * 2 ^ 20 + x.version * 2 ^ 16 + e.node * 2 ^ 8 + x.state
    else if 0x020 ≤ o && o < 0x040 then mapWord (mapOf s k ((o - 0x020) / 4)) (bit x.bundles ((o - 0x020) / 4))
    else if 0x040 ≤ o && o < 0x060 then mapWord { skip := fusedSkip s k ((o - 0x040) / 4) } true
    else if 0x060 ≤ o && o < 0x080 then tget 0 x.ltResult ((o - 0x060) / 4)
    else (reg s (lntReg n p o)).toNat

/-- LNT_ROUTEs of a node. -/
def routeWord (s : State) (n src : Nat) : Nat :=
  ((List.range 9).map fun d => routeCode s n src d * 2 ^ (3 * d)).sum

/-- HWS_GAIN_STATUS: a step is half a decibel (R377). -/
def gainStatus (x : HwsPort) : Nat :=
  ((List.range 4).map fun l => x.gain.getD l 0 / 8 % 64 * 2 ^ (6 * l) + b2n x.frozen * 2 ^ (24 + l)).sum

def hwsView (s : State) (p o : Nat) : Nat :=
  let x := hwsPort s p
  match o with
  | 0x000 => x.width * 2 ^ 30 + x.rate * 2 ^ 26 + b2n x.fallback * 2 ^ 25 + b2n x.rburst * 2 ^ 24 + b2n x.burstAcq * 2 ^ 23
      + (match x.peer with
         | some w => bits w 64 10 * 2 ^ 13 + bits w 74 3 * 2 ^ 10
         | none => 0) + x.state
  | 0x028 => gainStatus x
  | _ => (reg s (hwsReg p o)).toNat

/-- The engine sub-block of HWS. -/
def hwsEngView (s : State) (a : Nat) : Nat :=
  match a with
  | 0x432000 => ownPkg s + (setting s idHwsDimX - 1) * 2 ^ 12 + (setting s idHwsDimY - 1) * 2 ^ 16 + (setting s idHwsDimZ - 1) * 2 ^ 20
  | 0x432004 => s.hws.outTxns.length
  | 0x432008 => s.hws.inTxns.length
  | _ => (reg s a).toNat

/-! ### Hub blocks (chapters 16 to 21) -/

/-- One channel's age in TWN_HB_AGE, in 0.1 ms; the spec states none for a channel that has had no live heartbeat. -/
def hbAge (s : State) (chan k : Nat) : Nat := match s.twin.heardAt.find? (fun p => p.1 == chan) with
  | some (_, t) => min ((s.hubTime - t) / 2500) 1023
  | none => measured s k 1023

def twnView (s : State) (a : Nat) : Nat :=
  let mir := mirroredSessions s
  match a with
  | 0x440000 => b2n s.twin.fenced * 2 ^ 11 + b2n (cleatPeer s ≠ 0xFF) * 2 ^ 10 + b2n (identWritten s) * 2 ^ 9 + ownSide s * 2 ^ 8
      + s.twin.state
  | 0x440004 => if identWritten s then ownPair s else 0
  | 0x440008 => s.twin.partner % 2 ^ 32
  | 0x44000C => s.twin.partner / 2 ^ 32
  | 0x440010 => hbAge s 6 0 + hbAge s 7 1 * 2 ^ 10 + hbAge s 8 2 * 2 ^ 20
  | 0x440014 => mir.length + (shadowSessions s).length * 2 ^ 16
  | 0x440018 => (mir.map fun n => (session s n).c - (session s n).a).sum
  | _ => (reg s a).toNat

/-- Bits of a 64-bit mask of VFs, one half of it. -/
def vfMask (s : State) (f : Tenant → Bool) (hi : Nat) : Nat :=
  ((s.tenants.filter fun p => p.1 / 32 == hi && f p.2).map fun p => 2 ^ (p.1 % 32)).sum

def tenCode : TenState → Nat
  | .unconfigured => 0
  | .running => 1
  | .freezing => 2
  | .frozen => 3
  | .saving => 4
  | .restoring => 5

def tntView (s : State) (a : Nat) : Nat :=
  match a with
  | 0x450008 => vfMask s (fun t => 2 ≤ tenCode t.state) 0
  | 0x45000C => vfMask s (fun t => 2 ≤ tenCode t.state) 1
  | 0x450010 => vfMask s (fun t => t.log.isSome) 0
  | 0x450014 => vfMask s (fun t => t.log.isSome) 1
  | _ => (reg s a).toNat

def cluster (s : State) (c : Nat) : ClusterPwr := tget .pg s.power.clusters c
def clusterCode : ClusterPwr → Nat
  | .run => 0
  | .cg => 1
  | .pg => 2
  | .waking => 3
def diePwrCode : DiePwr → Nat
  | .awake => 0
  | .waking => 1
  | .retention => 2
  | .deep => 3

/-- POWER_QUERY.PKG_STATE. -/
def pkgState (s : State) : Nat :=
  if s.power.deep then 0 else if (List.range 64).any fun c => cluster s c == .run then 2 else 1

def tj (s : State) (n : Nat) : Nat := tget 0 s.power.tj n
def tjMax (s : State) : Nat := (List.range 9).foldl (fun m n => max m (tj s n)) 0

def pwrView (s : State) (a : Nat) : Nat :=
  let w := s.power
  match a with
  | 0x460000 => w.coreMhz * 2 ^ 16 + b2n w.trip * 2 ^ 8 + b2n w.scp * 16 + pkgState s
  | 0x460004 => ((List.range 8).map fun d => (if w.deep then 3 else diePwrCode (diePwr s d)) * 2 ^ (4 * d)).sum
  | 0x460020 => w.tripSource * 2 ^ 12 + b2n w.trip * 2 ^ 11 + min (tjMax s) 2047
  | _ =>
    if 0x460010 ≤ a && a < 0x460020 then
      ((List.range 16).map fun j => clusterCode (cluster s ((a - 0x460010) / 4 * 16 + j)) * 2 ^ (2 * j)).sum
    else if 0x460040 ≤ a && a < 0x460064 then min (tj s ((a - 0x460040) / 4)) 2047
    else (reg s a).toNat

def resultCode : StartResult → Nat
  | .inProgress => 0
  | .complete => 1
  | .degraded => 2
  | .failed => 3

/-- µs from reset release, at 25 counts of HUB_TIME. -/
def staView (s : State) (a : Nat) : Nat :=
  let t := s.start
  match a with
  | 0x470000 => resultCode t.result * 2 ^ 29 + b2n t.userTorn * 2 ^ 28 + t.userBank * 2 ^ 26 + b2n t.fwFallback * 2 ^ 25
      + b2n t.bank * 2 ^ 24 + t.stacksFailed.toNat * 2 ^ 16 + t.diesFailed.toNat * 2 ^ 8 + t.failCode.toNat
  | 0x470004 => t.startTime % 2 ^ 24
  | 0x470008 => t.setIgnored % 2 ^ 16
  | 0x47000C => b2n (s.settings.written.contains 1) * 2 ^ 31 + b2n t.confirmed * 2 ^ 30 + b2n t.bank * 2 ^ 29
      + t.secVersion % 64 * 2 ^ 16 + s.fuse.fusedMin % 64 * 2 ^ 8
      + (if t.phase = .reset || t.phase = .rom then 0 else (bootRec s).tries)
  | 0x471004 => 0
  | 0x471008 => (reg s sfcStatus).toNat + b2n s.sfc.running.isSome
  | _ => if 0x472000 ≤ a && a < 0x473000 then leNat ((List.range 4).map fun i => tget 0 s.sfc.buf (a - 0x472000 + i))
    else (reg s a).toNat

def cleatView (s : State) (a : Nat) : Nat :=
  let c := s.cleat
  match a with
  | 0x480014 => b2n c.dupLock * 2 ^ 20 + b2n c.lineBusy * 2 ^ 19 + b2n c.ctsLow * 2 ^ 17 + b2n (!c.rtsHigh) * 2 ^ 16
      + c.tx.length * 2 ^ 8 + c.rx.length
  | 0x48001C => match c.rx with
    | [] => measured s 0 511
    | x :: _ => 2 ^ 31 + x
  | 0x480020 => 0
  | _ => (reg s a).toNat

def errView (s : State) (a : Nat) : Nat :=
  match a with
  | 0x490000 => b2n s.err.fatal * 2 ^ 31 + s.err.fatalCode
  | 0x490004 => (errLog s 0).next % 2 ^ 32
  | _ => (reg s a).toNat

/-! ### The whole map -/

/-- What an aligned read of a block register window returns (R35). -/
def blockView (s : State) (a : Nat) : Nat :=
  if a < 0x410000 then 0
  else if a < 0x411000 then lntView s 8 ((a - 0x410000) / 0x400) ((a - 0x410000) % 0x400)
  else if a < 0x411024 then routeWord s 8 ((a - 0x411000) / 4)
  else if 0x420000 ≤ a && a < 0x430000 then srvReg s a
  else if 0x430000 ≤ a && a < 0x432000 then hwsView s ((a - 0x430000) / 0x400) ((a - 0x430000) % 0x400)
  else if 0x432000 ≤ a && a < 0x440000 then hwsEngView s a
  else if 0x440000 ≤ a && a < 0x450000 then twnView s a
  else if 0x450000 ≤ a && a < 0x460000 then tntView s a
  else if 0x460000 ≤ a && a < 0x470000 then pwrView s a
  else if 0x470000 ≤ a && a < 0x480000 then staView s a
  else if 0x480000 ≤ a && a < 0x490000 then cleatView s a
  else if 0x490000 ≤ a && a < 0x4A0000 then errView s a
  else if 0x800000 ≤ a && a < 0x1000000 then
    let d := (a - 0x800000) / 0x100000
    let o := (a - 0x800000) % 0x100000
    if 0x8000 ≤ o && o < 0x8C00 then lntView s d ((o - 0x8000) / 0x400) ((o - 0x8000) % 0x400)
    else if 0x8C00 ≤ o && o < 0x8C24 then routeWord s d ((o - 0x8C00) / 4)
    else dieView s d o
  else 0

/-- Four bytes of a function's MSI-X table. -/
def msixWord (s : State) (n off : Nat) : Nat := leNat ((List.range 4).map fun i => msixByte s n (off + i))

/-- 32 bits of a function's pending bit array. -/
def pbaWord (s : State) (n off : Nat) : Nat :=
  ((List.range 32).map fun i => b2n (tget false s.pcie.pending (0x1000 * n + off * 8 + i)) * 2 ^ i).sum

/-- An aligned four-byte read of PF BAR0 (R35). -/
def pfView (s : State) (a : Nat) : Nat :=
  if a < 0x100 then pkgReg s a
  else if a = 0x1000 then hubStatus s
  else if a = 0x1020 then s.hubTime % 2 ^ 32
  else if a = 0x1024 then s.hubTimeHi.toNat
  else if 0x1000 ≤ a && a < 0x1100 then (reg s a).toNat
  else if 0x2000 ≤ a && a < 0x2100 then instReg s 0 (a - 0x2000)
  else if 0x3000 ≤ a && a < 0x4000 then leNat (mread (mbx s 0).reqWin (a - 0x3000) 4)
  else if 0x4000 ≤ a && a < 0x5000 then leNat (mread (mbx s 0).respWin (a - 0x4000) 4)
  else if 0x10000 ≤ a && a < 0x18000 then msixWord s 0 (a - 0x10000)
  else if 0x18000 ≤ a && a < 0x18100 then pbaWord s 0 (a - 0x18000)
  else if 0x400000 ≤ a then blockView s a
  else 0

/-- An aligned four-byte read of the BAR0 of VF `n` (R41). -/
def vfView (s : State) (n a : Nat) : Nat :=
  if a < 0x100 then instReg s n a
  else if 0x1000 ≤ a && a < 0x2000 then leNat (mread (mbx s n).reqWin (a - 0x1000) 4)
  else if 0x2000 ≤ a && a < 0x3000 then leNat (mread (mbx s n).respWin (a - 0x2000) 4)
  else if 0x4000 ≤ a && a < 0x4400 then msixWord s n (a - 0x4000)
  else if 0x5000 ≤ a && a < 0x5008 then pbaWord s n (a - 0x5000)
  else if 0x6000 ≤ a && a < 0x6100 then
    let o := a - 0x6000
    if o < 8 || (0x020 ≤ o && o < 0x060) then pkgReg s o else 0
  else 0

/-- What function `n` reads at an aligned BAR0 offset. -/
def viewReg (s : State) (n a : Nat) : Nat := if n = 0 then pfView s a else vfView s n a

/-- The stored register behind a function's BAR0 offset. -/
def storedAt (n a : Nat) : Nat := if n = 0 then a else instBase n + a % 0x10000

/-- The stored register holds an RC field. -/
def hasRc (a : Nat) : Bool := (fieldsAt a).any fun f => f.acc == .rc

/-- The upper half of a pattern's BITS register, ahead of its snapshot (R59). -/
def patHi (a : Nat) : Nat := 0x40000000 + a
def isPatLo (a : Nat) : Bool :=
  (0x410000 ≤ a && a < 0x411000 && (a - 0x410000) % 0x400 = 0x084) || (0x430000 ≤ a && a < 0x432000 && (a - 0x430000) % 0x400 = 0x050)
    || (0x800000 ≤ a && a < 0x1000000 && 0x8000 ≤ (a - 0x800000) % 0x100000 && (a - 0x800000) % 0x100000 < 0x8C00
      && ((a - 0x800000) % 0x100000 - 0x8000) % 0x400 = 0x084)

/-- The read of an RC register clears it; SRV_ADMQ_PEAK then starts from the depth as it stands (R3, R114). -/
def clearRead (s : State) (k : Nat) : State :=
  let s1 := setReg s k (BitVec.ofNat 32 (clearRc (reg s k).toNat (fieldsAt k)))
  if k = srvAdmqPeak then peak s1 srvAdmqPeak s.serving.admq.length else s1

/-- A read of SRV_SNAP (R36, R114). -/
def readSrvSnap (s : State) (be : BitVec 4) : State :=
  let n := s.serving.snapSeq + 1
  emit { s with serving := { s.serving with snapSeq := n, snap := s.serving.cnt } } (.completion 0 (readBytes n.toNat be) false)

/-- A read of TNT_LOG_SYNC (R36, R447): every mark before it has been posted, since the model's host writes are atomic. -/
def readLogSync (s : State) (be : BitVec 4) : State := emit s (.completion 0 (readBytes (reg s tntLogSync).toNat be) false)

/-- READ_CLEAR_READ (R3, R36): a read of one register returns the bytes of its value that it enables; RC fields clear to reset. The reads of
HUB_TIME_LO, SRV_SNAP and TNT_LOG_SYNC do more; that of CLEAT_RX_DATA has a row with operands of its own. -/
def execReadClearRead (fn : FnNo) (r : RegRead) (s : State) : Host.Outcome State Fault Refusal := whenLive s <|
  let n := fn.val
  let be := r.be
  let b := r.addr - r.addr % 4
  if !memSpaceOn s n then .next (emit s (.completion 1 [] false))
  else if n = 0 && b == 0x1020 then .next (readHubTime s be)
  else if n = 0 && b == 0x420000 then .next (readSrvSnap s be)
  else if n = 0 && b == 0x450000 then .next (readLogSync s be)
  else if n = 0 && b == 0x48001C then .next s
  else
    let k := storedAt n b
    let s1 := emit { s with free := s.free + 4 } (.completion 0 (readBytes (viewReg s n b) be) false)
    if hasRc k && (n = 0 || b < 0x100) then .next (clearRead s1 k)
    else if n = 0 && isPatLo b then .next (setReg s1 (b + 4) (reg s (patHi b)))
    else .next s1

/-- SRV_SNAP_READ (R114), of all four bytes. -/
def execSrvSnapRead (s : State) : Host.Outcome State Fault Refusal := whenLive s <|
  if memSpaceOn s 0 then .next (readSrvSnap s 0xF) else .next (emit s (.completion 1 [] false))

/-- TNT_LOG_SYNC_READ (R447), of all four bytes. -/
def execTntLogSyncRead (s : State) : Host.Outcome State Fault Refusal := whenLive s <|
  if memSpaceOn s 0 then .next (readLogSync s 0xF)
  else .next (emit s (.completion 1 [] false))

end Sys2Proof.Machine
end

