-- ==== Sys2Proof/Machine/PcfQuery.lean ====
section
/-!
DEFINITION. The PCF commands that only report, and those that set one thing at once: discovery, event ring, queries, error records
and block windows (R67, R70 to R77, R83 to R90, R524).
-/

namespace Sys2Proof.Machine

/-! ### Discovery (R67, R70, R425) -/

/-- DISCOVER (R28, R70): a VF reads zero for the serial number and PKG_ASSY. -/
def discoverBytes (s : State) (vf : Bool) : List Byte :=
  let w (o : Nat) : List Byte := leBytes 4 (pkgReg s o)
  w 0 ++ w 4 ++ (if vf then zeros 8 else w 8 ++ w 12) ++ w 16 ++ w 20 ++ (if vf then zeros 4 else w 24) ++ leBytes 2 0x0304
    ++ leBytes 2 s.start.fwBuild.toNat ++ (List.range 8).flatMap (fun n => w (0x020 + 4 * n))
    ++ (List.range 8).flatMap (fun n => w (0x040 + 4 * n))

def execDiscover (who : Issuer) (s : State) : Host.Outcome State Fault Refusal := whenLive s <|
  serve who 0x0001 none s fun r s => okWith s r (discoverBytes s (r.inst ≠ 0))

/-- OPCODE_MAP: the bit of each opcode, family × 16 + low byte. -/
def opcodeMap : List Byte := leBytes 32 ((opcodes.map fun o => 2 ^ (o / 256 * 16 + o % 256)).sum)

/-- Sessions that a package may share out (R404, R425). -/
def sessionPlaces (s : State) : Nat := if identWritten s then 8192 else 16384
def vfSum (s : State) (f : TenantCfg → Nat) : Nat := (s.tenants.map fun p => f p.2.cfg).sum
/-- An instance's session and queue quotas (R425). -/
def sessionQuota (s : State) (n : Nat) : Nat := if n = 0 then sessionPlaces s - vfSum s (·.sessions) else (tenant s n).cfg.sessions
def queueQuota (s : State) (n : Nat) : Nat := if n = 0 then 1024 - vfSum s (·.queues) else (tenant s n).cfg.queues

def execCapsQuery (who : Issuer) (s : State) : Host.Outcome State Fault Refusal := whenLive s <|
  serve who 0x0002 none s fun r s =>
    okWith s r (leBytes 2 0x0304 ++ leBytes 2 s.start.fwBuild.toNat ++ leBytes 1 (pkgMode s) ++ zeros 3 ++ opcodeMap
      ++ leBytes 4 (instId r.inst) ++ leBytes 4 (sessionQuota s r.inst) ++ leBytes 2 (queueQuota s r.inst) ++ zeros 2
      ++ leBytes 4 s.settings.epoch.issuing.toNat)

/-- EVENT_RING_SET (R67): EVT_SEQ starts at 1; ENTRIES 0 removes the ring. -/
def execEventRingSet (who : Issuer) (s : State) : Host.Outcome State Fault Refusal := whenLive s <|
  serve who 0x0003 none s fun r s =>
    let n := field r.payload 8 4
    okWith { s with rings := if n = 0 then tdel s.rings r.inst
                             else tput s.rings r.inst { addr := field r.payload 0 8, entries := n } } r []

/-! ### Queues and bundles -/

/-- The queue that an instance's slot names, unless it is closed (R42, R71). -/
def slotQueue (s : State) (inst slot : Nat) : Option Nat :=
  (s.eng.queues.find? fun p => p.2.state != .closed && p.2.owner == inst && p.2.slot == slot).map (·.1)

/-- A doorbell slot that an instance may have, on which no queue is open: any of a VF's 64, and for the PF a package queue number
that no VF holds (R42, R71). -/
def closedSlot (s : State) (inst slot : Nat) : Bool :=
  if inst = 0 then decide (slot < 1024) && !(s.eng.queues.any fun p => p.1 == slot && p.2.state != .closed)
  else decide (slot < 64)

/-- QUEUE_QUERY (R71). A closed slot answers STATE 0, and holds nothing else (log entry 34). -/
def execQueueQuery (who : Issuer) (s : State) : Host.Outcome State Fault Refusal := whenLive s <|
  serve who 0x0103 none s fun r s =>
    match slotQueue s r.inst (field r.payload 0 2) with
    | none => if closedSlot s r.inst (field r.payload 0 2) then okWith s r (zeros 16) else refuse s r stNotFound 0
    | some q =>
      let x := queue s q
      okWith s r (leBytes 1 (qCode x.state) ++ leBytes 1 x.inst ++ zeros 2 ++ leBytes 4 x.head ++ leBytes 4 x.errors
        ++ leBytes 4 x.epoch.toNat)

/-- BUNDLE_QUERY (R73, R74): the active bundle's digest. -/
def execBundleQuery (who : Issuer) (s : State) : Host.Outcome State Fault Refusal := whenLive s <|
  serve who 0x0203 none s fun r s =>
    if s.serving.mode ≠ 1 then refuse s r stWrongState s.serving.mode
    else
      let h (b : Option Bundle) : Nat := (b.map (·.handle)).getD 0
      let a := s.serving.active
      okWith s r (leBytes 4 (h a) ++ leBytes 4 (h s.serving.staged) ++ leBytes 1 (bundlePhase s) ++ leBytes 1 ((a.map (·.repl)).getD 0)
        ++ zeros 6 ++ (((a.map (·.digest)).getD [] ++ zeros 32).take 32))

/-! ### Sessions (R62, R75, R76, R115) -/

/-- The session that a request names, or the status that answers it: another instance's object is DENIED, DETAIL 3 to the PF and
NOT_FOUND to a VF (R62). -/
def ownedSession (s : State) (inst n : Nat) : Except (Nat × Nat) Session :=
  let x := session s n
  if x.state = .free then .error (stNotFound, 0)
  else if x.owner ≠ inst then .error (if inst = 0 then (stDenied, 3) else (stNotFound, 0))
  else .ok x

/-- The lowest-numbered session of an instance with a USER_TAG (R76). -/
def taggedSession (s : State) (inst tag : Nat) : Option Nat :=
  ((liveSessions s).find? fun p => p.2.owner == inst && p.2.userTag == tag).map (·.1)

def sessionBytes (s : State) (n : Nat) (x : Session) : List Byte :=
  leBytes 1 (sessCode x.state) ++ leBytes 1 x.home ++ leBytes 1 (x.t - x.f) ++ leBytes 1 (stackMask x) ++ leBytes 4 x.c
    ++ leBytes 4 (x.rowMap.length * setting s idKvRowPages) ++ leBytes 4 x.lastEpoch.toNat ++ leBytes 4 n ++ zeros 4 ++ leBytes 8 x.userTag

def execSessionQuery (who : Issuer) (s : State) : Host.Outcome State Fault Refusal := whenLive s <|
  serve who 0x0303 none s fun r s =>
    let n := field r.payload 0 4
    let m := if n = 0xFFFFFFFF then taggedSession s r.inst (field r.payload 8 8) else some n
    match m with
    | none => refuse s r stNotFound 0
    | some n => match ownedSession s r.inst n with
      | .error e => refuse s r e.1 e.2
      | .ok x => okWith s r (sessionBytes s n x)

/-! ### Settings (R77, R80, R485) -/

/-- The value stored for a setting in the flash: what the next start would take (R485). -/
def storedValue (s : State) (id : Nat) : Nat := match onceGroup id with
  | some _ => (onceValue s id).getD 0
  | none => (userValue s id).getD (factoryValue s id)

def setClassCode : SetClass → Nat
  | .immediate => 0
  | .rolling => 1
  | .restart => 2

/-- EFFECTIVE, the value in force for new work (R485). -/
def settingBytes (s : State) (d : SettingDef) : List Byte :=
  let id := d.id
  let user := userValue s id
  leBytes 2 id ++ leBytes 1 (setClassCode d.cls)
    ++ leBytes 1 (b2n (factoryLocked s id) + b2n d.writeOnce * 2 + b2n user.isSome * 4 + b2n (setting s id ≠ storedValue s id) * 8)
    ++ leBytes 4 s.settings.epoch.issuing.toNat ++ leBytes 8 (setting s id)
    ++ leBytes 8 (if d.writeOnce then 0 else factoryValue s id) ++ leBytes 8 (user.getD 0)
    ++ leBytes 8 (match d.off with
      | some v => min v d.lo
      | none => d.lo) ++ leBytes 8 d.hi

def execSettingGet (who : Issuer) (s : State) : Host.Outcome State Fault Refusal := whenLive s <|
  serve who 0x0401 none s fun r s => match settingDef (field r.payload 0 2) with
    | some d => okWith s r (settingBytes s d)
    | none => refuse s r stBadRequest 0

/-- C-dies taking part in a change, or in service while stable, and those that have staged (R77). -/
def epochDies (s : State) : Nat × Nat :=
  let e := s.settings.epoch
  let live := dieMask (diesInService s)
  if e.phase = 0 then (live, live) else (e.part.toNat, if e.phase = 1 then e.staged.toNat else e.part.toNat)

def popcount (m : Nat) : Nat := ((List.range 8).filter (bit m)).length

/-- DETAIL of TRANSITION: C-dies staged × 256 + C-dies in service (R62). -/
def transitionDetail (s : State) : Nat := popcount (epochDies s).2 * 256 + (diesInService s).length

def execEpochQuery (who : Issuer) (s : State) : Host.Outcome State Fault Refusal := whenLive s <|
  serve who 0x0403 none s fun r s =>
    let e := s.settings.epoch
    let d := epochDies s
    let bs := leBytes 4 e.issuing.toNat ++ leBytes 4 (if e.phase = 1 then e.target else e.issuing).toNat ++ leBytes 1 e.phase
      ++ leBytes 1 (popcount d.1) ++ leBytes 1 (popcount d.2) ++ leBytes 1 d.2
    if e.phase = 0 then okWith s r bs else answer s r { status := stTransition, detail := transitionDetail s, payload := bs }

/-! ### Tenants (R83) -/

/-- MEM_USED on a stack, in MiB: the assigned range and the rows held, rounded up. -/
def memUsed (s : State) (v st : Nat) : Nat :=
  ceilDiv (tget 0 (tenant s v).cfg.len st + rowsHeld s v st * setting s idKvRowPages * 65536) 0x100000

def openQueues (s : State) (inst : Nat) : List Nat :=
  (s.eng.queues.filter fun p => p.2.owner == inst && p.2.state != .closed).map (·.1)
def ownSessions (s : State) (inst : Nat) : List Nat :=
  ((liveSessions s).filter fun p => p.2.owner == inst && p.2.state != .shadow).map (·.1)

/-- TENANT_QUERY (R83): a VF that is not enabled is an object that does not exist. -/
def execTenantQuery (who : Issuer) (s : State) : Host.Outcome State Fault Refusal := whenLive s <|
  serve who 0x0503 none s fun r s =>
    let v := if r.inst = 0 then field r.payload 0 1 else r.inst
    if !fnEnabled s v then refuse s r stNotFound 0
    else
      let t := tenant s v
      okWith s r (leBytes 1 (tenCode t.state) ++ leBytes 1 (b2n t.log.isSome) ++ leBytes 2 (openQueues s v).length
        ++ leBytes 4 (ownSessions s v).length ++ (List.range 8).flatMap fun st => leBytes 4 (memUsed s v st))

/-! ### Links and the twin (R85, R86) -/

def linkKey (kind l : Nat) : Nat := 16 * kind + l

/-- STATE, MODE and UNITS_UP of a link. -/
def linkInfo (s : State) (kind l : Nat) : Nat × Nat × Nat :=
  match kind with
  | 0 => let p := lntPort s (linkPorts l).1
    (p.state, p.version, popcount p.bundles)
  | 1 => let p := hwsPort s l
    (p.state, p.rate, if p.width = 0 then 0 else if p.width = 3 then 4 else 2)
  | 2 => (match (tget {} s.stackIds l).cond with
      | .notTrained => 0
      | .inService => 2
      | .failed => 5, 0, 0)
  | _ => (if s.cleat.dupLock then 5 else 2, 0, 0)

def execLinkQuery (who : Issuer) (s : State) : Host.Outcome State Fault Refusal := whenLive s <|
  serve who 0x0602 none s fun r s =>
    let k := field r.payload 0 1
    let l := field r.payload 1 1
    let i := linkInfo s k l
    let t := tget {} s.linkResults (linkKey k l)
    let testing := s.linkTests.any fun p => p.1 == linkKey k l
    okWith s r (leBytes 1 (if testing then 4 else i.1) ++ leBytes 1 i.2.1 ++ leBytes 1 i.2.2 ++ leBytes 1 t.result
      ++ leBytes 4 t.failLanes.toNat ++ leBytes 8 t.errors.toNat ++ leBytes 8 t.bits.toNat)

/-- TWIN_QUERY (R86). -/
def execTwinQuery (who : Issuer) (s : State) : Host.Outcome State Fault Refusal := whenLive s <|
  serve who 0x0603 (some (0, 4)) s fun r s => okWith s r (leBytes 1 s.twin.state ++ zeros 7 ++ leBytes 8 s.twin.partner)

/-! ### Diagnostics (R87, R88, R524) -/

/-- BLOCK_ACCESS_OPEN (R88). -/
def execBlockAccessOpen (who : Issuer) (s : State) : Host.Outcome State Fault Refusal := whenLive s <|
  serve who 0x0701 (some (0, 1)) s fun r s =>
    let w := field r.payload 1 1
    let refused := if w = 0 then (if s.serving.mode = 0 then none else some s.serving.mode)
      else if s.serving.mode = 0 || dieCond s (w - 1) = .quarantined then none
      else some (dieCode (dieCond s (w - 1)))
    match refused with
    | some d => refuse s r stWrongState d
    | none => okWith { s with windows := s.windows ||| BitVec.ofNat 9 (2 ^ w) } r []

/-- BLOCK_ACCESS_CLOSE (R88). -/
def execBlockAccessClose (who : Issuer) (s : State) : Host.Outcome State Fault Refusal := whenLive s <|
  serve who 0x0701 (some (0, 0)) s fun r s =>
    okWith { s with windows := s.windows &&& ~~~BitVec.ofNat 9 (2 ^ field r.payload 1 1) } r []

/-- The records that ERR_READ returns: from START or the oldest held, in INDEX order, at most `max` (R524). -/
def errRecords (l : ErrLog) (start max : Nat) : List ErrRec := (l.recs.filter fun e => start ≤ e.index).take max

def execErrRead (who : Issuer) (s : State) : Host.Outcome State Fault Refusal := whenLive s <|
  serve who 0x0702 none s fun r s =>
    let l := errLog s r.inst
    let start := field r.payload 0 4
    let es := errRecords l start (field r.payload 4 2)
    let next := match es.getLast? with
      | some e => e.index + 1
      | none => start
    okWith s r (leBytes 4 next ++ leBytes 2 es.length ++ zeros 2 ++ es.flatMap errBytes)

/-! ### Power (R89) -/

/-- POWER_QUERY (R89): the package's power is a measurement, and so a free value. -/
def execPowerQuery (who : Issuer) (s : State) : Host.Outcome State Fault Refusal := whenLive s <|
  serve who 0x0802 none s fun r s =>
    let (s1, mw) := takeFree s
    let awake := ((List.range 8).filter fun d => (dieInService s d || dieCond s d == .quarantined) && dieAwake s d).foldl (fun m d => m + 2 ^ d) 0
    okWith s1 r (leBytes 1 (pkgState s) ++ leBytes 1 awake ++ leBytes 2 ((List.range 64).filter fun c => cluster s c == .run).length
      ++ leBytes 4 mw ++ leBytes 2 (tjMax s) ++ leBytes 2 (min s.power.trips 0xFFFF) ++ zeros 4)

end Sys2Proof.Machine
end

