-- ==== Sys2Proof/Machine/PcfQueue.lean ====
section
/-!
DEFINITION. Opening and closing queues, doorbells, and BAR2 (R36, R38 to R42, R71, R72, R92, R145 to R149, R159, R457, R468).
-/

namespace Sys2Proof.Machine

/-! ### QUEUE_OPEN (R71, R72, R92, R148, R149) -/

/-- Queue contexts of an engine instance (chapter 06, Shape). -/
def engineContexts (engine : Nat) : Nat := if engine = 1 then 64 else 128
def engineQueues (s : State) (engine inst : Nat) : Nat :=
  (s.eng.queues.filter fun p => p.2.state != .closed && p.2.engine == engine && p.2.inst == inst).length

/-- The lowest local slot that a VF has free. -/
def freeSlot (s : State) (inst : Nat) : Option Nat :=
  (List.range 64).find? fun k => !(s.eng.queues.any fun p => p.2.state != .closed && p.2.owner == inst && p.2.slot == k)

/-- The engine instance on a die: Copy Engines have two. -/
def engineInst (engine die unit : Nat) : Nat := if engine = 1 then 2 * die + unit else if engine = 3 then 0 else die

/-- The state that refuses a QUEUE_OPEN, if any: an engine that the mode does not offer, or one on a die out of service. -/
def openRefusal (s : State) (engine die : Nat) : Option Nat :=
  if engine = 0 && s.serving.mode = 1 then some 1
  else if engine = 2 && s.serving.mode = 0 then some 0
  else if engine ≠ 3 && !dieInService s die then some (dieCode (dieCond s die))
  else none

/-- The queue's context, as opened. QSB.EPOCH before any command has been fetched is the epoch that issues at the QUEUE_OPEN: R148 does not
say what it holds then (DESIGN CHOICE of log entry 51). -/
def newQueue (s : State) (inst slot ei : Nat) (p : List Byte) (ring compl : List Loc) : Queue :=
  let asid := field p 24 2
  let n := field p 4 4
  { state := .opened, owner := inst, slot := slot, engine := field p 0 1, inst := ei, vector := field p 2 2, entries := n,
    ringVA := field p 8 8, complVA := field p 16 8, ring := ring, compl := compl,
    leaves := leavesIn s asid (field p 8 8) (64 * n) ++ leavesIn s asid (field p 16 8) (64 + 32 * n),
    asid := asid, priority := field p 26 1, epoch := s.settings.epoch.issuing }

/-- Zeroes the completion area, and writes the QSB (R148). -/
def openArea (s : State) (q n : Nat) : State := writeQsb (complWrite s (queue s q) 0 (zeros (64 + 32 * n))) q

/-- QUEUE_OPEN. `number` and, where the request leaves the die or Copy Engine open, `die` and `unit` are PCF's choice. -/
def execQueueOpen (who : Issuer) (number : QueueNo) (die : DieNo) (unit : Fin 2) (s : State) : Host.Outcome State Fault Refusal := whenLive s <|
  serve who 0x0101 none s (awake fun r s =>
    let p := r.payload
    let e := field p 0 1
    let d := if field p 1 1 < 8 then field p 1 1 else die.val
    let ei := engineInst e d unit.val
    let asid := field p 24 2
    let n := field p 4 4
    let bare := tagless s r.inst
    let s0 := if bare then s else noteRange (noteRange s 0 asid (field p 8 8) (64 * n)) 0 asid (field p 16 8) (64 + 32 * n)
    match pinQueue s0 p with
    | .error off => if bare then refuse s r stQuota 0 else refuse s0 r stBadRequest off
    | .ok (ring, compl) =>
      match openRefusal s0 e d with
      | some st => if bare then refuse s r stQuota 0 else refuse s0 r stWrongState st
      | none =>
        let slot := if r.inst = 0 then some number.val else freeSlot s0 r.inst
        let full := queueQuota s0 r.inst ≤ (openQueues s0 r.inst).length || 1024 ≤ (s0.eng.queues.filter fun q => q.2.state != .closed).length
          || engineContexts e ≤ engineQueues s0 e ei
        match if bare || full then none else slot with
        | none => refuse s0 r stQuota 0
        | some sl =>
          if (queue s0 number.val).state ≠ .closed then s
          else
            let s1 := openArea (setQueue s0 number.val (newQueue s0 r.inst sl ei p ring compl)) number.val n
            okWith s1 r (leBytes 2 sl ++ leBytes 2 number.val ++ leBytes 1 ei ++ zeros 3))

/-! ### QUEUE_CLOSE (R71, R72, R159) -/

/-- Forgets a queue: what waited on behalf of its commands goes with it. -/
def forgetQueue (s : State) (q : Nat) : State :=
  { s with
    eng := { s.eng with queues := tdel s.eng.queues q }
    memWaits := s.memWaits.filter fun w => match w.who with
      | .cmd q' _ => q' != q
      | .thread _ _ _ _ => true
    xlat := { s.xlat with susp := s.xlat.susp.filter fun e => e.queue != q } }

/-- A queue closes: its QSB reads STATE 0, and its context is free (R148). -/
def closeQueue (s : State) (q : Nat) : State :=
  forgetQueue (writeQsb (setQueue s q { queue s q with state := .closed, cmds := [] }) q) q

/-- Nothing of a closing queue remains to end (R72). -/
def queueDrained (x : Queue) : Bool := x.cmds.isEmpty && (x.state == .stopped || x.held || x.head == x.tail)

/-- A queue begins to close: with MODE 1, or once stopped, commands that have not started are dropped (R71, R159). -/
def startClose (x : Queue) (abort : Bool) : Queue :=
  if abort then dropFetched { x with state := if x.state = .stopped then .stopped else .closing, held := true }
  else { x with state := .closing }

/-- QUEUE_CLOSE (R72). A queue whose close a PCF restart ended is closed anew (R65). -/
def execQueueClose (who : Issuer) (s : State) : Host.Outcome State Fault Refusal := whenLive s <|
  serve who 0x0102 none s (awake fun r s =>
    match slotQueue s r.inst (field r.payload 0 2) with
    | none => refuse s r stNotFound 0
    | some q =>
      let x := queue s q
      if x.closeOp.isSome then refuse s r stWrongState 2
      else
        let x1 := startClose x (field r.payload 2 1 = 1 || x.state = .stopped)
        let hd := leBytes 4 x.head
        if queueDrained x1 then okWith (closeQueue (setQueue s q x1) q) r hd
        else acceptedWith (writeQsb (setQueue s q { x1 with state := .closing, closeOp := some r.op }) q) r hd)

/-- QUEUE_CLOSE_DRAIN_COMPLETE (R72). -/
def execQueueCloseDrainComplete (q : QueueNo) (s : State) : Host.Outcome State Fault Refusal := whenLive s <|
  let x := queue s q.val
  match x.closeOp with
  | none => .next s
  | some op => if queueDrained x then .next (opDone (closeQueue s q.val) op stOk 0) else .next s

/-! ### Doorbells (R36, R42, R146, R456) -/

/-- A doorbell of a slot with no open queue of the function (R42). -/
def dbStray (s : State) (fn slot : Nat) : State :=
  let r : ErrRec := { code := 0x1032, cls := 6, source := 6, inst := fn, arg := slot }
  if fn = 0 then logErr (hubError s 2 (doorbellAddr 0 slot)) 0 r else logErr s fn r

/-- A doorbell write, as performed (R36, R42, R146): it wakes the engine's die, and the package. A VF's doorbells are discarded while
it is reset (R33); a write to a slot that is not open is discarded and reported in every phase (R42, R468). -/
def doorbell (s : State) (n slot : Nat) (v : Word) (be : BitVec 4) : State :=
  if !memSpaceOn s n || (if n = 0 then 1024 else 64) ≤ slot then s
  else if be ≠ 0xF then bar0Size s n (doorbellAddr n slot)
  else if (tenant s n).resetting.isSome then s
  else match doorbellQueue s n slot with
    | none => dbStray s n slot
    | some q =>
      let x := queue s q
      let s0 := wakePackage s
      let s1 := if x.engine = 3 then s0 else wakeDie s0 (engineDie x.engine x.inst)
      tailWrite s1 q v.toNat

/-- QDB_TAIL_WRITE (R42, R55, R56): it takes effect after every BAR2 write received before it. -/
def execQdbTailWrite (fn : FnNo) (slot : Nat) (v : Word) (be : BitVec 4) (s : State) : Host.Outcome State Fault Refusal := whenLive s <|
  .next (inOrder s (.tail fn.val slot v be) (doorbell s fn.val slot v be))

/-! ### BAR2 (R38 to R40, R457, R468) -/

/-- Bytes of BAR2 (R34). -/
def bar2Size (s : State) : Nat := bar2Bytes s.pcie.bar2Code

/-- A byte lies in a bundle replica, whose layout the spec leaves to PCF (R96). -/
def inReplica (s : State) (a : Nat) : Bool := a % 2 ^ 36 < replicaTop s (a / 2 ^ 36 % 8) && 0x20000000 ≤ a % 2 ^ 36

/-- A BAR2 read of some bytes at its home slice; bytes of a bundle replica are free values (log entry 1). -/
def bar2Read (s : State) (a n : Nat) : State :=
  if populated s a && inReserve a then emit (hubError s 3 a) (.completion 0 (zeros n) false)
  else
    let bs := ((homeRead s a n).zip (List.range n)).map fun p =>
      if inReplica s (a + p.2) then BitVec.ofNat 8 (Config.freeWord (s.free + p.2)).toNat else p.1
    let s1 := if (List.range n).any (fun i => inReplica s (a + i)) then { s with free := s.free + n } else s
    emit (touchRead s1 a n) (.completion 0 bs (poisonIn s a n).isSome)

/-- A BAR2 write at its home slice. -/
def bar2Write (s : State) (a : Nat) (bs : List Byte) : State :=
  if populated s a && inReserve a then hubError s 3 a else homeWrite s a bs

/-- A BAR2 access, as performed at its home slice. -/
def bar2Perform (s : State) (a n : Nat) (data : Option (List Byte)) : State := match data with
  | some bs => bar2Write s a bs
  | none => bar2Read s a n

/-- Serves a BAR2 access, or holds it while the package or the die wakes, or while one before it is held (R55, R457). -/
def bar2Access (s0 : State) (a n : Nat) (data : Option (List Byte)) : State :=
  let s := wakePackage s0
  let d := a / 2 ^ 36 % 8
  if s.power.deep || s.power.waking || diePwr s d != .awake || !s.power.held.isEmpty then
    let s1 := wakeDie s d
    { s1 with power := { s1.power with held := s1.power.held ++ [.bar2 a n data] } }
  else bar2Perform s a n data

/-- BAR2_READ (R40, R468). -/
def execBar2Read (off n : Nat) (s : State) : Host.Outcome State Fault Refusal := whenLive s <|
  if !memSpaceOn s 0 then .next (emit s (.completion 1 [] false))
  else if n = 0 || bar2Size s < off + n then .next s
  else if s.start.phase ≠ .ready then .next (emit s (.completion 0 (zeros n) false))
  else .next (bar2Access s (bar2Base s + off) n none)

/-- BAR2_WRITE (R40, R468). -/
def execBar2Write (off : Nat) (bs : List Byte) (s : State) : Host.Outcome State Fault Refusal := whenLive s <|
  if !memSpaceOn s 0 || bs.isEmpty || bar2Size s < off + bs.length || s.start.phase ≠ .ready then .next s
  else .next (bar2Access s (bar2Base s + off) bs.length (some bs))

end Sys2Proof.Machine
end

