-- ==== Sys2Proof/Machine/Epoch.lean ====
section
/-!
DEFINITION. The settings epoch: starting a rolling change, staging, the flip, retiring, and dies that leave or join (R80 to R82).
-/

namespace Sys2Proof.Machine

def setEpoch (s : State) (e : Epoch) : State := { s with settings := { s.settings with epoch := e } }

/-- The epoch after `e`, 0 skipped (R80). -/
def nextEpoch (e : Word) : Word := if e + 1 = 0 then 1 else e + 1

/-- The value that a setting has once every change under way has taken effect (R78). -/
def latest (s : State) (id : Nat) : Nat :=
  match ((if s.settings.epoch.phase = 1 then s.settings.epoch.staging else []) ++ s.settings.due).find? (fun p => p.1 == id) with
  | some p => p.2
  | none => setting s id

/-- The values take effect for new work (R79). -/
def setRun (s : State) (vs : List (Nat × Nat)) : State :=
  { s with settings := { s.settings with run := vs.foldl (fun t p => tput t p.1 p.2) s.settings.run } }

/-- The flip: new work is stamped with the target, and the hub and every die taking part still hold the old values (R80). -/
def flipEpoch (s : State) : State :=
  let e := s.settings.epoch
  let old := e.staging.map fun p => (p.1, setting s p.1)
  setEpoch (setRun s e.staging) { e with issuing := e.target, phase := 2, retiring := 0x100 ||| e.part.setWidth 9, staging := [], old := old }

/-- Every die taking part has staged. -/
def allStaged (e : Epoch) : Bool := e.phase = 1 && e.part &&& ~~~e.staged = 0

/-- Outside serving mode the epoch flips at once; in serving mode at the next step boundary (R80). -/
def tryFlip (s : State) : State := if allStaged s.settings.epoch && s.serving.mode ≠ 1 then flipEpoch s else s

/-- The epoch before the current one. -/
def priorEpoch (e : Word) : Word := if e = 1 then 0xFFFFFFFF else e - 1

/-- The change ends when every die has dropped the old values (R80). -/
def tryEndEpoch (s : State) : State :=
  let e := s.settings.epoch
  if e.phase = 2 && e.retiring = 0 then
    eventTo (setEpoch s { e with phase := 0, old := [], part := 0, staged := 0 }) 0 0 0x0002 e.issuing.toNat
      (priorEpoch e.issuing).toNat 0 0
  else s

/-- A rolling change starts: the hub has staged, and the dies in service take part (R80). -/
def startChangeEpoch (s : State) (vs : List (Nat × Nat)) : State :=
  let e := s.settings.epoch
  tryFlip (setEpoch s { e with target := nextEpoch e.issuing, phase := 1, part := BitVec.ofNat 8 (dieMask (diesInService s)),
                               staged := 0, staging := vs })

/-- EPOCH_DIE_STAGED (R80): the lowest die that has not staged. -/
def execEpochDieStaged (s : State) : Host.Outcome State Fault Refusal := whenLive s <|
  let e := s.settings.epoch
  if e.phase ≠ 1 || !s.start.pcfRunning then .next s
  else match (List.range 8).find? fun d => e.part.getLsbD d && !e.staged.getLsbD d with
    | some d => .next (tryFlip (setEpoch s { e with staged := e.staged ||| BitVec.ofNat 8 (2 ^ d) }))
    | none => .next s

/-- A launch has blocks to start or running on a die. -/
def launchOn (s : State) (l : Nat × Launch) (d : Nat) : Bool :=
  l.2.next.any (fun p => p.1 == d && decide (p.2.1 < p.2.2)) || (dieCores s d).any fun c => c.blocks.any fun b => b.2.launch == l.1

/-- The die of a location, where it lies on one. -/
def locDie : Loc → Option Nat
  | .dev a => some (a / 2 ^ 36 % 8)
  | .host _ _ _ => none

/-- The C-dies that a command touches, the hub counting as 8: its engine's, and those that hold the memory it has translations of
(R81). The blocks of a LAUNCH are counted with its launch. -/
def cmdDies (x : Queue) (c : Cmd) : List Nat :=
  engineDie x.engine x.inst :: c.xl.filterMap (fun p => p.2.bind locDie) ++ c.leaves.map fun l => l.dpa / 2 ^ 36 % 8

/-- Work stamped with an epoch is live on a die, or on the hub as 8: a command, a launch, or the step in flight (R81). -/
def liveOn (s : State) (e : Word) (d : Nat) : Bool :=
  s.eng.queues.any (fun p => p.2.cmds.any fun c => c.epoch == e && (cmdDies p.2 c).contains d)
    || s.eng.launches.any (fun l => l.2.epoch == e && launchOn s l d)
    || (match s.serving.step with
        | some t => t.epoch == e
        | none => false)

/-- EPOCH_RETIRE (R80): the die, or the hub, drops the old values when no work stamped with them remains on it. -/
def execEpochRetire (d : HolderNo) (s : State) : Host.Outcome State Fault Refusal := whenLive s <|
  let e := s.settings.epoch
  if e.phase = 2 && e.retiring.getLsbD d.val && !liveOn s (priorEpoch e.issuing) d.val then
    .next (tryEndEpoch (setEpoch s { e with retiring := e.retiring &&& ~~~BitVec.ofNat 9 (2 ^ d.val) }))
  else .next s

/-- A die that leaves service during a change (R82). -/
def epochLeave (s : State) (d : Nat) : State :=
  let e := s.settings.epoch
  let m := ~~~BitVec.ofNat 8 (2 ^ d)
  if e.phase = 0 then s
  else tryEndEpoch (tryFlip (setEpoch s { e with part := e.part &&& m, staged := e.staged &&& m,
                                                 retiring := e.retiring &&& ~~~BitVec.ofNat 9 (2 ^ d) }))

/-- A die that returns to service stages the issuing epoch, and the target while PHASE is 1 (R82). -/
def epochJoin (s : State) (d : Nat) : State :=
  let e := s.settings.epoch
  let m := BitVec.ofNat 8 (2 ^ d)
  if e.phase = 1 then setEpoch s { e with part := e.part ||| m, staged := e.staged ||| m } else s

/-- A PCF restart during staging abandons the change; during retiring the change goes on to its end (R82). -/
def epochRestart (s : State) : State :=
  let e := s.settings.epoch
  if e.phase = 1 then
    eventTo (setEpoch s { e with target := e.issuing, phase := 0, staging := [], part := 0, staged := 0 }) 0 0 0x0002 e.target.toNat
      e.issuing.toNat stWrongState 0
  else s

end Sys2Proof.Machine
end

