-- ==== Sys2Proof/Machine/PcfSet.lean ====
section
/-!
DEFINITION. SETTING_SET, and the background erase of a superseded user layer (R77 to R79, R110, R334, R401, R475, R486 to R491, R494).
-/

namespace Sys2Proof.Machine

/-- Entry `i` of a request: identifier and value (R77). -/
def setId (p : List Byte) (i : Nat) : Nat := field p (8 + 16 * i) 2
def setValue (p : List Byte) (i : Nat) : Nat := field p (16 + 16 * i) 8

/-- The entries of a request, in order. -/
def setEntries (p : List Byte) : List (Nat × Nat) := (List.range (field p 0 2)).map fun i => (setId p i, setValue p i)

/-- The value lies in its setting's range; PF_ROOT_DIR's 32 KiB are eligible for the PF (R334). -/
def valueOk (s : State) (d : SettingDef) (v : Nat) : Bool :=
  settingInRange d v && (d.id != idPfRootDir || v == 0 || (physOf s 0 v 32768).isSome)

/-- Pairs of settings of which the first may not exceed the second (R110). -/
def settingPairs : List (Nat × Nat) := [(idPrefillMin, idPrefillChunk), (idRetryMin, idRetryMax)]

/-- The value of a setting after a request. -/
def valueAfter (s : State) (es : List (Nat × Nat)) (id : Nat) : Nat := match es.find? (fun e => e.1 == id) with
  | some e => e.2
  | none => latest s id

/-- Entry `i` is the one that R110 names for a pair that the request would leave in the wrong order. -/
def pairBad (s : State) (es : List (Nat × Nat)) (i : Nat) : Bool :=
  settingPairs.any fun p =>
    let id := (es.getD i (0, 0)).1
    (id == p.1 || id == p.2) && decide (valueAfter s es p.2 < valueAfter s es p.1)
      && !((es.drop (i + 1)).any fun e => e.1 == p.1 || e.1 == p.2)

/-- The write-once group of an entry is named in part (R489). -/
def groupPart (es : List (Nat × Nat)) (id : Nat) : Bool :=
  let part (g : List Nat) : Bool := g.contains id && !(g.all fun k => es.any fun e => e.1 == k)
  part [1, 2, 3, 4] || part [idTwinPairId, idTwinSide]

/-- The offset of entry `i`'s first offending field (R60, R78). -/
def entryFault (s : State) (r : Req) (i : Nat) : Option Nat :=
  let p := r.payload
  let es := setEntries p
  let n := r.hdr.length
  let b := 8 + 16 * i
  let id := setId p i
  let v := setValue p i
  if n < b + 2 then some b
  else match settingDef id with
    | none => some b
    | some d =>
      if d.cls = .restart && field p 2 1 = 0 then some 2
      else if (es.take i).any (fun e => e.1 == id) || groupPart es id then some b
      else if n < b + 8 || field p (b + 2) 6 ≠ 0 then some (b + 2)
      else if n < b + 16 || !valueOk s d v || pairBad s es i || (id = idFwNextBank && !imageValid s (v == 1)) then some (b + 8)
      else none

/-- DETAIL of the DENIED that entry's setting gives (R401, R489, R491). -/
def entryDenied (s : State) (id : Nat) : Option Nat :=
  if id = idTwinPairId || id = idTwinSide then some 1
  else if s.settings.written.contains id then some 2
  else if factoryLocked s id then some 1
  else none

def isRolling (id : Nat) : Bool := match settingDef id with
  | some d => d.cls == .rolling
  | none => false
def isImmediate (id : Nat) : Bool := match settingDef id with
  | some d => d.cls == .immediate && !d.writeOnce
  | none => false

/-- The opcode of the command that makes a request wait: a rolling change, a load or a swap against a ROLLING entry (R78), and an open
hub window against a write of the flash (R494). -/
def setBusy (s : State) (es : List (Nat × Nat)) (persist : Bool) : Option Nat :=
  let roll := es.any fun e => isRolling e.1
  if roll && s.settings.epoch.phase ≠ 0 then some 0x0402
  else if roll && s.serving.load.isSome then some 0x0201
  else if roll && s.serving.swap.isSome then some 0x0202
  else if s.windows.getLsbD 0 && (persist || es.any fun e => (onceGroup e.1).isSome) then some 0x0701
  else none

/-- The serving tunables of class IMMEDIATE, which take effect at a step boundary (R110). -/
def boundaryTunable (id : Nat) : Bool :=
  [idSwapMaxDrain, idStepTarget, idAdmqDepth, idRetryMin, idRetryMax, idPlaceSpill, idDecodeShareMax].contains id

/-- IMMEDIATE settings take effect for the whole package at once (R79), in serving mode its tunables at the next step boundary (R110); the
core clock follows PWR_CORE_MHZ unless the trip is engaged (R462, R463). -/
def applyImmediate (s : State) (es : List (Nat × Nat)) : State :=
  let wait (id : Nat) : Bool := s.serving.mode == 1 && boundaryTunable id
  let s1 := setRun s (es.filter fun e => isImmediate e.1 && !wait e.1)
  let s2 := { s1 with settings := { s1.settings with
    due := (es.filter fun e => isImmediate e.1 && wait e.1).foldl (fun t e => tput t e.1 e.2) s1.settings.due } }
  if s2.power.trip then s2 else { s2 with power := { s2.power with coreMhz := setting s2 idPwrCoreMhz } }

/-- A step boundary: the tunables that wait for it take effect (R110). -/
def applyDue (s : State) : State :=
  let s1 := setRun s s.settings.due
  { s1 with settings := { s1.settings with due := [] } }

/-- The write-once group that a request names whole (R489); true where its record has been programmed, or none is named. -/
def applyOnce (s : State) (es : List (Nat × Nat)) (failed : Bool) : State × Bool :=
  if es.any fun e => e.1 == 1 then
    writeGroup s 1 ([1, 2, 3, 4].map fun k => valueAfter s es k) failed
  else (s, true)

/-- The boot record that follows a user-layer write of FW_NEXT_BANK (R475). -/
def applyBank (s : State) (es : List (Nat × Nat)) (failed : Bool) : State × Bool :=
  match es.find? (fun e => e.1 == idFwNextBank) with
  | none => (s, true)
  | some e => if failed then (s, false) else (writeBoot s e.2 0 (bootRec s).confirmed, true)

/-- The effects of a request that passed every check, and whether every store succeeded (R79). -/
def applySet (s : State) (es : List (Nat × Nat)) (persist userFails onceFails bootFails : Bool) : State × Bool :=
  let roll := es.filter fun e => isRolling e.1
  let (s1, ok1) := applyOnce s es onceFails
  let s2 := applyImmediate s1 es
  let s3 := if roll.isEmpty then s2 else startChangeEpoch s2 roll
  if !persist then (s3, ok1)
  else
    let (s4, ok2) := writeUser s3 (es.filter fun e => (onceGroup e.1).isNone) userFails
    if ok2 then
      let (s5, ok3) := applyBank s4 es bootFails
      (s5, ok1 && ok3)
    else (s4, false)

/-- SETTING_SET (R78). The operands say whether the user layer, the write-once record and the boot record fail to be written. -/
def execSettingSet (who : Issuer) (userFails onceFails bootFails : Bool) (s : State) : Host.Outcome State Fault Refusal := whenLive s <|
  serve who 0x0402 none s fun r s =>
    let p := r.payload
    let es := setEntries p
    let idx := List.range es.length
    let persist := field p 2 1 = 1
    match idx.findSome? (fun i => (entryFault s r i).map fun o => (i, o)) with
    | some (i, o) => answer s r { status := stBadRequest, detail := o, payload := setPayload s 0 i }
    | none => match setBusy s es persist with
      | some op => refuse s r stBusy op
      | none => match idx.findSome? (fun i => (entryDenied s (setId p i)).map fun d => (i, d)) with
        | some (i, d) => answer s r { status := stDenied, detail := d, payload := setPayload s 0 i }
        | none =>
          let (s1, ok) := applySet s es persist userFails onceFails bootFails
          if !ok then refuse s1 r stStoreFail 0
          else if es.any fun e => isRolling e.1 then
            answer s1 r { status := stTransition, detail := transitionDetail s1,
                          payload := setPayload s1 (nextEpoch s.settings.epoch.issuing) 0xFFFF }
          else okWith s1 r (setPayload s1 0 0xFFFF)

/-- USER_LAYER_ERASE_COMPLETE (R486). -/
def execUserLayerEraseComplete (s : State) : Host.Outcome State Fault Refusal := whenLive s <|
  match s.flash.erasing with
  | none => .next s
  | some a =>
    let s1 := flashErase s a
    .next { s1 with flash := { s1.flash with erasing := none } }

end Sys2Proof.Machine
end

