-- ==== Sys2Proof/Machine/Bundles.lean ====
section
/-!
DEFINITION. Bundles: loading, verifying, replicating and swapping, the pools that a load forms, and retirement (R73, R74, R92 to R100,
R120, R410, R427, R439).
-/

namespace Sys2Proof.Machine

def setServing (s : State) (v : Serving) : State := { s with serving := v }

/-! ### Phases (R69, R74) -/

/-- A change of the bundle state, with BUNDLE_PHASE where the phase changes. -/
def withPhase (before after : State) (handle : Nat) : State :=
  if bundlePhase before = bundlePhase after then after else eventTo after 0 0 0x0006 handle (bundlePhase after) 0 0

/-- The opcode that keeps a load or swap waiting (R74). -/
def bundleBusy (s : State) : Option Nat :=
  if s.serving.load.isSome then some 0x0201 else if s.serving.swap.isSome then some 0x0202
  else if s.settings.epoch.phase ≠ 0 then some 0x0402 else none

/-! ### Halves (R97 to R100, R105) -/

/-- Stacks of a half: true M0 to M3. -/
def halfOf (lower : Bool) : List Nat := if lower then [0, 1, 2, 3] else [4, 5, 6, 7]
def bundleAt (s : State) (st : Nat) : Option Bundle := if st < 4 then s.serving.halfA else s.serving.halfB

/-- The halves that a swap drains. -/
def draining (s : State) : List Bool := match s.serving.swap with
  | none => []
  | some w => match w.stage with
    | .drainA => [true]
    | .drainB => [false]
    | .drainAll => [true, false]
    | _ => []

/-- The halves that a swap loads: closed between drain end and load end (R105). -/
def loading (s : State) : List Bool := match s.serving.swap with
  | none => []
  | some w => match w.stage with
    | .loadA => [true]
    | .loadB => [false]
    | .loadAll => [true, false]
    | _ => []

/-- A stack is open to new sessions (R97): its half holds the bundle that they are bound to, and neither drains nor loads. -/
def stackOpen (s : State) (st : Nat) : Bool :=
  !(draining s ++ loading s).contains (decide (st < 4)) && (match bundleAt s st, admitBundle s with
    | some a, some b => a.handle == b.handle
    | _, _ => false)

/-- A stack that holds a pool and a part of the replica: its die has not failed at start (R418, R477). -/
def stackHosts (s : State) (st : Nat) : Bool := dieCond s st == .inService || dieCond s st == .quarantined

/-! ### Pools (R120, R410, R427, R439) -/

/-- The end of the tenants' ranges on a stack, as an offset. -/
def rangesTop (s : State) (st : Nat) : Nat :=
  s.tenants.foldl (fun m p => if tget 0 p.2.cfg.len st = 0 then m
    else max m (tget 0 p.2.cfg.base st % 2 ^ 36 + tget 0 p.2.cfg.len st)) 0

/-- Rows of a stack that sessions hold, rows in a zero-fill included. -/
def heldRows (s : State) (st : Nat) : List Nat :=
  (liveSessions s).flatMap fun p =>
    (p.2.rowMap.filter fun r => r.2.stack == st).map (·.2.row) ++ fillingRows p.2 st

/-- Forms a stack's pool of `n` rows: every row that no session holds and that has no retired page is free. Where the pool exists, rows
in force keep their last owners. -/
def sizePool (s : State) (st n : Nat) : State :=
  let held := heldRows s st
  setPool s st { pool s st with rows := n, free := (List.range n).filter fun r => !held.contains r && !rowRetired s st r }

/-- Rows between an offset and the top of a stack's populated range. -/
def rowsAbove (s : State) (top : Nat) : Nat := (0xC00000000 - top) / (setting s idKvRowPages * 65536)

/-- A session that cannot keep a row in the way: a shadow is freed with SH_NAK, reason 0; a frozen session is retired at the next boundary
(R410, R439). -/
def rowEvicted (s : State) (n : Nat) : State :=
  if (session s n).state = .shadow then nakShadow s n 0
  else setServing (setSession s n { session s n with state := .active }) { s.serving with retire := s.serving.retire ++ [n] }

/-- Rows of a session at or beyond a stack's pool, by row-map entry. -/
def rowsInWay (s : State) (n st : Nat) : List Nat :=
  ((session s n).rowMap.filter fun r => r.2.stack == st && decide ((pool s st).rows ≤ r.2.row)).map (·.1)

/-- Rows in the way of a replica are copied to free rows of the same stack (R120, R410, R439). -/
def clearWay (s : State) (st : Nat) : State :=
  ((liveSessions s).map (·.1)).foldl (fun s n =>
    match (rowsInWay s n st).foldl (fun r j => r.bind fun s => moveRow s n j [st]) (some s) with
    | some s1 => s1
    | none => rowEvicted s n) s

/-- The pool of one stack of a half that loads: what the replica and the tenants' ranges leave (R120, R427). -/
def formPool (s : State) (st : Nat) : State :=
  if stackHosts s st then clearWay (sizePool s st (rowsAbove s (max (replicaTop s st) (rangesTop s st)))) st else s

def formPools (s : State) (l : List Nat) : State := serveAll (l.foldl formPool s)

/-! ### Retirement (R98) -/

/-- Ends a session with BUNDLE_RETIRED. -/
def retireSession (s : State) (n : Nat) : State :=
  let x := session s n
  if x.state = .free || x.state = .shadow then s else loseSession s n stBundleRetired 0

/-- Sessions bound to a bundle on some halves that a drain waits for: frozen ones and shadows are not counted (R97, R439). -/
def drainCount (s : State) (b : Bundle) (hs : List Bool) : List Nat :=
  ((liveSessions s).filter fun p =>
    p.2.state != .shadow && p.2.state != .frozen && p.2.bundleDigest == b.digest && hs.contains (decide (p.2.home < 4))).map (·.1)

/-! ### The image (R93, R94) -/

/-- One network entry with the attention descriptor of its section (R93, R116). -/
def netEntry (s : State) (dpa : Nat) (h : List Byte) (i : Nat) : Network :=
  let e := (h.drop (64 + 64 * i)).take 64
  let off := field e 8 8
  let d := homeRead s (dpa + off) 64
  let kv := field e 24 4
  let decoder := field e 0 1 = 0 || kv ≠ 0
  { kind := field e 0 1, maxTokens := field e 4 4, offset := off, bytes := field e 16 8, kvBytesToken := kv, layers := field e 28 2,
    vocab := field e 32 4,
    kvHeads := if decoder then field d 0 1 else 0, qHeads := if decoder then field d 1 1 else 0,
    headDim := if decoder then field d 2 2 else 0, kvFormat := if decoder then field d 4 1 else 0 }

def allZero (bs : List Byte) : Bool := bs.all (· == 0)

/-- Every reserved byte of the header is zero, and so are the entries from NETWORKS onward (R93, check 2 of R94). -/
def headerZero (h : List Byte) (n : Nat) : Bool :=
  allZero ((h.drop 7).take 1) && allZero ((h.drop 26).take 6) && allZero ((h.drop 576).take 3520)
    && (List.range 8).all fun i =>
      let e := (h.drop (64 + 64 * i)).take 64
      if i < n then allZero ((e.drop 1).take 3) && allZero ((e.drop 30).take 2) && allZero (e.drop 36) else allZero e

/-- Sections lie in their place and do not overlap (check 4). -/
def sectionsOk (nets : List Network) (n : Nat) : Bool :=
  nets.all (fun x => decide (65536 ≤ x.offset) && decide (x.offset + x.bytes ≤ n - 128))
    && (List.range nets.length).all fun i => (List.range nets.length).all fun j =>
      i == j || (nets.getD i {}).offset + (nets.getD i {}).bytes ≤ (nets.getD j {}).offset
        || (nets.getD j {}).offset + (nets.getD j {}).bytes ≤ (nets.getD i {}).offset

/-- Check 7: the weights fit each stack beside the firmware reserve, the tenants' ranges and 1 GiB of pool. -/
def weightsFit (s : State) (w repl : Nat) : Bool :=
  (List.range 8).all fun st =>
    let own := ceilDiv (w * repl) 8
    let share := if s.serving.active.isSome && repl = 1 && st < 4 then ceilDiv w 4 else own
    share + 0x20000000 + 0x40000000 + (s.tenants.map fun p => tget 0 p.2.cfg.len st).sum ≤ 0xC00000000

/-- Check 8's hash: the customer root key's where it is written, else the Grellimbe bundle key's (R94, R496). -/
def bundleKeyHash (s : State) : List Byte :=
  let first := if s.settings.written.contains 1 then 1 else 8
  (List.range 4).flatMap fun i => leBytes 8 (setting s (first + i))

/-- Verification of an image (R94); the bundle that it gives. -/
def verifyBundle (s : State) (l : LoadOp) : Option Bundle :=
  let h := homeRead s l.dpa 4096
  let n := l.bytes
  let k := field h 6 1
  let nets := (List.range k).map (netEntry s l.dpa h)
  let t := homeRead s (l.dpa + n - 128) 128
  if n < 4224 || field h 0 4 ≠ 0x4C444E42 || field h 4 2 ≠ 1 || field h 8 8 ≠ n then none
  else if k = 0 || 8 < k || !headerZero h k then none
  else if nets.any fun x => 2 < x.kind || (if x.kind = 0 then x.vocab == 0 || decide (2 ^ 24 < x.vocab) else x.vocab != 0) then none
  else if !sectionsOk nets n then none
  else if field h 16 8 ≠ (nets.map (·.bytes)).sum then none
  else if 0x0304 < field h 24 2 then none
  else if !weightsFit s (field h 16 8) l.repl then none
  else if sha256 (t.take 64) ≠ bundleKeyHash s then none
  else if !ecdsaOk (t.take 64) (t.drop 64) (sha256 (homeRead s l.dpa (n - 128))) then none
  else some { handle := l.handle, dpa := l.dpa, bytes := n, repl := l.repl, nets := nets, digest := sha256 (homeRead s l.dpa n) }

/-- The image still has the digest taken at verification (R95). -/
def digestHolds (s : State) (b : Bundle) : Bool := sha256 (homeRead s b.dpa b.bytes) = b.digest

/-! ### Loading (R74, R94, R95) -/

/-- BUNDLE_LOAD (R73, R74). -/
def execBundleLoad (who : Issuer) (s : State) : Host.Outcome State Fault Refusal := whenLive s <|
  serve who 0x0201 none s (awake fun r s =>
    if s.serving.mode ≠ 1 then refuse s r stWrongState s.serving.mode
    else match bundleBusy s with
      | some op => refuse s r stBusy op
      | none =>
        let h := s.serving.nextHandle
        let l : LoadOp := { op := r.op, handle := h, dpa := field r.payload 0 8, bytes := field r.payload 8 8, repl := field r.payload 16 1 }
        let s1 := setServing s { s.serving with load := some l, nextHandle := if h = 0xFFFFFFFF then 1 else h + 1 }
        acceptedWith (withPhase s s1 h) r (leBytes 4 h))

/-- A load ends: its phase, then its OP_DONE. -/
def endLoad (s : State) (l : LoadOp) (v : Serving) (status : Nat) : State :=
  opDone (withPhase s (setServing s { v with load := none }) l.handle) l.op status 0

/-- BUNDLE_LOAD_VERIFY_COMPLETE (R74, R94). -/
def execBundleLoadVerifyComplete (s : State) : Host.Outcome State Fault Refusal := whenLive s <|
  match s.serving.load with
  | none => .next s
  | some l =>
    if l.replicating.isSome || !pcfUp s then .next s
    else match verifyBundle s l with
      | none => .next (endLoad s l s.serving stVerifyFail)
      | some b =>
        if s.serving.active.isSome then .next (endLoad s l { s.serving with staged := some b } stOk)
        else
          let s1 := placeReplica s (List.range 8)
          .next (setServing s1 { s1.serving with load := some { l with replicating := some b } })

/-- The bundle becomes active on both halves, and every pool is formed (R74, R120). -/
def activate (s : State) (b : Bundle) : State :=
  formPools (setServing s { s.serving with active := some b, halfA := some b, halfB := some b }) (List.range 8)

/-- A swap that fails leaves the old bundle serving on every half (R95). -/
def swapFail (s : State) (w : SwapOp) : State :=
  opDone (withPhase s (setServing s { s.serving with swap := none, staged := none }) w.bundle.handle) w.op stVerifyFail 0

/-- BUNDLE_REPLICATION_COMPLETE (R95): the end of a replication from the image, at the first activation or in a swap. -/
def execBundleReplicationComplete (s : State) : Host.Outcome State Fault Refusal := whenLive s <|
  match s.serving.load, s.serving.swap with
  | some l, _ => match l.replicating with
    | none => .next s
    | some b =>
      if !pcfUp s then .next s
      else if digestHolds s b then
        let s1 := activate s b
        .next (opDone (withPhase s (setServing s1 { s1.serving with load := none }) l.handle) l.op stOk 0)
      else .next (endLoad s l s.serving stVerifyFail)
  | none, some w =>
    if (w.stage ≠ .loadA && w.stage ≠ .loadAll) || w.written || !pcfUp s then .next s
    else if digestHolds s w.bundle then .next (setServing s { s.serving with swap := some { w with written := true } })
    else .next (swapFail s w)
  | none, none => .next s

/-! ### Swapping (R74, R97 to R100) -/

/-- The stage that loads what a stage has drained. -/
def loadStage : SwapStage → SwapStage
  | .drainA => .loadA
  | .drainB => .loadB
  | .drainAll => .loadAll
  | st => st

/-- The stacks into which the weights go when a stage has drained. -/
def loadStacks : SwapStage → List Nat
  | .drainA => halfOf true
  | .drainB => halfOf false
  | .drainAll => List.range 8
  | _ => []

/-- The swap ends in PHASE 5 (R97, R99): the staged bundle is active, and the transient copy's memory returns to the pools. -/
def swapDone (s : State) (w : SwapOp) : State :=
  let b := some w.bundle
  let s1 := setServing s { s.serving with active := b, staged := none, swap := none, halfA := b, halfB := b, transient := false }
  opDone (withPhase s (formPools s1 (List.range 8)) w.bundle.handle) w.op stOk 0

/-- C0 to C3 begin serving the new bundle, from M0 to M3 alone where its factor is 1, and C4 to C7 drain (R97, R99). -/
def swapOpen (s : State) (w : SwapOp) : State :=
  let s1 := setServing s { s.serving with halfA := some w.bundle, transient := w.bundle.repl == 1,
                                          swap := some { w with stage := .drainB, written := false, loaded := false, expired := false } }
  withPhase s (formPools s1 (halfOf true)) w.bundle.handle

/-- The step of a swap that begins at a step boundary (R97 to R99): the first drain; the end of a drain, when no session remains or its
time has passed; a loaded half begins serving. -/
def swapBoundary (s : State) : State := match s.serving.swap, s.serving.active with
  | some w, some a =>
    match w.stage with
    | .accepted =>
      withPhase s (setServing s { s.serving with swap := some { w with stage := if a.repl = 1 then .drainAll else .drainA } }) w.bundle.handle
    | .loadA => if w.loaded then swapOpen s w else s
    | .loadB | .loadAll => if w.loaded then swapDone s w else s
    | .drainA | .drainB | .drainAll =>
      let rest := drainCount s a (draining s)
      if !rest.isEmpty && !w.expired then s
      else
        let s1 := placeReplica (rest.foldl retireSession s) (loadStacks w.stage)
        setServing s1 { s1.serving with swap := some { w with stage := loadStage w.stage, expired := false, written := false, loaded := false } }
  | _, _ => s

/-- While no step is in flight the batcher stands at a boundary (log entry 27). -/
def swapIdle (s : State) : State := if s.serving.step.isNone then swapBoundary s else s

/-- BUNDLE_SWAP (R73, R74). -/
def execBundleSwap (who : Issuer) (s : State) : Host.Outcome State Fault Refusal := whenLive s <|
  serve who 0x0202 none s (awake fun r s =>
    if s.serving.mode ≠ 1 then refuse s r stWrongState s.serving.mode
    else match s.serving.staged, s.serving.active with
      | some b, some _ =>
        if b.handle ≠ field r.payload 0 4 then refuse s r stNotFound 0
        else match bundleBusy s with
          | some op => refuse s r stBusy op
          | none =>
            let ms := field r.payload 4 4
            let w : SwapOp := { op := r.op, bundle := b, drainMs := if ms = 0 then setting s idSwapMaxDrain else ms, stage := .accepted }
            accepted (swapIdle (setServing s { s.serving with swap := some w })) r
      | none, some _ => refuse s r stNotFound 0
      | _, none => refuse s r stWrongState (bundlePhase s))

/-- SWAP_DRAIN_END (R97): at a step boundary, so not while a step is in flight. -/
def execSwapDrainEnd (s : State) : Host.Outcome State Fault Refusal := whenLive s <|
  match s.serving.swap, s.serving.active with
  | some w, some a =>
    if loadStage w.stage ≠ w.stage && s.serving.step.isNone && (drainCount s a (draining s)).isEmpty && pcfUp s then .next (swapBoundary s)
    else .next s
  | _, _ => .next s

/-- SWAP_DRAIN_EXPIRY (R98): the sessions that remain are retired at the next step boundary. -/
def execSwapDrainExpiry (s : State) : Host.Outcome State Fault Refusal := whenLive s <|
  match s.serving.swap with
  | some w => if loadStage w.stage = w.stage then .next s
      else .next (setServing s { s.serving with swap := some { w with expired := true } })
  | none => .next s

/-- A half is loaded once the image has been read whole; the second one is loaded from M0 to M3, and reads no image (R97). -/
def halfLoaded (w : SwapOp) : Bool := w.stage == .loadB || (w.written && (w.stage == .loadA || w.stage == .loadAll))

/-- SWAP_HALF_REPLICATED (R97, R99): the half begins serving at the step boundary that follows. -/
def execSwapHalfReplicated (s : State) : Host.Outcome State Fault Refusal := whenLive s <|
  match s.serving.swap with
  | none => .next s
  | some w =>
    if pcfUp s && halfLoaded w then .next (swapIdle (setServing s { s.serving with swap := some { w with loaded := true } })) else .next s

end Sys2Proof.Machine
end

