-- ==== Sys2Proof/Machine/Hbm.lean ====
section
/-!
DEFINITION. The stack controllers: requests in order per sector, check bits, refresh, scrub, page retirement, training and fill
(chapter 12).
-/

namespace Sys2Proof.Machine

/-! ### The two paths and their queues (R292 to R295) -/

/-- Whether a request takes the Skink path: single sectors of the structures that need them, and the write-back of one dirty sector (R292). -/
def onSkink : StackUse → Bool
  | .gather => true
  | .walk => true
  | .tableRead => true
  | .tableWrite => true
  | .writeBack d => ((List.range 4).filter (bit d.toNat)).length == 1
  | .firmwareRead => false
  | .firmwareWrite => false
  | .lineFill => false
  | .engineRead => false
  | .bar2Read => false
  | .bypassWrite => false
  | .zeroFill => false

/-- Uses that reach the firmware reserve (R289). -/
def ofFirmware : StackUse → Bool
  | .tableRead => true
  | .tableWrite => true
  | .firmwareRead => true
  | .firmwareWrite => true
  | _ => false

/-- A request as the controller holds it. -/
def askReq (s : State) (r : StackAsk) : StackReq :=
  let off := r.addr % 128
  let bs := r.data.take (128 - off)
  let q : StackReq := { skink := onSkink r.use, line := lineOf r.addr, mask := 2 ^ (off / 32), since := s.hubTime }
  match r.use with
  | .lineFill => { q with mask := 15 }
  | .writeBack d => { q with mask := d.toNat, write := some (0, r.data.take 128) }
  | .zeroFill => { q with mask := 15, write := some (0, zeros 128) }
  | .tableWrite => { q with write := some (off, r.data.take (32 - off % 32)) }
  | .firmwareWrite => { q with mask := touched off bs.length, write := some (off, bs) }
  | .bypassWrite => { q with mask := touched off bs.length, write := some (off, bs) }
  | _ => q

/-- The pseudo-channel of a request. -/
def reqPc (r : StackReq) : Nat := pcOf (lineOffset r.line)
/-- The bank of a request, with its pseudo-channel. -/
def reqBank (r : StackReq) : Nat := bankOf (lineOffset r.line)

/-- Requests of one path queued for a pseudo-channel. -/
def queuedOn (c : StackCtl) (skink : Bool) (pc : Nat) : Nat := (c.q.filter fun r => r.skink == skink && reqPc r == pc).length

/-- STACK_REQUEST_ACCEPT (R287 to R289, R292 to R294): unpopulated or reserved space is counted; a full queue withholds credit. The 48 lines
and 64 sectors of a pseudo-channel's queues fill its write buffer of 256 sectors (R295). -/
def execStackRequestAccept (d : DieNo) (r : StackAsk) (s : State) : Host.Outcome State Fault Refusal := whenLive s <|
  let a := r.addr
  if a / 2 ^ 48 ≠ 0 || a / 2 ^ 36 % 8 ≠ d.val then .next s
  else if !populated s a || (inReserve a && !ofFirmware r.use) then .next (noteUnpop s a)
  else
    let c := stackCtl s d.val
    let q := askReq s r
    if (if q.skink then 64 else 48) ≤ queuedOn c q.skink (reqPc q) then .next s
    else
      let c1 := { c with q := c.q ++ [q] }
      let s1 := setStackCtl s d.val c1
      .next (if q.skink then peak s1 (dieReg d.val hbmSkinkPeak) (queuedOn c1 true (reqPc q)) else s1)

/-! ### The scheduler (R293 to R297) -/

/-- A request has waited 2 µs: 50 cycles of HUB_TIME (R293). -/
def agedReq (s : State) (r : StackReq) : Bool := decide (r.since + 50 ≤ s.hubTime)

/-- The bank of a request is under refresh (R297): per-bank, in the hub cycle in which its refresh began; all-bank, for 150 ns. -/
def underRefresh (s : State) (c : StackCtl) (r : StackReq) : Bool := match c.refSince with
  | none => false
  | some t => if c.refMode = 1 then decide (s.hubTime < t + 4)
      else s.hubTime == t && reqBank r % 64 == c.refBank / 3 * 4 + c.refBank % 3

/-- The request at a place of the queue waits: for an earlier one to a sector of its own, for an aged one to its bank, or for a refresh
(R293, R294, R297). -/
def heldBack (s : State) (c : StackCtl) (k : Nat) (r : StackReq) : Bool :=
  underRefresh s c r || (c.q.take k).any fun p => (p.line == r.line && (p.mask &&& r.mask) != 0) || (reqBank p == reqBank r && agedReq s p)

/-- The requests of a pseudo-channel, with their places, oldest first. -/
def pcReqs (c : StackCtl) (pc : Nat) : List (Nat × StackReq) := ((List.range c.q.length).zip c.q).filter fun p => reqPc p.2 == pc

def sectorsIn (r : StackReq) : Nat := ((List.range 4).filter (bit r.mask)).length

/-- The bus of a pseudo-channel is, or turns, to writes (R295). -/
def busWrites (s : State) (c : StackCtl) (pc : Nat) : Bool :=
  let rs := (pcReqs c pc).map (·.2)
  let w := ((rs.filter fun r => r.write.isSome).map sectorsIn).sum
  let reads := rs.any fun r => r.write.isNone
  let p := pcSched c pc
  let batch := setting s idHbmWrBatch
  if w = 0 then false
  else if p.writing then decide (p.batch < batch) || !reads
  else decide (batch ≤ w) || decide (192 ≤ w) || !reads

/-- The ready requests of a pseudo-channel for a direction, on a path. -/
def readyReqs (s : State) (c : StackCtl) (pc : Nat) (write skink : Bool) : List (Nat × StackReq) :=
  (pcReqs c pc).filter fun p => p.2.write.isSome == write && p.2.skink == skink && !heldBack s c p.1 p.2

/-- First-ready, first-come: a request whose row is open comes before older ones, up to 16 consecutive hits of a bank on the ordinary path and
4 on the Skink path; a Skink request that has waited 2 µs comes first (R293). -/
def pathPick (s : State) (c : StackCtl) (pc : Nat) (skink : Bool) (l : List (Nat × StackReq)) : Option (Nat × StackReq) :=
  let hit (p : Nat × StackReq) : Bool := tget (2 ^ 14) c.openRows (reqBank p.2) == rowOf (lineOffset p.2.line)
    && decide (tget 0 (pcSched c pc).hits (2 * reqBank p.2 + b2n skink) < (if skink then 4 else 16))
  (if skink then l.find? fun p => agedReq s p.2 else none) <|> l.find? hit <|> l.head?

/-- The command slot belongs to the Skink path: HBM_SKINK_SHARE of every 16, spread evenly (R293). -/
def skinkSlot (s : State) (slot : Nat) : Bool :=
  let n := setting s idHbmSkinkShare
  decide (slot * n / 16 < (slot + 1) * n / 16)

/-- The request that a pseudo-channel's scheduler performs next in a direction. -/
def dirPick (s : State) (c : StackCtl) (pc : Nat) (write : Bool) : Option Nat :=
  let sk := pathPick s c pc true (readyReqs s c pc write true)
  let or_ := pathPick s c pc false (readyReqs s c pc write false)
  match sk, or_ with
  | some a, some b => some (if agedReq s a.2 || skinkSlot s (pcSched c pc).slot then a.1 else b.1)
  | some a, none => some a.1
  | none, some b => some b.1
  | none, none => none

/-- The request that a pseudo-channel's scheduler performs next, by its place in the controller (R293, R295). -/
def nextReq (s : State) (c : StackCtl) (pc : Nat) : Option Nat :=
  let w := busWrites s c pc
  dirPick s c pc w <|> dirPick s c pc !w

/-! ### Check bits and retirement (R296, R299 to R302) -/

/-- The retirement page of an address (R302). -/
def pageOf (a : Nat) : Nat := a - a % 65536

/-- Marks a page for retirement (R302). -/
def markPage (s : State) (d a : Nat) : State :=
  let c := stackCtl s d
  if c.marked.contains (pageOf a) || c.retired.contains (pageOf a) then s
  else setStackCtl s d { c with marked := c.marked ++ [pageOf a] }

/-- A corrected sector (R299, R302, R528). -/
def noteCorrected (s : State) (d a : Nat) : State :=
  let s1 := noteCe (hbmError (bump s (dieReg d hbmCeCnt)) d 0 a) .stack d 1 0 a
  let c := stackCtl s1 d
  let n := tget 0 c.pageCe (pageOf a) + 1
  let s2 := setStackCtl s1 d { c with pageCe := tput c.pageCe (pageOf a) n }
  if setting s idHbmCeRetire ≤ n then markPage s2 d a else s2

/-- An uncorrectable sector (R300, R302, R529): poisoned at the stack; counted and reported when it is found, not again. -/
def noteUncorrectable (s : State) (d a : Nat) : State :=
  if s.stackPoison.contains (a / 32) then s
  else
    let s1 := hbmError (bump s (dieReg d hbmUeCnt)) d 3 a
    let s2 := { s1 with stackPoison := s1.stackPoison ++ [a / 32] }
    markPage (logErr s2 0 { code := 0x1002, cls := 1, source := 3, die := d, unit := d, arg := a }) d a

def noteSectorRead (s : State) (d a : Nat) : EccOutcome → State
  | .clean => s
  | .corrected => noteCorrected s d a
  | .uncorrectable => noteUncorrectable s d a

/-- STACK_REQUEST_SERVE (R293 to R300, R305): a pseudo-channel's scheduler performs its next request, by its place in the controller; all wait
while the fill runs. The check of one sector that is read, by a read or for a partial write, may fail; where it is uncorrectable, the bytes of
a write are stored and the sector stays poisoned (R296). -/
def execStackRequestServe (d : DieNo) (k : Nat) (e : SectorRead) (s : State) : Host.Outcome State Fault Refusal := whenLive s <|
  let c := stackCtl s d.val
  match c.q[k]? with
  | none => .next s
  | some r =>
    let pc := reqPc r
    if c.fill || c.selfRefresh || nextReq s c pc ≠ some k then .next s
    else
      let s1 := setStackCtl s d.val { c with q := c.q.eraseIdx k }
      let s2 := if bit r.mask e.sector.val && !bit (reqWhole r) e.sector.val then
          noteSectorRead s1 d.val (lineAddr r.line + 32 * e.sector.val) e.outcome else s1
      let s3 := performReq s2 d.val r
      let c3 := stackCtl s3 d.val
      .next (setStackCtl s3 d.val { c3 with sched := tput c3.sched pc { pcSched c3 pc with slot := ((pcSched c3 pc).slot + 1) % 16 } })

/-- REFRESH (R297): in a stack in service and not in self refresh, the next of the 48 banks of every pseudo-channel is refreshed, or all of
them; their rows close. -/
def execRefresh (d : DieNo) (s : State) : Host.Outcome State Fault Refusal := whenLive s <|
  let c := stackCtl s d.val
  if (tget {} s.stackIds d.val).cond = .inService && !c.selfRefresh then
    let c1 := { c with refreshes := c.refreshes + 1, refSince := some s.hubTime }
    if c.refMode = 1 then .next (setStackCtl s d.val { c1 with openRows := [], acts := [] })
    else
      let b := (c.refBank + 1) % 48
      .next (setStackCtl s d.val ((List.range 64).foldl (fun x pc => refreshBank x (64 * pc + (b / 3 * 4 + b % 3))) { c1 with refBank := b }))
  else .next s

/-- HBM_TEMPERATURE_READOUT (R297, R298). -/
def execHbmTemperatureReadout (d : DieNo) (temp : BitVec 8) (s : State) : Host.Outcome State Fault Refusal := whenLive s <|
  .next (setReg (setStackCtl s d.val { stackCtl s d.val with temp := temp.toNat }) (dieReg d.val hbmTemp) (temp.setWidth 32))

/-- ECS_READOUT (R298): results are counted as corrected errors. The spec names no address for them: the one that HBM_ERR_ADDR and the
threshold record hold is a free value. -/
def execEcsReadout (d : DieNo) (n : Nat) (s : State) : Host.Outcome State Fault Refusal := whenLive s <|
  if n = 0 then .next s
  else
    let (s1, x) := takeFree s
    let a := d.val * 2 ^ 36 + x % 2 ^ 36
    .next (noteCe (hbmError (bumpBy s1 (dieReg d.val hbmCeCnt) 32 n) d.val 0 a) .stack d.val n 0 a)

/-- PATROL_SCRUB_READ (R300, R301): the next sector of the pass, in a slot that no request of its pseudo-channel wants; a pass ends with the
stack's last sector. The rewrite of a corrected sector leaves its data as it is. -/
def execPatrolScrubRead (d : DieNo) (addr : Nat) (e : EccOutcome) (s : State) : Host.Outcome State Fault Refusal := whenLive s <|
  let c := stackCtl s d.val
  let o := c.scrubAt
  let a := d.val * 2 ^ 36 + o
  if setting s idHbmScrubHours = 0 then .next (setStackCtl s d.val { c with scrub := false })
  else if addr ≠ a || !populated s a || c.fill || c.selfRefresh || !(pcReqs c (pcOf o)).isEmpty then .next s
  else
    let last := o == 0xC00000000 - 32
    let s1 := setStackCtl s d.val { c with scrub := !last, scrubAt := if last then 0 else o + 32 }
    .next (noteSectorRead (useRow s1 d.val (lineOf a) false false 1) d.val a e)

/-- RETIREMENT_LIST_UPDATE (R302, R303): the oldest marked page goes on the list, and free pool rows that hold it leave their pool; a
full list sets HBM_ERR.RETIRE_FULL. -/
def execRetirementListUpdate (d : DieNo) (s : State) : Host.Outcome State Fault Refusal := whenLive s <|
  let c := stackCtl s d.val
  match c.marked with
  | [] => .next s
  | p :: rest =>
    let s1 := setStackCtl s d.val { c with marked := rest }
    if 1024 ≤ c.retired.length then
      .next (logErr (hbmError s1 d.val 4 p) 0 { code := 0x1004, cls := 6, source := 8, die := d.val, unit := d.val, arg := p })
    else
      let s2 := setStackCtl s1 d.val { c with marked := rest, retired := c.retired ++ [p] }
      let po := pool s2 d.val
      let s3 := setPool s2 d.val { po with free := po.free.filter fun r => !rowRetired s2 d.val r }
      .next (logErr s3 0 { code := 0x1003, cls := 6, source := 8, die := d.val, unit := d.val, arg := p })

/-- A stack's whole range reads zero with valid check bits, and no copy of it remains (R284, R304). -/
def clearStack (s : State) (d : Nat) : State := wipe s (d * 2 ^ 36) 0xC00000000

/-- STACK_ZERO_FILL_COMPLETE (R304, R305). -/
def execStackZeroFillComplete (d : DieNo) (s : State) : Host.Outcome State Fault Refusal := whenLive s <|
  if (stackCtl s d.val).fill then
    let s1 := clearStack s d.val
    .next (setStackCtl s1 d.val { stackCtl s1 d.val with fill := false })
  else .next s

/-- STACK_TRAINING_COMPLETE (R26, R298, R303, R304, R306, R477): in start phase 5 a trained stack begins its fill with HBM_REF_MODE in force; the
lanes it repaired and the rows of listed pages that soft repair fixed are counted, and it names the activation threshold of its refresh
management. One that failed is unpopulated, and its C-die failed at start. -/
def execStackTrainingComplete (d : DieNo) (ok : Bool) (mfr : BitVec 8) (height density : BitVec 4) (r : StackRepair) (s : State) :
    Host.Outcome State Fault Refusal := whenLive s <|
  if s.start.phase = .stackIds && dieCond s d.val = .inService && (tget {} s.stackIds d.val).cond = .notTrained then
    let id : StackId := { cond := (if ok then .inService else .failed), mfr := mfr, height := height, density := density,
                          repairs := r.lanes + min r.rows (64 * (stackCtl s d.val).retired.length) }
    let s1 := { s with stackIds := tput s.stackIds d.val id }
    if ok then
      .next (setStackCtl s1 d.val { stackCtl s1 d.val with fill := true, refMode := setting s idHbmRefMode, threshold := r.threshold })
    else
      let b := BitVec.ofNat 8 (2 ^ d.val)
      .next { s1 with dies := tput s1.dies d.val .failedAtStart
                      start := { s1.start with stacksFailed := s1.start.stacksFailed ||| b, diesFailed := s1.start.diesFailed ||| b } }
  else .next s

end Sys2Proof.Machine
end

