-- ==== Sys2Proof/Machine/Commit.lean ====
section
/-! DEFINITION. The Session Engine commands COMMIT and ROLLBACK (R127, R141, R143, R412). -/

namespace Sys2Proof.Machine

/-- Ends a session in the ending state once its reservation has closed (R141). -/
def endIfEnding (s : State) (n : Nat) : State := if (session s n).state = .ending then endSession s n stWrongState 0 else s

/-- COMMIT (R127). -/
def execCommit (q : QueueNo) (i : Nat) (s : State) : Host.Outcome State Fault Refusal := whenLive s <|
  match startedCmd s q.val i 0x32 with
  | none => .next s
  | some c =>
    let n := field c.bytes 8 4
    let k := field c.bytes 12 2
    let x := session s n
    let fin (r : CmdRes) : Host.Outcome State Fault Refusal := .next (endCmd s q.val i r)
    if !ownSession s (queue s q.val).owner n then fin { status := stNotFound }
    else if behindFill x then .next s
    else match servingRefusal s with
      | some r => fin r
      | none =>
        if s.twin.fenced && isMirrored x then fin { status := stWrongState, detail := 5 }
        else if x.resv ≠ .opened || x.state = .shadow then fin { status := stWrongState, detail := sessCode x.state }
        else if x.t - x.c < k then fin { status := stBadRequest, detail := 12 }
        else .next (endCmd (endIfEnding (closeResv s n (x.c + k)) n) q.val i { status := stOk, result := x.c + k })

/-- ROLLBACK (R127, R143): an open reservation is discarded; a pending one is dropped, reported by DETAIL 1. -/
def execRollback (q : QueueNo) (i : Nat) (s : State) : Host.Outcome State Fault Refusal := whenLive s <|
  match startedCmd s q.val i 0x33 with
  | none => .next s
  | some c =>
    let n := field c.bytes 8 4
    let x := session s n
    let fin (r : CmdRes) : Host.Outcome State Fault Refusal := .next (endCmd s q.val i r)
    if !ownSession s (queue s q.val).owner n then fin { status := stNotFound }
    else if behindFill x then .next s
    else match servingRefusal s with
      | some r => fin r
      | none =>
        if x.state = .shadow then fin { status := stWrongState, detail := sessCode x.state }
        else match x.resv with
          | .none => fin { status := stWrongState, detail := sessCode x.state }
          | .opened => .next (endCmd (endIfEnding (closeResv s n x.c) n) q.val i { status := stOk })
          | .pending _ | .filling _ => .next (endCmd (dropPending s n) q.val i { status := stOk, detail := 1 })

end Sys2Proof.Machine
end

