-- ==== Sys2Proof/Machine/Turns.lean ====
section
/-!
DEFINITION. Creating and ending sessions, turns and their admission (R75, R76, R92, R100 to R104, R111, R116, R141, R172, R173, R404,
R416).
-/

namespace Sys2Proof.Machine

/-! ### Placement (R111, R116) -/

/-- A network that a session can be created against (R116). -/
def networkFits (s : State) (n : Network) : Bool :=
  if n.kind ≠ 0 && n.kvBytesToken = 0 then true
  else 1 ≤ n.kvHeads && n.kvHeads ≤ 64 && n.kvHeads ≤ n.qHeads && [64, 128, 256].contains n.headDim && n.kvFormat ≤ 2
    && n.kvBytesToken == n.layers * kvB n && n.layers ≤ setting s idKvRowPages

/-- Free pages outside the decode reserve, in rows; negative where the reserve is not full. -/
def spareRows (s : State) (st : Nat) : Int := (pool s st).free.length - (reserveRows s st : Int)

/-- The stack of a list with the most free rows outside the decode reserve; ties go to the lowest number. -/
def mostSpare (s : State) (l : List Nat) : Option Nat := l.foldl (fun b st => match b with
  | none => some st
  | some t => if spareRows s t < spareRows s st then some st else some t) none

/-- The home stack of a new session, or the status that refuses it (R76, R100, R103, R111). -/
def placeHome (s : State) (inst named : Nat) : Except (Nat × Nat) Nat :=
  let up (st : Nat) : Bool := stackOpen s st && dieInService s st && !dieDraining s st
  if named ≠ 0xFF then
    if !stackOpen s named then .error (stWrongState, bundlePhase s)
    else if !dieInService s named || dieDraining s named then .error (stWrongState, dieCode (dieCond s named))
    else if !rowRoom s inst named 1 then .error (stQuota, 0)
    else .ok named
  else
    let c1 := (List.range 8).filter up
    let c2 := c1.filter fun st => rowRoom s inst st 1
    let c3 := c2.filter fun st => !decodeCapped s st
    if c1.isEmpty then .error (stWrongState, bundlePhase s)
    else if c2.isEmpty then .error (stQuota, 0)
    else match mostSpare s c3 with
      | some st => .ok st
      | none => .error (stOverloaded, min (retryHint s) 0xFFFF)

/-- The lowest free session number that the package may give (R404). -/
def freeNumber (s : State) : Option Nat :=
  let base := if identWritten s && ownSide s = 1 then 8192 else 0
  ((List.range (sessionPlaces s)).map (· + base)).find? fun n => (session s n).state == .free

/-- SRV_CREATE_OVERLOADED counts the SESSION_CREATE answered OVERLOADED (R114). -/
def createOverloaded (s : State) (r : Req) (hint : Nat) : State :=
  let c := s.serving.cnt
  refuse (setServing s { s.serving with cnt := { c with createOverloaded := c.createOverloaded + 1 } }) r stOverloaded hint

def refuseCreate (s : State) (r : Req) (e : Nat × Nat) : State :=
  if e.1 = stOverloaded then createOverloaded s r e.2 else refuse s r e.1 e.2

/-- SESSION_CREATE once its bundle is known (R76, R116). -/
def createSession (s : State) (r : Req) (b : Bundle) : State :=
  let p := r.payload
  let net := b.nets.getD (field p 0 1) {}
  match placeHome s r.inst (field p 2 1) with
  | .error (st, d) => if st = stWrongState then refuse s r st d
      else if sessionQuota s r.inst ≤ (ownSessions s r.inst).length || (freeNumber s).isNone then refuse s r stQuota 0
      else if !networkFits s net && st ≠ stQuota then refuse s r stIncompatible 0
      else refuseCreate s r (st, d)
  | .ok home => match freeNumber s with
    | none => refuse s r stQuota 0
    | some n =>
      if sessionQuota s r.inst ≤ (ownSessions s r.inst).length then refuse s r stQuota 0
      else if !networkFits s net then refuse s r stIncompatible 0
      else if net.kvHeads ≠ 0 && spareRows s home < 1 then refuse s r stPoolEmpty home
      else if setting s idAdmqDepth ≤ s.serving.admq.length then createOverloaded s r (min (retryHint s) 0xFFFF)
      else
        let x : Session :=
          { gen := (session s n).gen, seed := s.free, state := .active, owner := r.inst, network := field p 0 1, net := net,
            bundle := b.handle, bundleDigest := b.digest, sflags := field p 1 1, home := home, maxTokens := field p 4 4,
            userTag := field p 8 8 }
        okWith (setSession { s with free := s.free + 1 } n x) r (leBytes 4 n ++ leBytes 1 home ++ zeros 3)

/-- SESSION_CREATE (R76): a package that detaches takes no new session (R416). -/
def execSessionCreate (who : Issuer) (s : State) : Host.Outcome State Fault Refusal := whenLive s <|
  serve who 0x0301 none s (awake fun r s =>
    if s.serving.mode ≠ 1 then refuse s r stWrongState s.serving.mode
    else if s.twin.state = 7 then refuse s r stWrongState 7
    else match admitBundle s with
      | none => refuse s r stWrongState (bundlePhase s)
      | some b => createSession s r b)

/-- SESSION_END (R141). With MODE 0, a RESERVE of an active session whose zero-fill runs counts as an open reservation, and the session
ends with it (DESIGN CHOICE, log entry 50). -/
def execSessionEnd (who : Issuer) (s : State) : Host.Outcome State Fault Refusal := whenLive s <|
  serve who 0x0302 none s (awake fun r s =>
    let n := field r.payload 0 4
    match ownedSession s r.inst n with
    | .error e => refuse s r e.1 e.2
    | .ok x =>
      if x.state = .shadow || x.state = .frozen then refuse s r stWrongState (sessCode x.state)
      else
        let open_ := match x.resv with
          | .opened => true
          | .filling _ => x.state != .waitPage
          | _ => false
        if field r.payload 4 1 = 0 && open_ then okWith (setSession s n { x with state := .ending }) r []
        else okWith (endSession s n stWrongState 0) r [])

/-! ### Turns (R101, R102, R172, R173) -/

/-- Turns arrive at the tail of the admission queue (R102, R106, R437). -/
def enterQueue (s : State) (n : Nat) : State :=
  let x := session s n
  let v := s.serving
  let s1 := setSession s n { x with turn := x.turn.map fun t => { t with order := v.arrivals } }
  let s2 := setServing s1 { v with admq := v.admq ++ [n], arrivals := v.arrivals + 1 }
  peak s2 srvAdmqPeak s2.serving.admq.length

/-- An accepted turn waits in the admission queue, or with a freezing tenant's held turns (R102, R434). -/
def admitTurn (s : State) (owner n : Nat) : State :=
  let c := s.serving.cnt
  let s1 := setServing s { s.serving with cnt := { c with turnsAdmitted := c.turnsAdmitted + 1 } }
  if (tenant s owner).state = .freezing then
    setTenant s1 owner { tenant s owner with heldTurns := (tenant s owner).heldTurns ++ [n] }
  else enterQueue s1 n

/-- The range of a TURN's own fields, by offset (R172). -/
def turnRange (c : Cmd) : Option CmdRes :=
  if field c.bytes 12 4 = 0 then some { status := stBadRequest, detail := 12 }
  else if field c.bytes 32 4 = 0 || 2 ^ 24 < field c.bytes 32 4 then some { status := stBadRequest, detail := 32 }
  else none

/-- The turn that a TURN command opens. -/
def newTurn (q i asid : Nat) (c : Cmd) (prompt : List Nat) : Turn :=
  { queue := q, index := i, prompt := prompt, outVA := field c.bytes 24 8, outMax := field c.bytes 32 4,
    progressVA := field c.bytes 40 8, asid := asid }

/-- A TURN's output buffer or PROGRESS_VA that cannot be written (R320). -/
def turnOutFault (s : State) (x : Queue) (c : Cmd) : Option CmdRes :=
  match reachRes 24 (cmdReach s x c 24 true (field c.bytes 24 8) (4 * field c.bytes 32 4)) with
  | some r => some r
  | none => if field c.bytes 40 8 = 0 then none else reachRes 40 (cmdReach s x c 40 true (field c.bytes 40 8) 4)

/-- The prompt is read and checked, and the turn is admitted or completes at once (R101, R102). Identifiers are checked against VOCAB for
decoders only: other networks have VOCAB 0, and R101's words would refuse every prompt of theirs (DESIGN CHOICE, log entry 49). -/
def acceptTurn (s : State) (q i : Nat) (c : Cmd) : State :=
  let x := queue s q
  let n := field c.bytes 8 4
  let k := field c.bytes 12 4
  let va := field c.bytes 16 8
  match readBuf s x c 16 va (4 * k) with
  | (s, .error r) => endCmd s q i r
  | (s, .ok bs) => match turnOutFault s x c with
    | some r => endCmd s q i r
    | none =>
      let prompt := (List.range k).map fun j => field bs (4 * j) 4
      let net := (session s n).net
      if net.kind = 0 && prompt.any (fun t => net.vocab ≤ t) then endCmd s q i { status := stBadRequest, detail := 16 }
      else if setting s idAdmqDepth ≤ s.serving.admq.length then
        let cn := s.serving.cnt
        endCmd (setServing s { s.serving with cnt := { cn with turnsOverloaded := cn.turnsOverloaded + 1 } }) q i
          { status := stOverloaded, detail := min (retryHint s) 0xFFFF }
      else admitTurn (setStage (setSession s n { session s n with turn := some (newTurn q i x.asid c prompt) }) q i .running) x.owner n

/-- TURN (R101, R172, R173). -/
def execTurn (q : QueueNo) (i : Nat) (s : State) : Host.Outcome State Fault Refusal := whenLive s <|
  match startedCmd s q.val i 0x30 with
  | none => .next s
  | some c =>
    let n := field c.bytes 8 4
    let x := session s n
    let fin (r : CmdRes) : Host.Outcome State Fault Refusal := .next (endCmd s q.val i r)
    match turnRange c with
    | some r => fin r
    | none =>
      if s.serving.mode ≠ 1 then fin { status := stWrongState, detail := s.serving.mode }
      else if !ownSession s (queue s q.val).owner n then fin { status := stNotFound }
      else if x.state = .shadow then fin { status := stWrongState, detail := sessCode .shadow }
      else if x.turn.isSome then fin { status := stBusy }
      else if x.maxTokens ≤ x.c + field c.bytes 12 4 then fin { status := stBadRequest, detail := 12 }
      else .next (acceptTurn s q.val i c)

end Sys2Proof.Machine
end

