-- ==== Sys2Proof/Machine/Steps.lean ====
section
/-!
DEFINITION. The step loop: committing the step in flight and forming the next one (R80, R98, R101, R105 to R109, R112, R114, R416, R434,
R530).
-/

namespace Sys2Proof.Machine

/-! ### Committing (R107 to R109, R127, R173) -/

/-- `n` free bytes: what a network computes is not the spec's (log entry 1). -/
def freeBytes (s : State) (n : Nat) : State × List Byte :=
  let k := (n + 7) / 8
  ({ s with free := s.free + k }, ((List.range k).flatMap fun i => leBytes 8 (Config.freeWord (s.free + i)).toNat).take n)

/-- The key-value bytes of one position are appended, layer by layer (R117, R130). -/
def appendPos (s : State) (n p : Nat) : State :=
  let x := session s n
  let w := x.net.headDim * kvElem x.net
  (List.range x.net.layers).foldl (fun s l =>
    (posAddrs s x l p).foldl (fun s a => match a with
      | some a =>
        let (s1, bs) := freeBytes s w
        homeWrite s1 a bs
      | none => s) s) s

/-- Counts in the SRV block. -/
def srvCount (s : State) (f : SrvCnt → SrvCnt) : State := setServing s { s.serving with cnt := f s.serving.cnt }

/-- The token that a session's network selects after some tokens (R107): of a decoder, an identifier below VOCAB. -/
def selectToken (x : Session) (toks : List Nat) : Nat :=
  Config.selectToken x.seed toks % (if x.net.kind = 0 then max x.net.vocab 1 else 2 ^ 32)

/-- The accepted drafts and the tokens selected at each committed position (R107). -/
def verifyDrafts (x : Session) : List Nat → List Nat → List Nat × List Nat
  | ctx, [] => ([], [selectToken x ctx])
  | ctx, d :: ds =>
    let t := selectToken x ctx
    if d = t then
      let r := verifyDrafts x (ctx ++ [d]) ds
      (d :: r.1, t :: r.2)
    else ([], [t])

/-- The reason that ends a turn at a reply token, if any: stop token, OUT_MAX, MAX_TOKENS (R101, R173). -/
def stopReason (x : Session) (t : Turn) (tok written c : Nat) : Option Nat :=
  if tok = Config.stopToken x.bundleDigest x.network then some 0
  else if t.outMax ≤ written then some 1
  else if x.maxTokens ≤ c then some 2
  else none

/-- The reply tokens of a step up to the one that ends the turn, and the reason: `c` is the committed length at the first. -/
def replies (x : Session) (t : Turn) : List Nat → Nat → Nat → List Nat × Option Nat
  | [], _, _ => ([], none)
  | tok :: rest, written, c =>
    match stopReason x t tok (written + 1) c with
    | some r => ([tok], some r)
    | none =>
      let q := replies x t rest (written + 1) (c + 1)
      (tok :: q.1, q.2)

/-- The leaves that a turn's command holds (R328). -/
def turnLeaves (s : State) (t : Turn) : List TlbEntry := match findCmd (queue s t.queue) t.index with
  | some c => c.leaves
  | none => []

/-- Writes reply tokens, then the count as a release (R173). -/
def writeReplies (s : State) (t : Turn) (toks : List Nat) : State :=
  let put (s : State) (va : Nat) (bs : List Byte) : State := match vaWrite s (turnLeaves s t) t.asid va bs with
    | some s1 => s1
    | none => s
  let s1 := if toks.isEmpty then s else put s (t.outVA + 4 * t.written) (toks.flatMap (leBytes 4))
  if t.progressVA = 0 || toks.isEmpty then s1 else put s1 t.progressVA (leBytes 4 (t.written + toks.length))

/-- The turn's fields once a step's replies are written; a turn that ends completes its command (R101, R173). -/
def turnAfter (s : State) (n : Nat) (t : Turn) (toks : List Nat) (stop : Option Nat) : State :=
  let x := session s n
  let w := t.written + toks.length
  match stop with
  | some r =>
    let s1 := setSession s n { x with turn := none }
    let v := s1.serving
    endCmd (setServing s1 { v with admq := v.admq.filter (· != n), prefill := v.prefill.filter (· != n) }) t.queue t.index
      { status := stOk, detail := r, result := w }
  | none => setSession s n { x with turn := some { t with written := w, nextTok := toks.getLast? } }

/-- Commits `k` positions of a session with its new tokens, writes the replies, and closes the reservation (R107, R127, R141). -/
def commitStep (s : State) (n : Nat) (t : Turn) (toks out : List Nat) (stop : Option Nat) : State :=
  let x := session s n
  let s0 := (List.range (x.t - x.c)).foldl (fun s k => appendPos s n (x.c + k)) s
  let s1 := setSession s0 n { session s0 n with tokens := x.tokens ++ toks }
  let s2 := srvCount (writeReplies s1 t out) fun c => { c with decodeTokens := c.decodeTokens + out.length }
  let s3 := turnAfter s2 n t out stop
  endIfEnding (closeResv s3 n (x.c + toks.length)) n

/-- A chunk of a turn's prompt commits; the last one also gives the first reply token (R108). -/
def commitChunk (s : State) (n : Nat) (t : Turn) (chunk : List Nat) : State :=
  let x := session s n
  let pos := t.pos + chunk.length
  let t1 := { t with pos := pos }
  let s1 := srvCount s fun c => { c with prefillTokens := c.prefillTokens + chunk.length }
  if pos < t.prompt.length then
    let s2 := (List.range (x.t - x.c)).foldl (fun s k => appendPos s n (x.c + k)) s1
    let s3 := setSession s2 n { session s2 n with tokens := x.tokens ++ chunk, turn := some t1 }
    endIfEnding (closeResv s3 n (x.c + chunk.length)) n
  else
    let tok := selectToken x (x.tokens ++ chunk)
    let r := replies x t1 [tok] t.written (x.c + chunk.length)
    let s2 := setServing s1 { s1.serving with prefill := s1.serving.prefill.filter (· != n) }
    commitStep s2 n t1 chunk r.1 r.2

/-- A decode entry commits its input token and the accepted drafts, as far as the turn goes (R107). -/
def commitDecode (s : State) (n : Nat) (t : Turn) (toks : List Nat) : State := match toks with
  | [] => s
  | input :: drafts =>
    let x := session s n
    let v := verifyDrafts x (x.tokens ++ [input]) drafts
    let r := replies x t v.2 t.written (x.c + 1)
    let kept := input :: v.1.take (r.1.length - 1)
    let s1 := srvCount s fun c => { c with draftAccepted := c.draftAccepted + (kept.length - 1) }
    commitStep s1 n t kept r.1 r.2

/-- The poisoned sector of a session's own rows that an entry reads, if any (R530). -/
def entryPoison (s : State) (x : Session) : Option Nat :=
  (List.range x.t).findSome? fun p => (List.range x.net.layers).findSome? fun l =>
    (posAddrs s x l p).findSome? fun a => a.bind fun a => poisonIn s a (x.net.headDim * kvElem x.net)

/-- Stacks of the replica group that a die reads: M0 to M3 alone while they hold the transient copy of a factor-1 bundle (R96, R99). -/
def replicaGroup (s : State) (b : Bundle) (d : Nat) : List Nat :=
  if d < 4 && transient s b then [0, 1, 2, 3] else (List.range 8).filter fun st => st / (8 / b.repl) = d / (8 / b.repl)

/-- A poisoned sector of the replica that a die reads, if any. -/
def weightPoison (s : State) (d : Nat) : Option Nat := (bundleAt s d).bind fun b =>
  ((poisonedSectors s).find? fun k =>
    let a := k * 32
    (replicaGroup s b d).contains (a / 2 ^ 36) && decide (0x20000000 ≤ a % 2 ^ 36) && decide (a % 2 ^ 36 < replicaTop s (a / 2 ^ 36))
      && !(tget [] s.serving.holes (a / 2 ^ 36)).contains (a % 2 ^ 36 / 65536 * 65536)).map (· * 32)

/-- The page of a replica sector is rewritten from another group when the factor is 2 or more (R530). -/
def rewritePage (s : State) (d a : Nat) : State := match bundleAt s d with
  | some b =>
    if b.repl = 1 then s
    else healRange s (a - a % 65536) 65536
  | none => s

/-- What an entry consumes in poison: its own rows, or weights where its network reads that sector, which is a free choice (log entry 1). -/
def consumed (s : State) (x : Session) : State × Option Nat × Bool :=
  match entryPoison s x with
  | some a => (s, some a, false)
  | none => match weightPoison s x.home with
    | none => (s, none, false)
    | some a =>
      let (s1, v) := takeFree s
      (s1, if v % 2 = 1 then some a else none, true)

/-- Ends a session whose entry consumed poisoned data (R530). -/
def poisonSession (s : State) (n a : Nat) (weights : Bool) : State :=
  let x := session s n
  let k := (errLog s x.owner).next
  let s1 := loseSession (poisonConsumed s x.owner a) n stDeviceError (k % 65536)
  if weights then rewritePage s1 x.home a else s1

/-- One entry of the step in flight commits, unless its session ended or was rolled back meanwhile. -/
def commitEntry (s : State) (e : StepEntry) : State :=
  let n := e.session
  let x := session s n
  if x.resv ≠ .opened || x.gen ≠ e.gen || (s.twin.fenced && isMirrored x) then s
  else match x.turn with
    | none => endIfEnding (closeResv s n x.c) n
    | some t => match consumed s x with
      | (s1, some a, w) => poisonSession s1 n a w
      | (s1, none, _) => if e.decode then commitDecode s1 n t e.tokens else commitChunk s1 n t e.tokens

/-- Ends the step in flight (R105, R110, R114). SRV_STEP_US_LAST is rounded down to whole microseconds: the spec states no rounding
(DESIGN CHOICE, log entry 49); SRV_STEPS_LATE compares the exact time. -/
def endStep (s : State) : State := match s.serving.step with
  | none => s
  | some st =>
    let s1 := st.entries.foldl commitEntry s
    let ticks := s.hubTime - st.start
    let s2 := srvCount s1 fun c => { c with steps := c.steps + 1, stepsLate := c.stepsLate + b2n (setting s idStepTarget * 25 < ticks) }
    setServing s2 { s2.serving with step := none, stepUsLast := ticks / 25 }

/-! ### Forming (R105 to R109, R112) -/

/-- `l` occurs in `h` from offset `i`. -/
def occursAt (h l : List Nat) (i : Nat) : Bool := (h.drop i).take l.length == l

/-- The drafts after the most recent earlier occurrence of the longest suffix of 1 to 4 tokens that recurs (R107). -/
def propose (h : List Nat) (m : Nat) : List Nat :=
  let try_ (k : Nat) : Option (List Nat) :=
    if h.length ≤ k then none
    else
      let suf := h.drop (h.length - k)
      ((List.range (h.length - k)).reverse.find? (occursAt h suf)).map fun i => (h.drop (i + k)).take m
  match [4, 3, 2, 1].findSome? try_ with
  | some l => l
  | none => []

/-- Rows are popped for a reservation of the step, zero-filled where another instance held them last, and the reservation opens (R124). -/
def stepReserve (s : State) (n st f d : Nat) : State :=
  let x := session s n
  let r := popRows s st (entriesNeeded x f d).length
  openResv (fillRows r.1 st x.owner r.2) n st f d r.2

/-- The session parks on a pool's wait list (R109, R123). -/
def parkSession (s : State) (n st f d : Nat) : State :=
  let x := session s n
  let s1 := setSession s n { x with state := .waitPage, resv := .pending { cls := 0, stack := st, f := f, d := d, queue := 0, index := 0 } }
  let s2 := bump (setPool s1 st { pool s1 st with wait := (pool s1 st).wait ++ [n] }) (dieReg st sesWaitPageCnt)
  eventTo (srvCount s2 fun c => { c with waitPage := c.waitPage + 1 }) x.owner x.owner 0x0003 n st 0 0

/-- The tenant's sessions take entries: it is not frozen nor on its way there or back (R106, R434, R436). -/
def tenantSteps (s : State) (owner : Nat) : Bool :=
  owner = 0 || (tenant s owner).state == .running || (tenant s owner).state == .unconfigured

/-- A session may take an entry on its die: its half holds its bundle, and it is not fenced off (R97, R105, R412). -/
def mayStep (s : State) (x : Session) : Bool :=
  tenantSteps s x.owner && !(s.twin.fenced && isMirrored x) && (match bundleAt s x.home with
    | some b => b.digest == x.bundleDigest
    | none => false)

/-- A decode entry's tokens: the input and the drafts that run-ahead proposes (R106, R107). -/
def decodeTokens (x : Session) (input ra : Nat) : List Nat :=
  let room := x.maxTokens - x.c - 1
  let drafts := if bit x.sflags 1 then propose (x.tokens ++ [input]) (min ra room) else []
  input :: (if x.resv = .opened then drafts.take (x.t - x.f) else drafts)

/-- The decode entry of a session, if it takes one: a reservation served since it waited is used as it stands; a pop that is not served
parks the session (R106, R109). -/
def decodeEntry (s : State) (ra : Nat) (epoch : Word) (n : Nat) : State × Option StepEntry :=
  let x := session s n
  match x.turn.bind (·.nextTok) with
  | none => (s, none)
  | some input =>
    let toks := decodeTokens x input ra
    let note (s : State) : State × Option StepEntry :=
      let y := session s n
      (srvCount (setSession s n { y with lastEpoch := epoch }) fun c => { c with draftProposed := c.draftProposed + (toks.length - 1) },
       some { session := n, gen := y.gen, decode := true, tokens := toks })
    if !mayStep s x then (s, none)
    else if x.resv = .opened && (x.state = .active || x.state = .ending) then note s
    else if x.state ≠ .active || x.resv ≠ .none then (s, none)
    else
      let st := sourceStack x 0xFF
      let d := toks.length - 1
      let need := (entriesNeeded x 1 d).length
      if !rowRoom s x.owner st need then (s, none)
      else if popServed s st 0 need then note (stepReserve s n st 1 d)
      else (parkSession s n st 1 d, none)

/-- Puts a stack behind those that have at least as many free rows. -/
def byFree (s : State) (st : Nat) : List Nat → List Nat
  | [] => [st]
  | a :: l => if (pool s a).free.length < (pool s st).free.length then st :: a :: l else a :: byFree s st l

/-- The stacks that a chunk may draw on, in order (R112). -/
def chunkStacks (s : State) (home : Nat) : List Nat :=
  let rest := (halfOf (decide (home < 4))).filter fun st => st ≠ home && dieInService s st
  home :: (if setting s idPlaceSpill = 1 then rest.foldl (fun l st => byFree s st l) [] else [])

/-- The first stack of a list that serves a prefill pop; pools that do not are counted (R112, R122). -/
def chunkPop (s : State) (x : Session) (need : Nat) : List Nat → State × Option Nat
  | [] => (s, none)
  | st :: rest =>
    if !rowRoom s x.owner st need then chunkPop s x need rest
    else if popServed s st 1 need then (s, some st)
    else chunkPop (bump s (dieReg st sesPoolEmptyCnt)) x need rest

/-- Puts a session's turn among those in prefill, in the order in which the turns arrived (R106). -/
def intoPrefill (s : State) (n k : Nat) : List Nat → List Nat
  | [] => [n]
  | m :: l => if ((session s m).turn.map (·.order)).getD 0 ≤ k then m :: intoPrefill s n k l else n :: m :: l

/-- The chunk of a turn within the die's remaining budget (R108). -/
def chunkEntry (s : State) (epoch : Word) (rem n : Nat) : State × Option StepEntry :=
  let x := session s n
  match x.turn with
  | none => (s, none)
  | some t =>
    let want := min (settingAt s epoch idPrefillChunk) (t.prompt.length - t.pos)
    let k := if want ≤ rem then want else if settingAt s epoch idPrefillMin ≤ rem then rem else 0
    if k = 0 || !mayStep s x || x.state ≠ .active || x.resv ≠ .none then (s, none)
    else match chunkPop s x (entriesNeeded x k 0).length (chunkStacks s x.home) with
      | (s1, none) => (s1, none)
      | (s1, some st) =>
        let s2 := stepReserve s1 n st k 0
        let y := session s2 n
        let v := s2.serving
        let s3 := setSession s2 n { y with lastEpoch := epoch, turn := some { t with admitted := true } }
        let s4 := if t.admitted then s3
          else setServing s3 { v with admq := v.admq.filter (· != n), prefill := intoPrefill s3 n t.order v.prefill,
                                      left := v.left ++ [s.hubTime] }
        (s4, some { session := n, gen := y.gen, decode := false, tokens := (t.prompt.drop t.pos).take k })

/-- Decode entries of a die, in ascending session number. -/
def decodeEntries (s : State) (ra : Nat) (epoch : Word) : List Nat → State × List StepEntry
  | [] => (s, [])
  | n :: rest =>
    let r := decodeEntry s ra epoch n
    let q := decodeEntries r.1 ra epoch rest
    (q.1, r.2.toList ++ q.2)

/-- Chunks of a die, while its tokens are below STEP_TOKENS (R106). -/
def chunkEntries (s : State) (epoch : Word) (budget used : Nat) : List Nat → State × List StepEntry
  | [] => (s, [])
  | n :: rest =>
    if budget ≤ used then (s, [])
    else
      let r := chunkEntry s epoch (budget - used) n
      let k := match r.2 with
        | some e => e.tokens.length
        | none => 0
      let q := chunkEntries r.1 epoch budget (used + k) rest
      (q.1, r.2.toList ++ q.2)

/-- Tokens of some entries. -/
def entryTokens (es : List StepEntry) : Nat := (es.map (·.tokens.length)).sum

/-- The entries of one die, and its decode tokens (R106). -/
def formDie (s : State) (epoch : Word) (d : Nat) : State × List StepEntry × Nat :=
  if !dieInService s d || (loading s).contains (decide (d < 4)) then (s, [], 0)
  else
    let mine := fun n => (session s n).home == d
    let a := decodeEntries s (settingAt s epoch idRunaheadMax) epoch (((liveSessions s).map (·.1)).filter mine)
    let used := entryTokens a.2
    let v := a.1.serving
    let b := chunkEntries a.1 epoch (settingAt s epoch idStepTokens) used ((v.prefill ++ v.admq).filter mine)
    (b.1, a.2 ++ b.2, used)

/-- The entries of every die in turn. -/
def formDies (s : State) (epoch : Word) : List Nat → State × List StepEntry × Tab Nat
  | [] => (s, [], [])
  | d :: rest =>
    let a := formDie s epoch d
    let b := formDies a.1 epoch rest
    (b.1, a.2.1 ++ b.2.1, (d, a.2.2) :: b.2.2)

/-- Forms the next step, stamped with the issuing epoch; none where it would hold no entry (R105, R106). -/
def formStep (s : State) : State :=
  let e := s.settings.epoch.issuing
  let r := formDies s e (List.range 8)
  if r.2.1.isEmpty then r.1
  else setServing r.1 { r.1.serving with step := some { epoch := e, start := s.hubTime, entries := r.2.1 }, lastDecode := r.2.2 }

/-- Leaves older than 1 s no longer bear on the retry hint (R104). -/
def dropLeft (s : State) : State := setServing s { s.serving with left := s.serving.left.filter fun t => s.hubTime < t + 25000000 }

/-- What falls due between two steps: IMMEDIATE tunables, retirements, the swap, a detach, and the flip of the epoch (R80, R97, R98,
R110, R416, R438). -/
def atBoundary (s0 : State) : State :=
  let s := applyDue s0
  let s1 := s.serving.retire.foldl retireSession (setServing s { s.serving with retire := [] })
  let s2 := detachStep (swapBoundary s1)
  if allStaged s2.settings.epoch then flipEpoch s2 else s2

/-- STEP_BOUNDARY (R105, R106). -/
def execStepBoundary (s : State) : Host.Outcome State Fault Refusal := whenLive s <|
  if s.serving.mode ≠ 1 || s.start.phase ≠ .ready || !pcfUp s || s.power.deep || s.err.fatal then .next s
  else .next (formStep (atBoundary (dropLeft (endStep s))))

end Sys2Proof.Machine
end

