-- ==== Sys2Proof/Machine/Tenants.lean ====
section
/-!
DEFINITION. Tenants: quotas, assigned ranges and tags, freeze and thaw (R83, R84, R140, R184, R332, R423 to R439, R448).
-/

namespace Sys2Proof.Machine

/-- The tenant changes state, and TENANT_STATE is written to the VF and to the PF, both records with the VF's number (R68, R69). -/
def setTenState (s : State) (v : Nat) (st : TenState) : State :=
  if (tenant s v).state = st then s
  else eventPf (setTenant s v { tenant s v with state := st }) v 0x0007 v (tenCode st) 0 0

def setTenCfg (s : State) (v : Nat) (c : TenantCfg) : State := setTenant s v { tenant s v with cfg := c }
def setTenOp (s : State) (v : Nat) (o : Option TenantOp) : State := setTenant s v { tenant s v with op := o }

/-! ### Tags (R184, R309, R332, R428) -/

/-- The tags of a configuration. -/
def cfgTags (c : TenantCfg) : List Nat := (List.range c.asidCount).map (c.asidBase + ·)

/-- A tag cannot be released: a queue is open under it, a block under it is resident, or a merge slot names it (R332). -/
def tagInUse (s : State) (t : Nat) : Bool :=
  s.eng.queues.any (fun p => p.2.state != .closed && p.2.asid == t) || residentUnder s t || s.sess.slots.any fun p => p.2.asid == t

/-- Releases a tag: its root pointer and cached entries go, and every bank that records it has its record cleared (R184, R332). -/
def releaseTag (s : State) (t : Nat) : State :=
  let s1 := dropTag s t
  { s1 with cores := s1.cores.map fun p =>
      (p.1, { p.2 with banks := p.2.banks.map fun b => (b.1, if b.2.tag = some t then { b.2 with tag := none } else b.2) }) }

/-- A tag that may be assigned: not 0, held by no VF, and not in use by the PF (R428). -/
def tagFree (s : State) (v t : Nat) : Bool :=
  t ≠ 0 && t < 4096 && !tagInUse s t && !(s.tenants.any fun p => p.1 != v && (cfgTags p.2.cfg).contains t)

/-- The lowest block of free tags (R428). -/
def freeTags (s : State) (v n : Nat) : Option Nat := (List.range 4096).find? fun b => (List.range n).all fun k => tagFree s v (b + k)

/-! ### Ranges (R426, R427) -/

/-- Z and R of a stack for a memory quota in MiB (R426). -/
def rangeLen (s : State) (q : Nat) : Nat := q * (100 - setting s idTntRowShare) / 200 * 0x200000
def rowBudget (s : State) (q : Nat) : Nat := q * 0x100000 - rangeLen s q

def mib2 (a : Nat) : Nat := ceilDiv a 0x200000 * 0x200000

/-- Other tenants' ranges on a stack, as offsets. -/
def otherRanges (s : State) (v st : Nat) : List (Nat × Nat) :=
  (s.tenants.filter fun p => p.1 != v && tget 0 p.2.cfg.len st != 0).map fun p =>
    (tget 0 p.2.cfg.base st % 2 ^ 36, tget 0 p.2.cfg.base st % 2 ^ 36 + tget 0 p.2.cfg.len st)

/-- The lowest free place for a range of `z` bytes, as an offset: at the replica's top or at the end of another range. None where it
does not fit, or would take rows that are held, or in kernel mode any row of the pool (R427). A retired page is not assigned (R303). -/
def placeRange (s : State) (v st z : Nat) : Option Nat :=
  let retired := ((tget {} s.hbm st).retired.map fun p => p % 2 ^ 36).map fun o => (o, o + 65536)
  let occ := otherRanges s v st ++ retired
  let lo := mib2 (replicaTop s st)
  let cands := (lo :: occ.map fun r => mib2 r.2).filter fun c => lo ≤ c && !(occ.any fun r => r.1 < c + z && c < r.2)
  match cands.foldl (fun m c => match m with
    | none => some c
    | some k => some (min k c)) none with
  | none => none
  | some c =>
    let keep := rowsAbove s (c + z)
    let blocked := if s.serving.mode = 1 then (heldRows s st).any fun r => keep ≤ r else decide (keep < (pool s st).rows)
    if 0xC00000000 < c + z || ((pool s st).rows ≠ 0 && blocked) then none else some c

/-- The pool of a stack is formed again around the ranges (R427). -/
def reformPool (s : State) (st : Nat) : State :=
  if s.serving.mode = 1 && (bundleAt s st).isSome then serveAll (formPool s st) else s

/-- Moves and zero-fills the range of one stack: the first bytes go to the new place, the rest of it is filled (R428, R429). -/
def moveRange (s : State) (old new : TenantCfg) (st : Nat) : State :=
  let oz := tget 0 old.len st
  let nz := tget 0 new.len st
  let ob := tget 0 old.base st
  let nb := tget 0 new.base st
  if nz = 0 then s
  else
    let k := min oz nz
    let bs := homeRead s ob k
    let s1 := if ob = nb || k = 0 then s else homeWrite (zeroFill s nb k) nb bs
    if k < nz then zeroFill s1 (nb + k) (nz - k) else s1

/-! ### TENANT_CONFIG (R84, R425 to R429) -/

/-- What a TENANT_CONFIG asks for: the new configuration, its ranges and tags not yet placed. -/
def askedCfg (s : State) (p : List Byte) : TenantCfg :=
  let q (st : Nat) : Nat := field p (8 + 4 * st) 4
  let tab (f : Nat → Nat) : Tab Nat := ((List.range 8).filter fun st => f st ≠ 0).map fun st => (st, f st)
  { queues := field p 2 2, sessions := field p 4 4, memMib := tab q, len := tab fun st => rangeLen s (q st),
    rows := tab fun st => rowBudget s (q st), asidCount := field p 40 2 }

/-- The configuration that a tenant has, or is to have once its zero-fill has ended. -/
def wantedCfg (t : Tenant) : TenantCfg := (t.op.bind (·.cfg)).getD t.cfg

/-- Sum of a quota over the VFs but one. -/
def otherQuotas (s : State) (v : Nat) (f : TenantCfg → Nat) : Nat :=
  ((s.tenants.filter fun p => p.1 != v && p.1 != 0).map fun p => f (wantedCfg p.2)).sum

/-- The tenant's work keeps its ranges and tags in place (R428, R332). -/
def tenantBusy (s : State) (v : Nat) : Bool :=
  !(openQueues s v).isEmpty || s.sess.slots.any (fun p => p.2.owner == v) || (cfgTags (tenant s v).cfg).any (tagInUse s)

/-- The refusal of a configuration against what is in use and against the package's totals (R84, R425, R428). -/
def cfgRefusal (s : State) (v : Nat) (c : TenantCfg) : Option (Nat × Nat) :=
  let old := (tenant s v).cfg
  let moved := (List.range 8).any fun st => tget 0 c.len st ≠ tget 0 old.len st
  let rowB := setting s idKvRowPages * 65536
  if (moved || c.asidCount ≠ old.asidCount) && tenantBusy s v then some (stBusy, 0x0101)
  else if c.queues < (openQueues s v).length then some (stBusy, 0x0101)
  else if c.sessions < (ownSessions s v).length || (List.range 8).any (fun st => tget 0 c.rows st < rowsHeld s v st * rowB) then
    some (stBusy, 0x0301)
  else if 1024 < otherQuotas s v (·.queues) + c.queues + (openQueues s 0).length then some (stQuota, 0)
  else if sessionPlaces s < otherQuotas s v (·.sessions) + c.sessions + (ownSessions s 0).length then some (stQuota, 0)
  else none

/-- Places the ranges whose size changes; the others stay. -/
def placeRanges (s : State) (v : Nat) (c : TenantCfg) : Option TenantCfg :=
  let old := (tenant s v).cfg
  (List.range 8).foldl (fun r st => r.bind fun c =>
    let z := tget 0 c.len st
    if z = tget 0 old.len st then
      some (if z = 0 then c else { c with base := tput c.base st (tget 0 old.base st) })
    else if z = 0 then some c
    else (placeRange s v st z).map fun o => { c with base := tput c.base st (st * 2 ^ 36 + o) }) (some c)

/-- Assigns the tags: the same ones while ASIDS does not change. -/
def placeTags (s : State) (v : Nat) (c : TenantCfg) : Option TenantCfg :=
  let old := (tenant s v).cfg
  if c.asidCount = old.asidCount then some { c with asidBase := old.asidBase }
  else (freeTags s v c.asidCount).map fun b => { c with asidBase := b }

/-- The configuration as it would be placed, or the refusal. -/
def planCfg (s : State) (v : Nat) (p : List Byte) : Except (Nat × Nat) TenantCfg :=
  let c := askedCfg s p
  match cfgRefusal s v c with
  | some e => .error e
  | none => match (placeRanges s v c).bind (placeTags s v) with
    | none => .error (stQuota, 0)
    | some c1 => .ok c1

/-- Ranges and tags of a configuration take their places: bytes move and are filled, tags are released and root pointers dropped, and
pools are formed again (R313, R427 to R429). The quotas stay as they are. -/
def placeCfg (s : State) (v : Nat) (c : TenantCfg) : State :=
  let old := (tenant s v).cfg
  let changed := (List.range 8).filter fun st => tget 0 c.len st ≠ tget 0 old.len st
  let s1 := if c.asidCount ≠ old.asidCount then (cfgTags old ++ cfgTags c).foldl releaseTag s
    else if changed.isEmpty then s else (cfgTags old).foldl dropTag s
  let s2 := changed.foldl (fun s st => moveRange s old c st) s1
  let s3 := setTenCfg s2 v { old with base := c.base, len := c.len, asidBase := c.asidBase, asidCount := c.asidCount }
  changed.foldl reformPool s3

/-- A configuration is in force; an unconfigured tenant is then running (R423). -/
def applyCfg (s : State) (v : Nat) (c : TenantCfg) : State :=
  let s1 := serveAll (setTenCfg s v c)
  if (tenant s1 v).state = .unconfigured then setTenState s1 v .running else s1

/-- Some memory has to be zero-filled. -/
def fillsRange (old c : TenantCfg) : Bool := (List.range 8).any fun st => tget 0 old.len st < tget 0 c.len st

/-- TENANT_CONFIG (R84, R425 to R428). -/
def execTenantConfig (who : Issuer) (s : State) : Host.Outcome State Fault Refusal := whenLive s <|
  serve who 0x0501 none s (awake fun r s =>
    let v := field r.payload 0 1
    let t := tenant s v
    if !fnEnabled s v then refuse s r stWrongState 0
    else if t.state ≠ .unconfigured && t.state ≠ .running then refuse s r stWrongState (tenCode t.state)
    else if t.op.isSome || t.resetting.isSome then refuse s r stBusy 0x0501
    else match planCfg s v r.payload with
      | .error e => refuse s r e.1 e.2
      | .ok c =>
        let s1 := placeCfg s v c
        let rsp := leBytes 2 c.asidBase ++ leBytes 2 c.asidCount
        if fillsRange t.cfg c then acceptedWith (setTenOp s1 v (some { op := some r.op, cfg := some c })) r rsp
        else okWith (applyCfg s1 v c) r rsp)

/-- RANGE_ZERO_FILL_COMPLETE (R84, R429): the quotas take effect. -/
def execRangeZeroFillComplete (fn : FnNo) (s : State) : Host.Outcome State Fault Refusal := whenLive s <|
  let v := fn.val
  match (tenant s v).op with
  | none => .next s
  | some o => match o.op, o.cfg with
    | some op, some c => if pcfUp s then .next (opDone (applyCfg (setTenOp s v none) v c) op stOk 0) else .next s
    | _, _ => .next s

/-! ### Freeze (R140, R434, R435) -/

/-- A started command that a freeze returns to fetched: a WAIT, or a FENCE that an open TURN keeps from completing. -/
def unstarts (x : Queue) (c : Cmd) : Bool :=
  (c.stage == .started || c.stage == .running)
    && (cmdOpcode c == 0x02 || (cmdOpcode c == 0x01 && x.cmds.any fun d => d.index != c.index && d.stage == .running && cmdOpcode d == 0x30))

/-- Step 4 of R434 for one queue: QSB.STARTED is lowered to the index of the command. -/
def unstartQueue (s : State) (q : Nat) : State :=
  let x := queue s q
  match x.cmds.find? (unstarts x) with
  | none => s
  | some c =>
    let s1 := setQueue s q { x with started := c.index, cmds := x.cmds.map fun d => if unstarts x d then { d with stage := .fetched } else d }
    { s1 with memWaits := s1.memWaits.filter fun w => match w.who with
        | .cmd q' _ => q' != q
        | .thread _ _ _ _ => true }

/-- Steps 1, 2 and 4 of R434. -/
def startFreeze (s : State) (v : Nat) : State :=
  let mine := s.serving.admq.filter fun n => (session s n).owner == v
  let s1 := setServing s { s.serving with admq := s.serving.admq.filter fun n => !mine.contains n }
  let s2 := setTenant s1 v { tenant s1 v with heldTurns := (tenant s1 v).heldTurns ++ mine }
  (openQueues s2 v).foldl unstartQueue s2

/-- Commands of a tenant that have started and must complete: a suspended TURN is excepted (R434). -/
def tenantDrained (s : State) (v : Nat) : Bool :=
  (openQueues s v).all fun q => (queue s q).cmds.all fun c => c.stage == .fetched || (cmdOpcode c == 0x30 && c.stage == .running)

/-- The step in flight holds an entry of the tenant. -/
def tenantInStep (s : State) (v : Nat) : Bool := match s.serving.step with
  | none => false
  | some t => t.entries.any fun e => (session s e.session).owner == v

/-- Merge slots armed under a tenant's tags, or by it, are aborted (R432, R434). -/
def abortMerges (s : State) (v : Nat) : State :=
  { s with sess := { s.sess with slots := s.sess.slots.filter fun p => !(p.2.owner == v || (cfgTags (tenant s v).cfg).contains p.2.asid) } }

/-- A session is frozen (R140), with its mirror sends made (R434); one that was ending ends with its reservation. -/
def freezeSession (s : State) (n : Nat) : State :=
  let x := session s n
  if x.state = .shadow || x.state = .frozen || x.state = .free then s
  else
    let s1 := abandonResv s n
    if x.state = .ending then endSession s1 n stWrongState 0
    else
      let s2 := if isMirrored x && !x.mirrorLost && paired s1 then mirrorSend s1 n else s1
      setSession s2 n { session s2 n with state := .frozen }

/-- The tenant's sessions, shadows apart. -/
def tenantSessions (s : State) (v : Nat) : List Nat :=
  ((liveSessions s).filter fun p => p.2.owner == v && p.2.state != .shadow).map (·.1)

/-- Steps 5 to 7 of R434. -/
def endFreeze (s : State) (v : Nat) : State :=
  let s1 := (tenantSessions (abortMerges s v) v).foldl freezeSession (abortMerges s v)
  setTenState ((openQueues s1 v).foldl writeQsb s1) v .frozen

/-- The common refusal of the actions: the state that it needs, and one operation at a time (R84, R433). -/
def stateRefusal (s : State) (v : Nat) (needs : List TenState) : Option (Nat × Nat) :=
  let t := tenant s v
  if !needs.contains t.state then some (stWrongState, tenCode t.state)
  else if t.resetting.isSome then some (stBusy, 0x0502)
  else match t.op with
    | some o => some (stBusy, if o.cfg.isSome then 0x0501 else 0x0502)
    | none => none

/-- FREEZE (R433, R434). -/
def execFreeze (who : Issuer) (s : State) : Host.Outcome State Fault Refusal := whenLive s <|
  serve who 0x0502 (some (1, 1)) s (fun r s =>
    let v := field r.payload 0 1
    match stateRefusal s v [.running] with
    | some e => refuse s r e.1 e.2
    | none =>
      let s1 := setTenState (setTenOp s v (some { op := some r.op })) v .freezing
      acceptedWith (startFreeze s1 v) r (zeros 8))

/-- FREEZE_QUIESCE_COMPLETE (R434): the requests that the freeze held are then answered with FROZEN (R433). -/
def execFreezeQuiesceComplete (fn : FnNo) (s : State) : Host.Outcome State Fault Refusal := whenLive s <|
  let v := fn.val
  let t := tenant s v
  match t.op.bind (·.op) with
  | none => .next s
  | some op =>
    if t.state = .freezing && tenantDrained s v && !tenantInStep s v && pcfUp s then
      .next (opDone (endFreeze (setTenOp s v none) v) op stOk 0)
    else .next s

/-- Running launches of a tenant that are not being stopped. -/
def tenantLaunches (s : State) (v : Nat) : List (Nat × Launch) :=
  s.eng.launches.filter fun p => (queue s p.2.queue).owner == v && p.2.stopping.isNone

/-- FREEZE_LIMIT_EXPIRY (R435): each launch still running is stopped, with a FREEZE_STOP record that its error record names (R525). -/
def execFreezeLimitExpiry (fn : FnNo) (s : State) : Host.Outcome State Fault Refusal := whenLive s <|
  let v := fn.val
  if (tenant s v).state = .freezing then
    .next ((tenantLaunches s v).foldl (fun s p =>
      let x := queue s p.2.queue
      let k := (errLog s v).next % 65536
      let s1 := logErr s v { code := 0x1036, cls := 6, source := 6, die := engineDie x.engine x.inst, unit := x.inst, inst := v, arg := x.slot }
      setLaunch s1 p.1 { p.2 with stopping := some { status := stDeviceError, detail := k, error := true } }) s)
  else .next s

/-! ### Thaw (R437, R438) -/

/-- R438 for one session: it runs in the half that holds its rows, or is moved to the other, or is retired at the next boundary. -/
def checkBundle (s : State) (n : Nat) : State :=
  let x := session s n
  let lower : Bool := decide (x.home < 4)
  let retire := setServing s { s.serving with retire := s.serving.retire ++ [n] }
  if s.serving.mode ≠ 1 || (halfBundle s lower x.bundleDigest).isSome then s
  else if (halfBundle s (!lower) x.bundleDigest).isNone then retire
  else match moveRows s n (halfStacks s lower) (halfStacks s (!lower)), mostFree s (halfStacks s (!lower)) with
    | some s2, some st => relocated (setSession s2 n { session s2 n with home := st })
    | _, _ => retire

/-- Held event records are written (R437). -/
def releaseEvents (s : State) (v : Nat) : State :=
  let es := (tenant s v).heldEvents
  es.foldl (fun s e => putEvent s v e) (setTenant s v { tenant s v with heldEvents := [] })

/-- Frozen sessions return to active (R140). -/
def thawSessions (s : State) (v : Nat) : State :=
  ((tenantSessions s v).filter fun n => (session s n).state == .frozen).foldl
    (fun s n => setSession s n { session s n with state := .active }) s

/-- The thaw of a tenant (R437): sessions, bundles, held turns, events; the queues resume with its state. -/
def thaw (s : State) (v : Nat) : State :=
  let ns := tenantSessions s v
  let s1 := ns.foldl checkBundle (thawSessions s v)
  let held := (tenant s1 v).heldTurns.filter fun n => (session s1 n).turn.isSome
  let s2 := held.foldl enterQueue s1
  let s3 := setTenant s2 v { tenant s2 v with heldTurns := [] }
  setTenState (releaseEvents s3 v) v .running

/-- THAW (R433, R437): its operation ends with it. -/
def execThaw (who : Issuer) (s : State) : Host.Outcome State Fault Refusal := whenLive s <|
  serve who 0x0502 (some (1, 2)) s (fun r s =>
    let v := field r.payload 0 1
    match stateRefusal s v [.frozen] with
    | some e => refuse s r e.1 e.2
    | none => opDone (acceptedWith (thaw s v) r (zeros 8)) r.op stOk 0)

/-! ### Dirty logging (R445) -/

/-- START_DIRTY_LOG (R445). -/
def execStartDirtyLog (who : Issuer) (s : State) : Host.Outcome State Fault Refusal := whenLive s <|
  serve who 0x0502 (some (1, 5)) s (fun r s =>
    let v := field r.payload 0 1
    let t := tenant s v
    if t.state = .unconfigured || t.log.isSome then refuse s r stWrongState (tenCode t.state)
    else okWith (setTenant s v { t with log := some (field r.payload 8 8, field r.payload 24 8, field r.payload 32 8) }) r (zeros 8))

/-- STOP_DIRTY_LOG (R445). -/
def execStopDirtyLog (who : Issuer) (s : State) : Host.Outcome State Fault Refusal := whenLive s <|
  serve who 0x0502 (some (1, 6)) s (fun r s =>
    let v := field r.payload 0 1
    okWith (setTenant s v { tenant s v with log := none }) r (zeros 8))

end Sys2Proof.Machine
end

