-- ==== Sys2Proof/Machine/Migrate.lean ====
section
/-!
DEFINITION. Saving a tenant to a blob, restoring one, and discarding what a tenant runs (R432 steps 2 to 5, R440 to R444).
-/

namespace Sys2Proof.Machine

/-! ### The blob (R441, R442) -/

/-- A section: its header, then its body. -/
def blobSection (type index : Nat) (body : List Byte) : List Byte :=
  leBytes 2 type ++ zeros 2 ++ leBytes 4 index ++ leBytes 8 (16 + body.length) ++ body

/-- The TENANT_CONFIG request in force. -/
def cfgRequest (v : Nat) (c : TenantCfg) : List Byte :=
  leBytes 1 v ++ zeros 1 ++ leBytes 2 c.queues ++ leBytes 4 c.sessions ++ (List.range 8).flatMap (fun st => leBytes 4 (tget 0 c.memMib st))
    ++ leBytes 2 c.asidCount ++ zeros 2

/-- The QUEUE_OPEN request of a queue, with its tag as an offset. -/
def queueRequest (x : Queue) (base : Nat) : List Byte :=
  leBytes 1 x.engine ++ leBytes 1 (if x.engine = 3 then 0xFF else engineDie x.engine x.inst) ++ leBytes 2 x.vector ++ leBytes 4 x.entries
    ++ leBytes 8 x.ringVA ++ leBytes 8 x.complVA ++ leBytes 2 (x.asid - base) ++ leBytes 1 x.priority ++ zeros 5

def queueSection (x : Queue) (base : Nat) : List Byte :=
  let fs := x.cmds.filter (·.stage == .fetched)
  blobSection 2 x.slot (queueRequest x base ++ leBytes 4 x.head ++ leBytes 4 x.tail ++ leBytes 4 x.done ++ leBytes 4 x.started
    ++ leBytes 1 (qCode x.state) ++ leBytes 1 (b2n x.dbRange) ++ leBytes 1 fs.length ++ zeros 1 ++ leBytes 4 x.errors
    ++ leBytes 4 x.stopIndex ++ zeros 4 ++ fs.flatMap (·.bytes))

/-- The key-value data of a session, by position and layer (R408, R442). -/
def sessionData (s : State) (x : Session) : List Byte :=
  let w := x.net.headDim * kvElem x.net
  (List.range x.c).flatMap fun p => (List.range x.net.layers).flatMap fun l => (posAddrs s x l p).flatMap fun a => match a with
    | some a => homeRead s a w
    | none => zeros w

/-- The open TURN of a session: its command, prompt tokens appended, reply tokens written, queue slot and index. -/
def turnBytes (s : State) (x : Session) : List Byte := match x.turn with
  | none => zeros 80
  | some t =>
    let cmd := match findCmd (queue s t.queue) t.index with
      | some c => c.bytes
      | none => zeros 64
    cmd ++ leBytes 4 t.pos ++ leBytes 4 t.written ++ leBytes 2 (queue s t.queue).slot ++ zeros 2 ++ leBytes 4 t.index

def sessionSection (s : State) (n : Nat) : List Byte :=
  let x := session s n
  blobSection 3 n (leBytes 1 x.network ++ leBytes 1 x.home ++ leBytes 1 x.sflags ++ zeros 1 ++ leBytes 4 x.maxTokens ++ leBytes 8 x.userTag
    ++ leBytes 4 x.c ++ leBytes 2 x.net.layers ++ zeros 2 ++ leBytes 4 (kvB x.net) ++ leBytes 1 (b2n x.turn.isSome) ++ zeros 3
    ++ (x.bundleDigest ++ zeros 32).take 32 ++ turnBytes s x ++ sessionData s x)

def rangeSection (s : State) (c : TenantCfg) (st : Nat) : List Byte :=
  let z := tget 0 c.len st
  blobSection 4 st (leBytes 8 z ++ zeros 8 ++ homeRead s (tget 0 c.base st) z)

def eventsSection (s : State) (v : Nat) : List Byte :=
  let es := (tenant s v).heldEvents
  let ring := match s.rings.find? (fun r => r.1 == v) with
    | some r => leBytes 8 r.2.addr ++ leBytes 4 r.2.entries ++ leBytes 4 r.2.next.toNat
    | none => zeros 16
  blobSection 5 0 (ring ++ leBytes 4 es.length ++ zeros 12 ++ es.flatten)

/-- The whole blob of a tenant as it stands (R441, R442). -/
def blobOf (s : State) (v : Nat) : List Byte :=
  let c := (tenant s v).cfg
  let qs := openQueues s v
  let ss := tenantSessions s v
  let rs := (List.range 8).filter fun st => tget 0 c.len st ≠ 0
  let body := blobSection 1 v (cfgRequest v c ++ zeros 4) ++ qs.flatMap (fun q => queueSection (queue s q) c.asidBase)
    ++ ss.flatMap (sessionSection s) ++ rs.flatMap (rangeSection s c) ++ eventsSection s v ++ blobSection 15 0 []
  leBytes 4 0x544E4E54 ++ leBytes 2 1 ++ leBytes 2 0x0304 ++ leBytes 8 (64 + body.length) ++ leBytes 1 (variantCode s)
    ++ leBytes 1 s.serving.mode ++ leBytes 2 (setting s idKvRowPages) ++ leBytes 4 (3 + qs.length + ss.length + rs.length)
    ++ leBytes 4 ss.length ++ leBytes 2 qs.length ++ zeros 2 ++ sha256 body ++ body

/-- SAVE (R84, R440): BLOB_BYTES is fixed, and the blob holds the tenant as it is when the save is accepted. -/
def execSave (who : Issuer) (s : State) : Host.Outcome State Fault Refusal := whenLive s <|
  serve who 0x0502 (some (1, 3)) s (awake fun r s =>
    let v := field r.payload 0 1
    match stateRefusal s v [.frozen] with
    | some e => refuse s r e.1 e.2
    | none =>
      let b := blobOf s v
      if field r.payload 16 8 < b.length then answer s r { status := stQuota, payload := leBytes 8 b.length }
      else
        let o : TenantOp := { op := some r.op, bufAddr := field r.payload 8 8, bufBytes := field r.payload 16 8, blob := b }
        acceptedWith (setTenState (setTenOp s v (some o)) v .saving) r (leBytes 8 b.length))

/-- SAVE_COMPLETE (R440): the blob is in host memory, written by the PF. -/
def execSaveComplete (fn : FnNo) (s : State) : Host.Outcome State Fault Refusal := whenLive s <|
  let v := fn.val
  let t := tenant s v
  match t.op with
  | none => .next s
  | some o => match o.op with
    | none => .next s
    | some op =>
      if t.state = .saving && pcfUp s then
        .next (opDone (setTenState (setTenOp (hostWrite s 0 o.bufAddr o.blob) v none) v .frozen) op stOk (o.promoted % 65536))
      else .next s

/-! ### Reading a blob (R441 to R443) -/

/-- A section as read: its type, index, and all its bytes. -/
structure Sec where
  type : Nat
  index : Nat
  bytes : List Byte
  deriving DecidableEq, Repr

/-- The sections from the front of some bytes, which they take up whole. The fuel bounds them. -/
def readSecs : Nat → List Byte → Option (List Sec)
  | 0, _ => none
  | fuel + 1, bs =>
    if bs.isEmpty then some []
    else
      let n := field bs 8 8
      if bs.length < 16 || n < 16 || n % 8 ≠ 0 || bs.length < n || field bs 2 2 ≠ 0 then none
      else (readSecs fuel (bs.drop n)).map fun l => { type := field bs 0 2, index := field bs 4 4, bytes := bs.take n } :: l

/-- A field of a section. -/
def Sec.at (x : Sec) (off size : Nat) : Nat := field x.bytes off size
def Sec.zero (x : Sec) (off n : Nat) : Bool := ((x.bytes.drop off).take n).all (· == 0)

/-- A section has the length and the reserved bytes of its type (R442). -/
def secOk (x : Sec) : Bool :=
  let n := x.bytes.length
  match x.type with
  | 1 => n == 64 && x.zero 60 4
  | 2 => 80 ≤ n && n == 80 + 64 * x.at 66 1 && x.zero 67 1 && x.zero 76 4 && x.index < 64
  | 3 => 160 ≤ n && n == 160 + x.at 32 4 * x.at 36 2 * x.at 40 4 && x.zero 19 1 && x.zero 38 2 && x.zero 45 3 && x.zero 154 2 && x.index < 16384
  | 4 => 32 ≤ n && n == 32 + x.at 16 8 && x.zero 24 8 && x.index < 8
  | 5 => 48 ≤ n && n == 48 + 32 * x.at 32 4 && x.zero 36 12 && x.index == 0
  | 15 => n == 16 && x.index == 0
  | _ => false

def secsOf (l : List Sec) (t : Nat) : List Sec := l.filter (·.type == t)

/-- Numbers rise strictly. -/
def rising : List Nat → Bool
  | a :: b :: t => a < b && rising (b :: t)
  | _ => true

/-- The sections are those of R442, in order, and the header counts them. -/
def secsOk (h : List Byte) (l : List Sec) : Bool :=
  l.all secOk && l.map (·.type) == ([1, 2, 3, 4, 5, 15].flatMap fun t => (secsOf l t).map (·.type))
    && (secsOf l 1).length == 1 && (secsOf l 5).length == 1 && (secsOf l 15).length == 1 && l.length == field h 20 4
    && (secsOf l 3).length == field h 24 4 && (secsOf l 2).length == field h 28 2
    && rising ((secsOf l 3).map (·.index)) && rising ((secsOf l 4).map (·.index)) && ((secsOf l 2).map (·.index)).eraseDups.length == (secsOf l 2).length

/-- The first two checks of R443: the header, the digest and the sections. -/
def readBlob (s : State) (addr n : Nat) : Option (List Byte × List Sec) :=
  let h := mread s.hostMem addr 64
  let b := field h 8 8
  if n < 64 || field h 0 4 ≠ 0x544E4E54 || field h 4 2 ≠ 1 || 0x0304 < field h 6 2 || n < b || b < 64 || field h 30 2 ≠ 0 then none
  else
    let body := mread s.hostMem (addr + 64) (b - 64)
    if sha256 body ≠ (h.drop 32).take 32 then none
    else match readSecs (body.length / 16 + 1) body with
      | none => none
      | some l => if secsOk h l then some (h, l) else none

/-- The next two checks of R443: the mode and row size, and the session numbers. -/
def blobFits (s : State) (h : List Byte) (l : List Sec) : Bool :=
  field h 17 1 == s.serving.mode && field h 18 2 == setting s idKvRowPages
    && (secsOf l 3).all fun x => (session s x.index).state == .free

/-! ### Discarding what a tenant runs (R432 steps 2 to 5, R443) -/

/-- A queue closes without a QSB write. -/
def silentClose (s : State) (q : Nat) : State := forgetQueue s q

/-- The queues of a tenant close, its merge slots are aborted, and its sessions end without events (R432). -/
def discardTenant (s : State) (v : Nat) : State :=
  let s1 := abortMerges ((openQueues s v).foldl silentClose s) v
  let s2 := setTenant s1 v { tenant s1 v with heldTurns := [] }
  (tenantSessions s2 v).foldl (fun s n =>
    endSession (setSession s n { session s n with state := if (session s n).state = .frozen then .active else (session s n).state }) n stWrongState 0) s2

/-- The log, the ring and held events of a tenant go (R432). -/
def discardRing (s : State) (v : Nat) : State :=
  let s1 := setTenant s v { tenant s v with heldEvents := [], log := none }
  { s1 with rings := tdel s1.rings v }

/-! ### Restoring (R443, R444) -/

/-- A session's network on this package: that of its bundle, or for a bundle that is not held one with its layers and bytes. -/
def restoredNet (s : State) (x : Sec) : Network :=
  match bundleOf s ((x.bytes.drop 48).take 32) with
  | some b => b.nets.getD (x.at 16 1) {}
  | none => { layers := x.at 36 2, maxTokens := x.at 20 4, kvHeads := if x.at 40 4 = 0 then 0 else 1, qHeads := 1, headDim := x.at 40 4 / 2 }

/-- Opens one session frozen, with its rows; or the status of a pop that fails. -/
def restoreSession (s : State) (v : Nat) (x : Sec) : Except Nat State :=
  let net := restoredNet s x
  let st := x.at 17 1 % 8
  let c := x.at 32 4
  let need := if net.kvHeads = 0 then 0 else ceilDiv c (kvSpan net)
  if !rowRoom s v st need then .error stQuota
  else if !popServed s st 1 need then .error stPoolEmpty
  else
    let r := popRows s st need
    let s1 := fillRows r.1 st v r.2
    let y : Session :=
      { gen := (session s1 x.index).gen, seed := s1.free, state := .frozen, owner := v, network := x.at 16 1, net := net,
        bundle := ((bundleOf s ((x.bytes.drop 48).take 32)).map (·.handle)).getD 0, bundleDigest := (x.bytes.drop 48).take 32,
        sflags := x.at 18 1, home := st, maxTokens := x.at 20 4, userTag := x.at 24 8, c := c, f := c, t := c,
        rowMap := (r.2.zip (List.range need)).map fun p => (p.2, { stack := st, row := p.1 }) }
    .ok (setSession { s1 with free := s1.free + 1 } x.index y)

/-- Rows for every session, in ascending number. -/
def restoreSessions (s : State) (v : Nat) : List Sec → Except Nat State
  | [] => .ok s
  | x :: rest => match restoreSession s v x with
    | .ok s1 => restoreSessions s1 v rest
    | .error e => .error e

/-- Writes a session's key-value data (R442). -/
def restoreData (s : State) (x : Sec) : State :=
  let y := session s x.index
  let b := kvB y.net
  (List.range y.c).foldl (fun s p => (List.range y.net.layers).foldl (fun s l =>
    let bs := ((x.bytes.drop 160).drop ((p * y.net.layers + l) * b)).take b
    let w := y.net.headDim * kvElem y.net
    ((posAddrs s y l p).zip (List.range (posAddrs s y l p).length)).foldl (fun s a => match a.1 with
      | some d => homeWrite s d ((bs.drop (a.2 * w)).take w)
      | none => s) s) s) s

/-- The lowest package queue number that is closed. -/
def freeQueue (s : State) : Nat := ((List.range 1024).find? fun q => (queue s q).state == .closed).getD 0

/-- Re-opens a queue with its indices and fetched commands, translated again at their start; none where its ring or completion area is
not mapped (R149, R444). -/
def restoreQueue (s : State) (v : Nat) (x : Sec) : Option State :=
  let p := (x.bytes.drop 16).take 32
  let asid := (tenant s v).cfg.asidBase + field p 24 2
  let e := field p 0 1
  let d := if field p 1 1 < 8 && dieInService s (field p 1 1) then field p 1 1 else (diesInService s).headD 0
  let n := field p 4 4
  match pinPages s asid (field p 8 8) (64 * n) false, pinPages s asid (field p 16 8) (64 + 32 * n) true with
  | some ring, some compl =>
    let q := freeQueue s
    let k := x.at 66 1
    let hd := x.at 48 4
    let first := (hd + 2 ^ 32 - k) % 2 ^ 32
    let cmd (j : Nat) : Cmd :=
      { index := (first + j) % 2 ^ 32, bytes := (x.bytes.drop (80 + 64 * j)).take 64, epoch := s.settings.epoch.issuing,
        gen := tagGen s asid + 1 }
    let base := newQueue s v x.index (engineInst e d 0) p ring compl
    let y : Queue :=
      { base with
        state := if x.at 64 1 = 3 then .stopped else .opened
        asid := asid
        leaves := leavesIn s asid (field p 8 8) (64 * n) ++ leavesIn s asid (field p 16 8) (64 + 32 * n)
        head := hd, tail := x.at 52 4, done := x.at 56 4, started := x.at 60 4, dbRange := x.at 65 1 == 1, errors := x.at 68 4
        stopIndex := x.at 72 4, cmds := (List.range k).map cmd
        lost := if x.at 64 1 = 3 && k = 0 && x.at 56 4 ≠ hd then some (x.at 56 4) else none }
    some (setQueue s q y)
  | _, _ => none

/-- Re-opens every queue; the count is of those left closed. -/
def restoreQueues (s : State) (v : Nat) (l : List Sec) : State × Nat :=
  l.foldl (fun r x => match restoreQueue r.1 v x with
    | some s1 => (s1, r.2)
    | none => (r.1, r.2 + 1)) (s, 0)

/-- Reinstates the open TURN of a session on its queue, with its progress: the prompt is read again, and the next input token is the
last reply token written (R444). -/
def restoreTurn (s : State) (v : Nat) (x : Sec) : State :=
  match (s.eng.queues.find? fun p => p.2.state != .closed && p.2.owner == v && p.2.slot == x.at 152 2) with
  | none => s
  | some (q, y) =>
    let bs := (x.bytes.drop 80).take 64
    let i := x.at 156 4
    let c : Cmd := { index := i, bytes := bs, epoch := s.settings.epoch.issuing, gen := tagGen s y.asid, stage := .running,
                     leaves := heldLeaves s y bs }
    let prompt := match vaRead s y.asid (field bs 16 8) (4 * field bs 12 4) with
      | some b => (List.range (field bs 12 4)).map fun j => field b (4 * j) 4
      | none => []
    let pos := x.at 144 4
    let wr := x.at 148 4
    let tok := if wr = 0 then none else (vaRead s y.asid (field bs 24 8 + 4 * (wr - 1)) 4).map leNat
    let k := s.serving.arrivals
    let t : Turn := { newTurn q i y.asid c prompt with pos := pos, admitted := pos ≠ 0, written := wr, nextTok := tok, order := k }
    let s1 := setQueue s q { y with cmds := (y.cmds.filter fun d => (d.index + 2 ^ 32 - y.done) % 2 ^ 32 < (i + 2 ^ 32 - y.done) % 2 ^ 32) ++ [c]
      ++ (y.cmds.filter fun d => (i + 2 ^ 32 - y.done) % 2 ^ 32 < (d.index + 2 ^ 32 - y.done) % 2 ^ 32) }
    let s2 := setSession s1 x.index { session s1 x.index with turn := some t }
    if pos ≠ 0 then
      setServing s2 { s2.serving with prefill := s2.serving.prefill ++ (if wr = 0 then [x.index] else []), arrivals := k + 1 }
    else setTenant s2 v { tenant s2 v with heldTurns := (tenant s2 v).heldTurns ++ [x.index] }

/-- Re-creates the event ring with its held records (R444). -/
def restoreRing (s : State) (v : Nat) (x : Sec) : State :=
  let es := (List.range (x.at 32 4)).map fun k => (x.bytes.drop (48 + 32 * k)).take 32
  let s1 := setTenant s v { tenant s v with heldEvents := es }
  if x.at 24 4 = 0 then { s1 with rings := tdel s1.rings v }
  else { s1 with rings := tput s1.rings v { addr := x.at 16 8, entries := x.at 24 4, next := BitVec.ofNat 32 (x.at 28 4) } }

/-- RESTORE (R84, R443): the blob is read and checked by RESTORE_COMPLETE. -/
def execRestore (who : Issuer) (s : State) : Host.Outcome State Fault Refusal := whenLive s <|
  serve who 0x0502 (some (1, 4)) s (awake fun r s =>
    let v := field r.payload 0 1
    if !fnEnabled s v then refuse s r stWrongState 0
    else match stateRefusal s v [.frozen, .unconfigured] with
    | some e => refuse s r e.1 e.2
    | none =>
      let o : TenantOp := { op := some r.op, bufAddr := field r.payload 8 8, bufBytes := field r.payload 16 8, prior := (tenant s v).state }
      acceptedWith (setTenState (setTenOp s v (some o)) v .restoring) r (zeros 8))

/-- A restore ends without the tenant: its state, and its OP_DONE. -/
def failRestore (s : State) (v : Nat) (op : OpId) (st : TenState) (status detail : Nat) : State :=
  opDone (setTenState (setTenOp s v none) v st) op status detail

/-- The restore once its configuration and rows stand (R444). -/
def restoreRest (s : State) (v : Nat) (op : OpId) (l : List Sec) : State :=
  let c := (tenant s v).cfg
  let s1 := (secsOf l 4).foldl (fun s x => homeWrite s (tget 0 c.base x.index) ((x.bytes.drop 32).take (tget 0 c.len x.index))) s
  let s2 := (secsOf l 3).foldl restoreData s1
  let s3 := (secsOf l 3).foldl (fun s x =>
    if bit (x.at 18 1) 0 && s.twin.state = 2 && paired s then mirrorSend s x.index else s) s2
  let r := restoreQueues s3 v (secsOf l 2)
  let s4 := ((secsOf l 3).filter fun x => x.at 44 1 == 1).foldl (fun s x => restoreTurn s v x) r.1
  let s5 := (secsOf l 5).foldl (fun s x => restoreRing s v x) s4
  let s6 := (openQueues s5 v).foldl writeQsb (thaw (setTenOp s5 v none) v)
  opDone s6 op stOk r.2

/-- RESTORE_COMPLETE (R443, R444). -/
def execRestoreComplete (fn : FnNo) (s : State) : Host.Outcome State Fault Refusal := whenLive s <|
  let v := fn.val
  let t := tenant s v
  match t.op with
  | none => .next s
  | some o => match o.op with
    | none => .next s
    | some op =>
      if t.state ≠ .restoring || !pcfUp s then .next s
      else match readBlob s o.bufAddr o.bufBytes with
        | none => .next (failRestore s v op o.prior stBadRequest 8)
        | some (h, l) =>
          if !blobFits s h l then .next (failRestore s v op o.prior stIncompatible 0)
          else
            let s1 := discardTenant s v
            let p := (((secsOf l 1).headD { type := 1, index := 0, bytes := [] }).bytes.drop 16).take 44
            let bad := (layoutOf s1 { who := 0, seq := 0, hdr := { opcode := 0x0501, length := 44 }, payload := p }).find? fun f =>
              f.off ≠ 0 && !f.ok (field p f.off f.size)
            match bad with
            | some f => .next (failRestore s1 v op .frozen stBadRequest f.off)
            | none => match planCfg s1 v p with
              | .error e => .next (failRestore s1 v op .frozen e.1 e.2)
              | .ok c =>
                let s2 := (List.range 8).foldl (fun s st => zeroFill s (tget 0 c.base st) (tget 0 c.len st)) (setTenCfg (placeCfg s1 v c) v c)
                match restoreSessions s2 v (secsOf l 3) with
                | .error e => .next (failRestore s2 v op .frozen e 0)
                | .ok s3 => .next (restoreRest s3 v op l)

end Sys2Proof.Machine
end

