-- ==== Sys2Proof/Machine/Reset.lean ====
section
/-!
DEFINITION. Function resets and VF Enable (R32, R33, R423, R424, R432).
-/

namespace Sys2Proof.Machine

/-! ### One function (R32, R33) -/

/-- A mailbox at a function reset: SEQ and FW_READY stay, the outstanding request is abandoned (R32, R33, R49). -/
def resetMbx (m : Mailbox) : Mailbox := { m with state := .idle, outstanding := none, timer := false, respWin := [] }

/-- A function's configuration state, instance registers and MSI-X table are as at reset; its granted host pages are forgotten. -/
def resetFn (s : State) (n : Nat) : State :=
  let b := instBase n
  let s1 := { s with
    pcie := { s.pcie with fns := tdel s.pcie.fns n, msix := s.pcie.msix.filter fun e => e.1 / 0x8000 != n,
                          pending := s.pcie.pending.filter fun e => e.1 / 0x1000 != n }
    regs := s.regs.filter fun e => !(b ≤ e.1 && e.1 < b + 0x100)
    xlat := { s.xlat with granted := s.xlat.granted.filter fun g => g.fn != n } }
  setMbx s1 n (resetMbx (mbx s1 n))

/-- FW_READY of a mailbox. -/
def setFwReady (s : State) (n : Nat) (b : Bool) : State := setMbx s n { mbx s n with fwReady := b }

/-! ### The tenant (R432) -/

/-- The operation that runs on a tenant ends with WRONG_STATE, DETAIL 1; a configuration goes on unless `all` (R432). -/
def endTenantOp (s : State) (v : Nat) (all : Bool) : State :=
  match (tenant s v).op with
  | none => s
  | some o =>
    if o.cfg.isSome && !all then s
    else match o.op with
      | some op => opDone (setTenOp s v none) op stWrongState 1
      | none => setTenOp s v none

/-- Steps 1 and 2 of R432 begin; at the end the tenant is unconfigured where VF Enable has been cleared (R424). -/
def beginVfReset (s : State) (v : Nat) (clear : Bool) : State :=
  let s1 := endTenantOp (setFwReady (resetFn s v) v false) v clear
  let target := if clear || (tenant s1 v).resetting = some .unconfigured then TenState.unconfigured else .running
  setTenant s1 v { tenant s1 v with resetting := some target }

/-- VF_FUNCTION_LEVEL_RESET (R33, R432). -/
def execVfFunctionLevelReset (fn : FnNo) (s : State) : Host.Outcome State Fault Refusal := whenLive s <|
  if fn.val ≠ 0 && s.start.hubReady && fnEnabled s fn.val then .next (beginVfReset s fn.val false) else .next s

/-- FLR_LAUNCH_TIMEOUT (R432): the launches that still run are stopped. -/
def execFlrLaunchTimeout (fn : FnNo) (s : State) : Host.Outcome State Fault Refusal := whenLive s <|
  if (tenant s fn.val).resetting.isSome then
    .next ((tenantLaunches s fn.val).foldl (fun s p => setLaunch s p.1 { p.2 with stopping := some { status := stDeviceError, error := true } }) s)
  else .next s

/-- Every started command of a tenant under reset has completed; open turns are ended, and a FENCE behind one goes with it (R432). -/
def resetDrained (s : State) (v : Nat) : Bool :=
  (openQueues s v).all fun q =>
    let x := queue s q
    x.cmds.all fun c => c.stage == .fetched || (cmdOpcode c == 0x30 && c.stage == .running) || (cmdOpcode c == 0x01 && unstarts x c)

/-- Steps 2 to 7 of R432. -/
def resetTenant (s : State) (v : Nat) : State :=
  let s1 := discardRing (discardTenant s v) v
  let c := (tenant s1 v).cfg
  let s2 := ((cfgTags c).filter fun t => !tagInUse s1 t).foldl releaseTag s1
  (List.range 8).foldl (fun s st => zeroFill s (tget 0 c.base st) (tget 0 c.len st)) s2

/-- The ranges and tags of a tenant are released, and its quotas become 0 (R424). -/
def releaseTenant (s : State) (v : Nat) : State :=
  let c := (tenant s v).cfg
  let s1 := (cfgTags c).foldl releaseTag s
  ((List.range 8).filter fun st => tget 0 c.len st ≠ 0).foldl reformPool (setTenCfg s1 v {})

/-- FW_READY of a VF's mailbox follows whether PCF accepts requests there (R423, R469, R479). -/
def vfReady (s : State) (v : Nat) : Bool := fnEnabled s v && s.start.phase == .ready && s.start.pcfRunning

/-- VF_RESET_COMPLETE (R424, R432): when VF Enable has been cleared, in ascending VF number. -/
def execVfResetComplete (fn : FnNo) (s : State) : Host.Outcome State Fault Refusal := whenLive s <|
  let v := fn.val
  match (tenant s v).resetting with
  | none => .next s
  | some target =>
    let earlier := target = .unconfigured && s.tenants.any fun p => p.1 < v && p.2.resetting == some .unconfigured
    if earlier || !resetDrained s v || !s.start.pcfRunning then .next s
    else
      let s1 := resetTenant s v
      let s2 := if target = .unconfigured then releaseTenant s1 v else s1
      let st := if target = .unconfigured || (tenant s2 v).state = .unconfigured || (tenant s2 v).cfg.asidCount = 0 then TenState.unconfigured
        else .running
      let s3 := setTenant s2 v { tenant s2 v with resetting := none }
      .next (setFwReady (setTenState s3 v st) v (vfReady s3 v))

/-! ### VF Enable (R423, R424) -/

/-- VF numbers. -/
def vfNumbers : List Nat := (List.range 64).filter (· ≠ 0)

/-- VF Enable is cleared: every VF is reset (R424). -/
def clearVfEnable (s : State) : State :=
  if s.pcie.vfEnable then
    let vs := vfNumbers.filter fun v => fnEnabled s v
    vs.foldl (fun s v => beginVfReset s v true) { s with pcie := { s.pcie with vfEnable := false } }
  else s

/-- VF_ENABLE_SET (R423, R523): every VF is unconfigured; FW_READY reads 1 once the package is READY. -/
def execVfEnableSet (numVFs : FnNo) (s : State) : Host.Outcome State Fault Refusal := whenLive s <|
  if !s.start.hubReady then .next (emit s (.completion 2 [] false))
  else if s.pcie.vfEnable then .next (emit s (.completion 0 [] false))
  else
    let s1 := { s with pcie := { s.pcie with vfEnable := true, numVFs := numVFs.val } }
    let vs := vfNumbers.filter fun v => fnEnabled s1 v
    let s2 := vs.foldl (fun s v =>
      let s3 := setErrLog s v {}
      if (tenant s3 v).resetting.isSome then s3 else setFwReady (setTenant s3 v {}) v (vfReady s3 v)) s1
    .next (emit s2 (.completion 0 [] false))

/-- VF_ENABLE_CLEAR (R424). -/
def execVfEnableClear (s : State) : Host.Outcome State Fault Refusal := whenLive s <|
  if !s.start.hubReady then .next (emit s (.completion 2 [] false))
  else .next (emit (clearVfEnable s) (.completion 0 [] false))

/-! ### Hot Reset, link down, PF Function Level Reset (R32) -/

/-- The effect of the three resets. The Advanced Error Reporting bits are sticky in the PCIe specification, and stay. -/
def functionReset (s : State) : State :=
  let s1 := resetFn (clearVfEnable s) 0
  let hub := [hubAperture, hubErr, hubErrAddrLo, hubErrAddrHi]
  { s1 with
    pcie := { s1.pcie with numVFs := 0, bar2Code := 0, bars := [], vfBars := [], pageSize := 0, fns := [] }
    regs := s1.regs.filter fun e => !hub.contains e.1 }

/-- HOT_RESET (R32). -/
def execHotReset (s : State) : Host.Outcome State Fault Refusal := whenLive s <| .next (functionReset s)
/-- LINK_DOWN_RESET (R32). -/
def execLinkDownReset (s : State) : Host.Outcome State Fault Refusal := whenLive s <| .next (functionReset s)
/-- PF_FUNCTION_LEVEL_RESET (R32). -/
def execPfFunctionLevelReset (s : State) : Host.Outcome State Fault Refusal := whenLive s <| .next (functionReset s)

end Sys2Proof.Machine
end

