-- ==== Sys2Proof/Machine/Diag.lean ====
section
/-!
DEFINITION. Link tests, the twin actions of TWIN_CTRL, and the quarantine and return of C-dies (R85 to R88, R307, R346, R359, R398, R402,
R416, R418 to R421, R518, R531, R534, R535).
-/

namespace Sys2Proof.Machine

/-! ### LINK_TEST (R85, R86) -/

/-- A test of the link runs. -/
def testing (s : State) (kind l : Nat) : Bool := s.linkTests.any fun p => p.1 == linkKey kind l

/-- Lenot links that traffic may use: those up that are not under test. -/
def freeLinks (s : State) : List Nat := (List.range 12).filter fun l => linkUp s l && !testing s 0 l

/-- Every pair that has a route has one over some links. -/
def routable (s : State) (links : List Nat) : Bool :=
  s.lnt.routes.all fun p => (bestRoute links (p.1 / 9) (p.1 % 9)).isSome

/-- A stack holds a part of a replica that another die reads (R419). -/
def replicaShared (s : State) (st : Nat) : Bool :=
  (List.range 8).any fun d => d != st && dieInService s d && (match bundleAt s d with
    | some b => (replicaGroup s b d).contains st
    | none => false)

/-- A link cannot be taken out of service now (R86, R307, R419, R518). -/
def linkHeld (s : State) (kind l : Nat) : Bool :=
  match kind with
  | 0 => !routable s ((freeLinks s).filter (· != l))
  | 1 =>
    if 6 ≤ l then hwsServes (hwsPort s l) && paired s && !((mirroredSessions s).isEmpty && (shadowSessions s).isEmpty)
    else hwsServes (hwsPort s l) && 1 < (dims s).getD (l / 2) 1 && !hwsServes (hwsPort s (l ^^^ 1))
  | 2 => (dieCond s l != .quarantined && s.serving.mode ≠ 0) || replicaShared s l
  | _ => (s.twin.state = 2 || s.twin.state = 3) && cleatPeer s ≠ 0xFF

/-- LNT_PAT_CTRL as PCF writes it for a test, with or without ENABLE (R359). -/
def testPattern (s : State) (l : Nat) (t : LinkTest) (on : Bool) : State :=
  let v := b2n on * 2 ^ 31 + t.pattern * 2 ^ 26 + t.laneMask.toNat % 2 ^ 26
  patCtrl (patCtrl s (linkPorts l).1 v) (linkPorts l).2 v

/-- The link leaves service for its test. Lenot traffic drains onto the new routes (R346); what a Hawser port holds is lost with it. -/
def takeLink (s : State) (kind l : Nat) (t : LinkTest) : State :=
  match kind with
  | 0 =>
    let s1 := logErr s 0 { code := 0x1012, cls := 6, source := 4, die := linkFirstDie l, unit := l, arg := 1 }
    reroute (testPattern s1 l t true) (freeLinks s1)
  | 1 =>
    let me := (ownPkg s, l)
    let s0 := dropWaiting s l
    let s1 := setHwsPort s0 l { hwsPort s0 l with state := 4 }
    let s2 := if l < 6 then { s1 with hws := { s1.hws with down := s1.hws.down.filter (· != me) ++ [me] } } else s1
    twinPortLost s2 l
  | 2 => s
  | _ => orReg s cleatCtrl 0x20

/-- LINK_TEST (R86). -/
def execLinkTest (who : Issuer) (s : State) : Host.Outcome State Fault Refusal := whenLive s <|
  serve who 0x0601 none s (awake fun r s =>
    let k := field r.payload 0 1
    let l := field r.payload 1 1
    let t : LinkTest := { op := r.op, pattern := field r.payload 2 1, laneMask := BitVec.ofNat 32 (field r.payload 4 4),
                          durationMs := field r.payload 8 4 }
    if testing s k l then refuse s r stBusy 0x0601
    else if linkHeld s k l then refuse s r stBusy 0
    else
      let s1 := { s with linkTests := tput s.linkTests (linkKey k l) t }
      accepted (takeLink (linkState s1 k l 4) k l t) r)

/-! ### The end of a test (R346, R382, R534, R535) -/

/-- Lanes that a test's LANE_MASK selects; a zero field selects all (R307, R359, R398). -/
def testLanes (kind : Nat) (mask : Nat) : List Nat :=
  let pick (n m : Nat) : List Nat := (List.range n).filter fun i => m = 0 || bit m i
  match kind with
  | 0 => (pick 8 (bits mask 0 8)).flatMap fun b => (pick 18 (bits mask 8 18)).map (18 * b + ·)
  | 1 => pick 4 mask
  | 2 => pick 32 mask
  | _ => [0]

def laneCount (c : List LaneCount) (i : Nat) : LaneCount :=
  (c.find? (fun x => x.lane == i)).getD { lane := i, locked := true, errors := 0, bits := 0 }

/-- A lane fails: it did not lock, or its errors exceed the limit (R534, R535). -/
def laneFails (kind pattern : Nat) (x : LaneCount) : Bool :=
  !x.locked || (if kind = 1 && pattern ≠ 0x11 then x.bits < x.errors * 1000000 else 0 < x.errors)

/-- FAIL_LANES of the lanes that failed (R359). -/
def failMask (kind : Nat) (fails : List Nat) : Nat :=
  if kind = 0 then
    fails.foldl (fun m i => m ||| 2 ^ (i / 18)) 0 + fails.foldl (fun m i => m ||| 2 ^ (i % 18)) 0 * 256
  else fails.foldl (fun m i => m ||| 2 ^ i) 0

/-- The result of a test from what its ends counted (R534). -/
def testResult (kind : Nat) (t : LinkTest) (near far : List LaneCount) : LinkResult :=
  let ls := testLanes kind t.laneMask.toNat
  let ends := if kind = 0 then [near, far] else [near]
  let fails := ls.filter fun i => ends.any fun c => laneFails kind t.pattern (laneCount c i)
  let sum (f : LaneCount → Nat) : Nat := (ends.map fun c => (ls.map fun i => f (laneCount c i)).sum).sum
  { result := if fails.isEmpty then 1 else 2, failLanes := BitVec.ofNat 32 (failMask kind fails),
    errors := BitVec.ofNat 64 (sum (·.errors)), bits := BitVec.ofNat 64 (sum (·.bits)) }

/-- Lane error registers and BITS of one end, from the register at lane 0 and the BITS register. -/
def laneRegs (s : State) (laneReg bitsReg : Nat) (ls : List Nat) (c : List LaneCount) : State :=
  let s1 := ls.foldl (fun s i => setReg s (laneReg + 4 * i) (BitVec.ofNat 32 (min (laneCount c i).errors (2 ^ 32 - 1)))) s
  let n := ls.foldl (fun m i => max m (laneCount c i).bits) 0
  setReg (setReg s1 bitsReg (BitVec.ofNat 32 n)) (patHi bitsReg) (BitVec.ofNat 32 (n / 2 ^ 32))

/-- What a test leaves in its link's registers. -/
def testRegs (s : State) (kind l : Nat) (t : LinkTest) (near far : List LaneCount) : State :=
  let ls := testLanes kind t.laneMask.toNat
  match kind with
  | 0 =>
    let at_ (s : State) (k : Nat) (c : List LaneCount) : State :=
      laneRegs s (lntReg (k / 4) (k % 4) 0x100) (lntReg (k / 4) (k % 4) lntPatBitsLoOff) ls c
    at_ (at_ s (linkPorts l).1 near) (linkPorts l).2 far
  | 1 => laneRegs s (hwsReg l 0x040) (hwsReg l 0x050) ls near
  | _ => s

/-- Nothing is left on a link that is to be tested: its route changes are done and both ports are empty (R346). -/
def linkDrained (s : State) (l : Nat) : Bool :=
  s.lnt.changes.isEmpty && [(linkPorts l).1, (linkPorts l).2].all fun k => idlePort (lntPort s k)

/-- A Lenot link trains again after its test, as at start, and traffic returns to it (R346, R356, R357, R359). -/
def retestLink (s : State) (l : Nat) (f1 f2 : List (Fin 8 × BitVec 18)) : State :=
  let ks := linkPorts l
  let v := settledVersion s l
  let old := (lntPort s ks.1).bundles
  let fresh (s : State) (k : Nat) : State := setLntPort s k { lntPort s k with maps := [], ltResult := [], version := v, wire := [] }
  let r1 := applyTest (fresh (fresh s ks.1) ks.2) ks.1 v f1 255
  let r2 := applyTest r1.1 ks.2 v f2 255
  let up := r1.2 &&& r2.2
  let st := if popcount8 up < 4 then 5 else 2
  let s1 := setBundles r2.1 l up old
  let s2 := [ks.1, ks.2].foldl (fun s k => setLntPort s k { lntPort s k with state := st, consec := 0, lastOldest := none }) s1
  let s3 := linkState (seedLink s2 ks.1 ks.2) 0 l st
  reroute s3 (freeLinks s3)

/-- The link returns to service once its test is over. -/
def returnLink (s : State) (kind l : Nat) (t : LinkTest) (f1 f2 : List (Fin 8 × BitVec 18)) : State :=
  match kind with
  | 0 => retestLink (testPattern s l t false) l f1 f2
  | 1 => hwsLinkState (setHwsPort s l { hwsPort s l with state := 1, trained := false, peer := none }) l 1
  | 2 =>
    let s1 := if t.pattern = 3 then zeroFill s (l * 2 ^ 36) 0xC00000000 else s
    linkState s1 2 l (linkInfo s1 2 l).1
  | _ => linkState (setReg s cleatCtrl (reg s cleatCtrl &&& ~~~(0x20 : Word))) 3 0 (linkInfo s 3 0).1

/-- LINK_TEST_COMPLETE (R534): what the test counted on each lane, and the lanes that fail when a Lenot link trains afterwards. A Lenot
test has not begun while the link still drains. -/
def execLinkTestComplete (kind : Fin 4) (link : Fin 12) (near far : List LaneCount) (f1 f2 : List (Fin 8 × BitVec 18)) (s : State) :
    Host.Outcome State Fault Refusal := whenLive s <|
  let k := kind.val
  let l := link.val
  match s.linkTests.find? (fun p => p.1 == linkKey k l) with
  | none => .next s
  | some (_, t) =>
    if !pcfUp s || (k = 0 && !linkDrained s l) then .next s
    else
      let s1 := { s with linkTests := tdel s.linkTests (linkKey k l),
                         linkResults := tput s.linkResults (linkKey k l) (testResult k t near far) }
      .next (opDone (returnLink (testRegs s1 k l t near far) k l t f1 f2) t.op stOk 0)

/-! ### TWIN_CTRL (R86, R402, R416) -/

/-- A pair or attach action is accepted, refused, or waits for the partner's (R86, R402). -/
def pairAction (r : Req) (attach : Bool) (s : State) : State :=
  let t := s.twin
  let from_ := if attach then [6, 8, 9] else [0]
  if !from_.contains t.state then refuse s r stWrongState t.state
  else if t.act.isSome then refuse s r stBusy 0x0603
  else match (peerWord s).bind (wordRefusal s) with
    | some e => refuse s r e.1 e.2
    | none =>
      let s1 := acceptedWith s r (leBytes 1 t.state ++ zeros 7 ++ leBytes 8 t.partner)
      let a : TwinAct := { op := r.op, attach := attach, partner := field r.payload 8 8, prev := t.state }
      tryForm (sendPairReq (setTwin s1 { s1.twin with act := some a }))

/-- TWIN_PAIR (R402). -/
def execTwinPair (who : Issuer) (s : State) : Host.Outcome State Fault Refusal := whenLive s <| serve who 0x0603 (some (0, 1)) s (pairAction · false)

/-- TWIN_ATTACH (R402). -/
def execTwinAttach (who : Issuer) (s : State) : Host.Outcome State Fault Refusal := whenLive s <| serve who 0x0603 (some (0, 3)) s (pairAction · true)

/-- TWIN_DETACH (R416). Outside serving mode there is no step boundary to wait for. -/
def execTwinDetach (who : Issuer) (s : State) : Host.Outcome State Fault Refusal := whenLive s <|
  serve who 0x0603 (some (0, 2)) s fun r s =>
    if s.twin.state ≠ 2 then refuse s r stWrongState s.twin.state
    else
      let s1 := acceptedWith s r (leBytes 1 7 ++ zeros 7 ++ leBytes 8 s.twin.partner)
      let s2 := twinTo (setTwin s1 { s1.twin with detach := some r.op }) 7
      if s.serving.mode = 1 then s2 else detachStep s2

/-! ### Quarantine (R418) -/

def dieOp (s : State) (d : Nat) : Option DieOp := (s.twin.dieOps.find? (fun p => p.1 == d)).map (·.2)
def setDieOp (s : State) (d : Nat) (o : DieOp) : State := setTwin s { s.twin with dieOps := tput s.twin.dieOps d o }
def dropDieOp (s : State) (d : Nat) : State := setTwin s { s.twin with dieOps := tdel s.twin.dieOps d }
def setDie (s : State) (d : Nat) (c : DieCond) : State := { s with dies := tput s.dies d c }

/-- What refuses a DIE_CTRL, if anything (R88, R419). -/
def dieCtrlRefusal (s : State) (d : Nat) (want other : DieCond) : Option (Nat × Nat) :=
  if dieCond s d = want || dieCond s d ≠ other then some (stWrongState, dieCode (dieCond s d))
  else if want = .quarantined && s.serving.mode = 2 && s.tenants.any (fun p => tget 0 p.2.cfg.len d ≠ 0) then some (stWrongState, 1)
  else if s.serving.swap.isSome then some (stBusy, 0x0202)
  else if (dieOp s d).isSome then some (stBusy, 0x0703)
  else none

/-- DIE_QUARANTINE (R88, R418). -/
def execDieQuarantine (who : Issuer) (s : State) : Host.Outcome State Fault Refusal := whenLive s <|
  serve who 0x0703 (some (1, 1)) s (awake fun r s =>
    let d := field r.payload 0 1
    match dieCtrlRefusal s d .quarantined .inService with
    | some e => refuse s r e.1 e.2
    | none =>
      let ms := field r.payload 4 4
      accepted (setDieOp (wakeDie s d) d { op := r.op, back := false, drainMs := if ms = 0 then setting s idSwapMaxDrain else ms }) r)

/-- A session has its home or a row on a stack. -/
def onStack (x : Session) (d : Nat) : Bool := x.home = d || x.rowMap.any fun r => r.2.stack == d
def sessionsOn (s : State) (d : Nat) : List Nat := ((liveSessions s).filter fun p => onStack p.2 d).map (·.1)

/-- The other stacks of a stack's half that take what is moved from it. -/
def moveTargets (s : State) (d : Nat) : List Nat := (halfStacks s (decide (d < 4))).filter fun k => k != d && !dieDraining s k

/-- Moves a session's rows off a stack, and its home (R418). -/
def moveOff (s : State) (n d : Nat) : Option State :=
  let to_ := moveTargets s d
  match moveRows s n [d] to_, mostFree s to_ with
  | some s1, some st =>
    let x := session s1 n
    some (relocated (setSession s1 n { x with home := if x.home = d then st else x.home }))
  | _, _ => none

/-- One session or shadow of a draining die: moved, freed with SH_NAK, handed to the twin, or left; after MAX_DRAIN_MS it is ended
(R418). -/
def drainSession (s : State) (d : Nat) (expired : Bool) (n : Nat) : State :=
  let x := session s n
  if x.state = .shadow then
    match moveOff s n d with
    | some s1 => s1
    | none => nakShadow s n 0
  else match (if x.resv = .none then moveOff s n d else none) with
    | some s1 => s1
    | none =>
      if x.resv = .none && isMirrored x && !x.mirrorLost && s.twin.state = 2 then handOver s n
      else if expired then loseSession s n stPoolEmpty d
      else s

/-- Index of the latest record of a code in a log, as a DETAIL (R525). -/
def lastIndex (s : State) (n code : Nat) : Nat := match (errLog s n).recs.reverse.find? (fun r => r.code == code) with
  | some r => r.index % 65536
  | none => 0

def dieQueues (s : State) (d : Nat) : List Nat :=
  (s.eng.queues.filter fun p => engineDie p.2.engine p.2.inst == d && (p.2.state == .opened || p.2.state == .closing)).map (·.1)

/-- The command that an engine's stop is reported at: the oldest that has not completed, or the next one. -/
def stopCmd (x : Queue) : Cmd := match x.cmds with
  | c :: _ => c
  | [] => { index := x.head, bytes := [], epoch := x.epoch, gen := 0 }

/-- Every queue of a die stops with an error record that names the quarantine entry of its owner's log (R159, R418). -/
def stopQueues (s : State) (d : Nat) : State :=
  (dieQueues s d).foldl (fun s q =>
    let x := queue s q
    errorStop s q (stopCmd x) { status := stDeviceError, detail := lastIndex s x.owner 0x1035, error := true }) s

/-- DIE_QUARANTINE records for the PF and the VFs whose queues stop (R521). -/
def quarantineRecords (s : State) (d arg : Nat) : State :=
  let owners := ((dieQueues s d).map fun q => (queue s q).owner).eraseDups.filter (· != 0)
  let r : ErrRec := { code := 0x1035, cls := 6, source := 8, die := d, unit := d, arg := arg }
  owners.foldl (fun s v => logErr s v { r with inst := v }) (logErr s 0 r)

/-- The die becomes quarantined: it leaves a change of the epoch, and DIE_STATE is written (R69, R82). -/
def leaveService (s : State) (d : Nat) : State := eventTo (epochLeave (setDie s d .quarantined) d) 0 0 0x0009 d 2 0 0

/-- Nothing of a draining die is left to wait for: no session, no started command of its queues, no block or turn of a launch. -/
def drained (s : State) (d : Nat) : Bool :=
  (sessionsOn s d).isEmpty && (dieQueues s d).all (fun q => (queue s q).cmds.all fun c => c.stage == CmdStage.fetched)
    && !s.eng.launches.any fun l => launchOn s l d

/-- What a step boundary does for a draining die; the drain ends when nothing is left (R418). -/
def drainDie (s : State) (d : Nat) : State := match dieOp s d with
  | none => s
  | some o =>
    if o.back || s.serving.step.isSome then s
    else
      let s1 := (sessionsOn s d).foldl (fun s n => drainSession s d o.expired n) s
      if drained s1 d then opDone (dropDieOp (leaveService (stopQueues (quarantineRecords s1 d 0) d) d) d) o.op stOk 0 else s1

/-- QUARANTINE_DRAIN_COMPLETE (R418): at a step boundary. -/
def execQuarantineDrainComplete (d : DieNo) (s : State) : Host.Outcome State Fault Refusal := whenLive s <|
  if pcfUp s then .next (drainDie s d.val) else .next s

/-- QUARANTINE_DRAIN_EXPIRY (R418): what remains at the next step boundary ends. -/
def execQuarantineDrainExpiry (d : DieNo) (s : State) : Host.Outcome State Fault Refusal := whenLive s <|
  match dieOp s d.val with
  | some o => if o.back || !pcfUp s then .next s else .next (drainDie (setDieOp s d.val { o with expired := true }) d.val)
  | none => .next s

/-! ### Immediate quarantine (R420, R531) -/

/-- A session of a die that fails: a mirrored one is promoted by the partner, others end, and shadows are freed (R420). -/
def failSession (s : State) (n : Nat) : State :=
  let x := session s n
  if x.state = .shadow then nakShadow s n 2
  else if isMirrored x && !x.mirrorLost && paired s && (twinPort s x.home).isSome then
    let s1 := freeSession (abandonResv (endFilling (endTurn s n stWrongState 0) n) n) n
    twnSend s1 x.home (twnMsg s1 11 n 0 [])
  else loseSession s n stDeviceError (lastIndex s x.owner 0x1035)

/-- Launches with blocks to start or running on a die that fails stop by the steps of R199. -/
def stopLaunches (s : State) (d : Nat) : State :=
  (s.eng.launches.filter fun l => launchOn s l d).foldl (fun s l => match l.2.stopping with
    | some _ => s
    | none => setLaunch s l.1 { l.2 with stopping := some { status := stDeviceError, error := true,
                                                            detail := lastIndex s (queue s l.2.queue).owner 0x1035 } }) s

/-- The turn that a queue's command carries leaves its session. -/
def dropTurns (s : State) (q : Nat) : State :=
  (liveSessions s).foldl (fun s p => match p.2.turn with
    | some t => if t.queue = q then endTurn s p.1 stDeviceError 0 else s
    | none => s) s

/-- A queue of a die that fails: its commands end without a record of their own, and it stops at the oldest of them. -/
def failQueue (s : State) (q : Nat) : State :=
  let x := queue s q
  let c := stopCmd x
  let s1 := dropTurns s q
  let s2 := { s1 with
    memWaits := s1.memWaits.filter fun w => match w.who with
      | .cmd q' _ => q' != q
      | .thread _ _ _ _ => true
    xlat := { s1.xlat with susp := s1.xlat.susp.filter fun e => e.queue != q } }
  errorStop (setQueue s2 q { queue s2 q with cmds := [] }) q c
    { status := stDeviceError, detail := lastIndex s x.owner 0x1035, error := true }

/-- An uncontained error confined to a die, after its own record: the die is quarantined at once (R420). -/
def quarantineNow (s : State) (d : Nat) : State :=
  if !dieInService s d || s.err.fatal then s
  else
    let s1 := stopLaunches (quarantineRecords s d 1) d
    let s2 := (dieQueues s1 d).foldl failQueue s1
    let s3 := (sessionsOn s2 d).foldl failSession s2
    let s4 := leaveService s3 d
    match dieOp s4 d with
    | some o => opDone (dropDieOp s4 d) o.op stOk 0
    | none => s4

/-- UNCONTAINED_DIE_ERROR (R420, R521, R531). An error of a cluster has SOURCE 1; one of the slice or of the Die Agent, which has no code
of its own, SOURCE 2 (log entry 53). -/
def execUncontainedDieError (d : DieNo) (cluster : Option (Fin 8)) (unit : DWord) (s : State) : Host.Outcome State Fault Refusal := whenLive s <|
  let u := match cluster with
    | some c => c.val
    | none => 0xFF
  let src := if cluster.isSome then 1 else 2
  if dieCond s d.val = .notDiscovered then .next s
  else .next (quarantineNow (logErr s 0 { code := 0x1040, cls := 3, source := src, die := d.val, unit := u, arg := unit.toNat }) d.val)

/-- UNCONTAINED_PACKAGE_ERROR (R532). An error in the SCP stops PCF. -/
def execUncontainedPackageError (unit : DWord) (scpStops : Bool) (s : State) : Host.Outcome State Fault Refusal := whenLive s <|
  let s1 := if scpStops then { s with start := { s.start with pcfRunning := false } } else s
  .next (fatalStop s1 { code := 0x1043, cls := 4, source := 0, arg := unit.toNat })

/-! ### Return to service (R421) -/

/-- DIE_RETURN_TO_SERVICE (R88, R421). -/
def execDieReturnToService (who : Issuer) (s : State) : Host.Outcome State Fault Refusal := whenLive s <|
  serve who 0x0703 (some (1, 2)) s (awake fun r s =>
    let d := field r.payload 0 1
    match dieCtrlRefusal s d .inService .quarantined with
    | some e => refuse s r e.1 e.2
    | none => accepted (setDieOp (wakeDie s d) d { op := r.op, back := true, drainMs := 0 }) r)

/-- RETURN_TO_SERVICE_COMPLETE (R421): the window closes, the epochs are staged, and the stack's pool is formed anew. -/
def execReturnToServiceComplete (d : DieNo) (s : State) : Host.Outcome State Fault Refusal := whenLive s <|
  match dieOp s d.val with
  | none => .next s
  | some o =>
    if !o.back || !pcfUp s then .next s
    else
      let s1 := { s with windows := s.windows &&& ~~~BitVec.ofNat 9 (2 ^ (1 + d.val)) }
      let s2 := epochJoin (setDie s1 d.val .inService) d.val
      let s3 := if s.serving.mode = 1 && (bundleAt s2 d.val).isSome then formPools s2 [d.val] else s2
      .next (opDone (eventTo (dropDieOp s3 d.val) 0 0 0x0009 d.val 1 0 0) o.op stOk 0)

end Sys2Proof.Machine
end

