-- ==== Sys2Proof/Machine/Power.lean ====
section
/-!
DEFINITION. Sleep and wake of clusters, C-dies, the SCP and the package, droops and the thermal trip (R89, R90, R449 to R464).
-/

namespace Sys2Proof.Machine

/-! ### Clusters (R450, R451). Cluster K of die D is number 8·D + K. -/

/-- Cores of a cluster that hold anything. -/
def clusterCores (s : State) (k : Nat) : List (Nat × Core) := s.cores.filter fun p => p.1 / 64 == k

/-- Nothing of a core is under way (R450). -/
def coreIdle (x : Core) : Bool :=
  x.groups.isEmpty && x.accs.isEmpty && x.storeQ.isEmpty && x.reqs.isEmpty && x.wbs.isEmpty && (mtxAll x).isEmpty

/-- No group is resident on a cluster, and nothing of it is in flight (R450). -/
def clusterIdle (s : State) (k : Nat) : Bool :=
  (clusterCores s k).all (fun p => coreIdle p.2) && !s.posted.any fun p => p.core / 64 == k

/-- CLUSTER_CLOCK_GATE (R450). -/
def execClusterClockGate (k : Fin 64) (s : State) : Host.Outcome State Fault Refusal := whenLive s <|
  if clusterPwr s k.val = .run && clusterIdle s k.val then .next (setCluster s k.val .cg) else .next s

/-- Lines that a cluster's L1s hold, or that name its cores in the directory. -/
def clusterLines (s : State) (k : Nat) : List Nat :=
  ((clusterCores s k).flatMap (fun p => p.2.l1.map (·.line))
    ++ (s.uc.dir.filter fun e => match e.2.st with
        | .o x => x / 64 == k
        | .s l => l.any fun c => c / 64 == k
        | .coarse v => bit v k).map (·.1)).eraseDups

/-- The cluster's cores leave a line's directory entry; an owner's dirty sectors go to the home first (R282, R451). -/
def leaveLine (s : State) (k l : Nat) : State :=
  let s1 := match dirSt s l with
    | some (.o x) =>
      if x / 64 = k then dirFree (wakeWaits (pullOwner (wakeDie s (sliceOf l)) l x false) (lineAddr l) 128) l else s
    | some (.s cs) =>
      let rest := cs.filter fun c => c / 64 != k
      if rest.isEmpty then dirFree s l else if rest = cs then s else dirPut s l (.s rest)
    | some (.coarse v) =>
      let rest := if bit v k then v - 2 ^ k else v
      if rest = 0 then dirFree s l else if rest = v then s else dirPut s l (.coarse rest)
    | none => s
  (clusterCores s1 k).foldl (fun s p => if p.2.l1.any (·.line == l) then setCore s p.1 (dropL1 (coreAt s p.1) l) else s) s1

/-- Write-back, loss of the bank tags, and the cluster's power goes (R451). -/
def gateCluster (s : State) (k : Nat) : State :=
  let s1 := (clusterLines s k).foldl (fun s l => leaveLine s k l) s
  let s2 := (clusterCores s1 k).foldl (fun s p => setCore s p.1 { coreAt s p.1 with banks := [], intTiles := [], intLs := [] }) s1
  setCluster s2 k .pg

/-- CLUSTER_POWER_GATE (R451). What still runs on the cluster's lines runs to its end first; where that wakes the cluster, the entry is
abandoned (R459). -/
def execClusterPowerGate (k : Fin 64) (s : State) : Host.Outcome State Fault Refusal := whenLive s <|
  if clusterPwr s k.val ≠ .cg || setting s idPwrPgIdle = 0 || k.val % 8 < setting s idPwrAwakeClusters then .next s
  else
    let s1 := (clusterLines s k.val).foldl settle s
    if clusterPwr s1 k.val = .cg && clusterIdle s1 k.val then .next (gateCluster s1 k.val) else .next s1

/-- CLUSTER_WAKE_COMPLETE (R449). -/
def execClusterWakeComplete (k : Fin 64) (s : State) : Host.Outcome State Fault Refusal := whenLive s <|
  if clusterPwr s k.val = .waking then .next (setCluster s k.val .run) else .next s

/-! ### C-dies (R452, R453) -/

/-- A Lenot message whose destination is a node is on its way. -/
def lenotFor (s : State) (n : Nat) : Bool :=
  s.lnt.inbox.any (fun p => p.1 == n)
    || s.lnt.changes.any (fun c => c.held.any fun m => m.dst.val == n)
    || (List.range 9).any fun src => (List.range 6).any fun c => inNetwork s src n c

/-- The conditions of R452 for a die. -/
def dieIdle (s : State) (d : Nat) : Bool :=
  (List.range 8).all (fun k => clusterPwr s (8 * d + k) == .pg)
    && s.eng.queues.all (fun p => engineDie p.2.engine p.2.inst != d || (p.2.cmds.isEmpty && p.2.head == p.2.tail))
    && !s.eng.launches.any (fun l => launchOn s l d)
    && !s.sess.slots.any (fun p => p.1 / 64 == d)
    && !s.uc.txns.any (fun p => sliceOf p.1 == d) && !s.uc.waitq.any (fun m => sliceOf m.line == d)
    && !s.uc.msgs.any (fun m => sliceOf m.line == d)
    && !lenotFor s d && s.serving.step.isNone && !testing s 2 d

def setSelfRefresh (s : State) (d : Nat) (on : Bool) : State :=
  { s with hbm := tput s.hbm d { tget {} s.hbm d with selfRefresh := on } }

/-- The idle Lenot links of a node go to sleep. -/
def sleepLinks (s : State) (n : Nat) : State :=
  (List.range 3).foldl (fun s p =>
    let k := portKey n p
    match peerKey k with
    | some j => if (lntPort s k).state = 2 && idlePort (lntPort s k) && idlePort (lntPort s j) then sleepBoth s k j else s
    | none => s) s

/-- A die that the package has and that has not failed at start. -/
def diePresent (s : State) (d : Nat) : Bool := dieInService s d || dieCond s d == .quarantined

/-- DIE_RETENTION_ENTRY (R452). -/
def execDieRetentionEntry (d : DieNo) (s : State) : Host.Outcome State Fault Refusal := whenLive s <|
  if diePresent s d.val && dieAwake s d.val && setting s idPwrRetIdle ≠ 0 && dieIdle s d.val then
    .next (sleepLinks (setSelfRefresh (setDiePwr s d.val .retention) d.val true) d.val)
  else .next s

/-- A held host request can be performed: a BAR2 access once its die is awake, any other at once. -/
def heldReady (s : State) : HostOp → Bool
  | .bar2 a _ _ => dieAwake s (a / 2 ^ 36 % 8)
  | .mbxCmd _ _ => true
  | .tail _ _ _ _ => true
  | .regWrite _ _ _ _ => true

/-- Performs a host request that was held. -/
def runHostOp (s : State) : HostOp → State
  | .bar2 a n d => bar2Perform s a n d
  | .mbxCmd fn c => if c = 1 then goMbx s fn else if c = 2 then ackMbx s fn else cancelMbx s fn
  | .tail fn slot v be => doorbell s fn slot v be
  | .regWrite fn a w be => bar0Write s fn a w be

/-- Performs held host requests in order of arrival up to the first that must still wait; the rest stay held. -/
def serveHeldList (s : State) : List HostOp → State
  | [] => { s with power := { s.power with held := [] } }
  | h :: t => if heldReady s h then serveHeldList (runHostOp s h) t else { s with power := { s.power with held := h :: t } }

/-- Serves what is held, in order of arrival (R55, R453, R457). -/
def serveHeld (s : State) : State := serveHeldList s s.power.held

/-- DIE_WAKE_COMPLETE (R453). -/
def execDieWakeComplete (d : DieNo) (s : State) : Host.Outcome State Fault Refusal := whenLive s <|
  if diePwr s d.val = .waking && !s.power.deep then .next (serveHeld (setSelfRefresh (setDiePwr s d.val .awake) d.val false))
  else .next s

/-! ### The SCP (R454) -/

/-- PCF has no work. -/
def pcfIdle (s : State) : Bool :=
  let c := s.cleat
  s.start.phase = .ready && s.mbxs.all (fun p => p.2.held.isEmpty) && c.frames.isEmpty && c.reqs.isEmpty && c.running.isEmpty
    && c.sends.isEmpty && c.writing.isEmpty && c.rx.isEmpty && s.err.notices.isEmpty && (acceptedOps s).isEmpty && s.serving.step.isNone
    && s.serving.admq.isEmpty && s.serving.prefill.isEmpty && s.serving.retire.isEmpty && s.sess.table.all (fun p => p.2.turn.isNone)
    && ! [1, 4, 5, 7].contains s.twin.state && s.settings.epoch.phase = 0 && s.hws.inbox.isEmpty

/-- SCP_HALT (R454). -/
def execScpHalt (s : State) : Host.Outcome State Fault Refusal := whenLive s <|
  if s.start.pcfRunning && pcfIdle s then .next { s with power := { s.power with scp := false } } else .next s

/-- SCP_WAKE (R454). -/
def execScpWake (s : State) : Host.Outcome State Fault Refusal := whenLive s <| .next (wakeScp s)

/-! ### Deep idle (R89, R90, R455 to R457) -/

/-- Work that refuses a deep idle: unfetched commands, or a session that is not free (R90). -/
def workRemains (s : State) : Bool :=
  s.eng.queues.any (fun p => p.2.head != p.2.tail) || !(liveSessions s).isEmpty

/-- ENTER_DEEP_IDLE (R90, R455). -/
def execEnterDeepIdle (who : Issuer) (s : State) : Host.Outcome State Fault Refusal := whenLive s <|
  serve who 0x0801 (some (0, 1)) s fun r s =>
    if workRemains s then refuse s r stBusy 0
    else okWith (if s.power.deep then s else { s with power := { s.power with entering := true } }) r []

/-- WAKE_TO_IDLE (R456). -/
def execWakeToIdle (who : Issuer) (s : State) : Host.Outcome State Fault Refusal := whenLive s <|
  serve who 0x0801 (some (0, 2)) s fun r s => okWith (wakePackage s) r []

/-- DEEP_IDLE_AUTO_ENTRY (R455): every C-die in RETENTION. PCF's own timer wakes the SCP (R454). -/
def execDeepIdleAutoEntry (s : State) : Host.Outcome State Fault Refusal := whenLive s <|
  if setting s idPwrDeepAuto ≠ 0 && s.start.phase = .ready && s.start.pcfRunning && !s.power.deep && !workRemains s
      && (List.range 8).all (fun d => !diePresent s d || diePwr s d == .retention) then
    .next { s with power := { s.power with entering := true, scp := true } }
  else .next s

/-- Every started command and every ACCEPTED operation has ended (R455, step 1). -/
def entryClear (s : State) : Bool :=
  s.eng.queues.all (fun p => p.2.cmds.isEmpty) && s.eng.launches.isEmpty && (acceptedOps s).isEmpty && s.serving.step.isNone

/-- Every slice writes its dirty sectors back and is emptied (R455, step 3). -/
def flushSlices (s : State) : State :=
  let s1 := ((s.uc.txns.map (·.1)) ++ (s.uc.msgs.map (·.line))).foldl settle s
  let s2 := (List.range 64).foldl gateCluster s1
  let s3 := (s2.uc.lines.map (·.1)).foldl writeBack s2
  { s3 with uc := {} }

/-- DEEP_IDLE_ENTRY_COMPLETE (R455): one step. A wake event abandons the entry before it (R459). -/
def execDeepIdleEntryComplete (s : State) : Host.Outcome State Fault Refusal := whenLive s <|
  if s.power.entering && entryClear s then
    let ds := (List.range 8).filter (diePresent s)
    let s1 := flushSlices s
    let s2 := ds.foldl (fun s d => sleepLinks (setSelfRefresh (setDiePwr s d .deep) d true) d) s1
    .next { s2 with power := { s2.power with entering := false, deep := true, waking := false, scp := !pcfIdle s2 } }
  else .next s

/-- PACKAGE_WAKE_COMPLETE (R456, R457): each slice is empty, each stack keeps its contents, and what waited is served in order. -/
def execPackageWakeComplete (s : State) : Host.Outcome State Fault Refusal := whenLive s <|
  if s.power.deep && s.power.waking then
    let ds := (List.range 8).filter (diePresent s)
    let s1 := ds.foldl (fun s d => setSelfRefresh (setDiePwr s d .awake) d false) s
    let s2 := { s1 with power := { s1.power with deep := false, waking := false, scp := true } }
    .next (serveHeld (bump s2 pwrWakeCnt))
  else .next s

/-! ### Droops and temperature (R461, R463, R464) -/

/-- CORE_RAIL_DROOP (R461): an uncontained error confined to the die. -/
def execCoreRailDroop (k : Fin 64) (s : State) : Host.Outcome State Fault Refusal := whenLive s <|
  let d := k.val / 8
  if !diePresent s d then .next s
  else
    let s1 := setReg (orReg s pwrErr 2) pwrDroopLast (BitVec.ofNat 32 (2 ^ 31 + k.val))
    .next (quarantineNow (logErr s1 0 { code := 0x1041, cls := 3, source := 9, die := d, unit := k.val % 8 }) d)

/-- The trip engages (R463): `n` is the die of the sensor, 8 for the hub. -/
def engageTrip (s : State) (n : Nat) : State :=
  let s1 := bumpBy (orReg s pwrErr 1) pwrTripCnt 16 1
  let s2 := { s1 with power := { s1.power with trip := true, tripSource := n, trips := s1.power.trips + 1, coreMhz := 400 } }
  logErr s2 0 { code := 0x1042, cls := 6, source := 9, die := n, arg := tjMax s2 }

/-- THERMAL_SENSOR_SAMPLE (R463, R464): the highest sensor of each C-die and of the hub, in 0.1 °C. -/
def execThermalSensorSample (temps : List Nat) (s : State) : Host.Outcome State Fault Refusal := whenLive s <|
  let s1 := { s with power := { s.power with tj := (List.range 9).foldl (fun t n => tput t n (temps.getD n 0)) [] } }
  let hi := tjMax s1
  let s2 := if 1100 ≤ hi && !s.power.trip then engageTrip s1 (((List.range 9).find? fun n => tj s1 n == hi).getD 8) else s1
  let s3 := { s2 with power := { s2.power with releasing := s2.power.trip && decide (hi < 1000) } }
  if 1250 ≤ hi then
    .next { s3 with power := { s3.power with shutdown := true, scp := false }, board := { s3.board with thermShdn := true } }
  else .next s3

/-- THERMAL_TRIP_RELEASE (R463): the clock returns to PWR_CORE_MHZ. -/
def execThermalTripRelease (s : State) : Host.Outcome State Fault Refusal := whenLive s <|
  if s.power.trip && s.power.releasing then
    .next { s with power := { s.power with trip := false, releasing := false, coreMhz := setting s idPwrCoreMhz } }
  else .next s

end Sys2Proof.Machine
end

