-- ==== Sys2Proof/Machine/Start.lean ====
section
/-!
DEFINITION. Package reset, the start sequence, the flash controller, and a restart of PCF (R54, R65, R466 to R495, R543 to R547).
-/

namespace Sys2Proof.Machine

/-! ### Package reset (R466, R487) -/

/-- An erase that a reset cuts short has erased a part of its block, from the start; how much is a free value (log entry 1). -/
def erasePart (s : State) (a : Nat) : State :=
  let (s1, n) := takeFree s
  let b := a - a % 65536
  setFlash s1 (s1.flash.bytes.filter fun c => !(b ≤ c.1 && c.1 < b + n % 65537))

/-- A page program that a reset cuts short has programmed a part of the page. -/
def programPart (s : State) (a : Nat) (bs : List Byte) : State :=
  let (s1, n) := takeFree s
  flashProgram s1 a (bs.take (n % 4097))

/-- SFC_BUF. -/
def sfcBytes (s : State) : List Byte := (List.range 4096).map fun i => tget 0 s.sfc.buf i

/-- What a reset cuts short in the flash. -/
def abortFlash (s : State) : State :=
  let s1 := match s.flash.erasing with
    | some a => erasePart s a
    | none => s
  match s1.sfc.running with
  | some c => if c.cmd = 2 then programPart s1 c.addr (sfcBytes s) else if c.cmd = 3 then erasePart s1 c.addr else s1
  | none => s1

/-- Everything returns to its reset state but the fuses, the flash and the retirement lists in it; host memory, the board and the
boundary-scan port are no part of the reset (R466, R538). -/
def resetState (s : State) : State :=
  let s1 := abortFlash s
  { State.reset with
    fuse := s1.fuse
    board := s1.board
    flash := { s1.flash with erasing := none }
    hbm := (s1.hbm.filter fun p => !p.2.retired.isEmpty).map fun p => (p.1, { retired := p.2.retired })
    hostMem := s1.hostMem
    jtag := s1.jtag
    free := s1.free
    out := s1.out
    pending := s1.pending }

/-- A cause of package reset lasts (R543 to R546). -/
def inReset (s : State) : Bool := !s.board.powered || s.board.resetN || s.board.brownout || s.board.refclkLost

/-- The boundary-scan port has taken the single-ended balls from normal function (R538). -/
def ballsTaken (s : State) : Bool := s.jtag.ir == .extest || s.jtag.ir == .clamp

/-- Reset ends: HUB_TIME counts from here, and the start watchdog runs (R59, R474). -/
def beginStart (s : State) : State := { s with hubTime := 0, start := { watchdog := true } }

/-- What passes where no command waits: one always-on cycle of HUB_TIME, in a package that is out of reset and has not shut down
(R59, log entry 4). -/
def idle (s : State) : State := if inReset s || s.power.shutdown then s else { s with hubTime := s.hubTime + 1 }

/-- The end of a reset under R544, R545 or R546: when no cause remains, the straps are latched and the start begins. -/
def leaveReset (s : State) (rstSel : Bool) (tmode : BitVec 2) : State :=
  if inReset s then s else beginStart { s with board := { s.board with rstSel := rstSel, tmode := tmode } }

/-- POWER_ON (R466, R543, R547): the supplies rise in order, with RESET_N low. -/
def execPowerOn (s : State) : Host.Outcome State Fault Refusal :=
  .next { resetState s with board := { powered := true, resetN := true }, jtag := {} }

/-- RESET_N_ASSERT (R466, R546), with the time that the ball stays low. A pulse from 1 µs to 10 µs resets or is ignored, by a free
value. -/
def execResetNAssert (lowNs : Nat) (s : State) : Host.Outcome State Fault Refusal :=
  if ballsTaken s || !s.board.powered || s.board.resetN || lowNs < 1000 then .next s
  else
    let held (s : State) : State := { resetState s with board := { s.board with resetN := true } }
    if 10000 ≤ lowNs then .next (held s)
    else
      let (s1, n) := takeFree s
      .next (if n % 2 = 0 then held s1 else s1)

/-- RESET_N_RELEASE (R467, R546), with the strap balls' levels. -/
def execResetNRelease (rstSel : Bool) (tmode : BitVec 2) (s : State) : Host.Outcome State Fault Refusal :=
  if s.board.powered && s.board.resetN && !ballsTaken s then .next (leaveReset { s with board := { s.board with resetN := false } } rstSel tmode)
  else .next s

/-- PERST_ASSERT (R32, R466, R546): with RST_SEL 1 a package reset, whose release follows; with RST_SEL 0 a link-down reset. RESET_N's
reset wins over it. -/
def execPerstAssert (s : State) : Host.Outcome State Fault Refusal :=
  if inReset s || ballsTaken s then .next s
  else if s.board.rstSel then .next (beginStart (resetState s)) else .next (functionReset s)

/-- VDD_AON_BROWNOUT (R544): the boundary-scan port loses its supply too. -/
def execVddAonBrownout (s : State) : Host.Outcome State Fault Refusal :=
  if s.board.powered then .next { resetState s with board := { s.board with brownout := true }, jtag := {} } else .next s

/-- VDD_AON_RECOVERY (R544, R546). -/
def execVddAonRecovery (rstSel : Bool) (tmode : BitVec 2) (s : State) : Host.Outcome State Fault Refusal :=
  if s.board.brownout then .next (leaveReset { s with board := { s.board with brownout := false } } rstSel tmode) else .next s

/-- REFCLK25_LOSS (R545). -/
def execRefclk25Loss (s : State) : Host.Outcome State Fault Refusal :=
  if s.board.powered then .next { resetState s with board := { s.board with refclkLost := true } } else .next s

/-- REFCLK25_RETURN (R545, R546). -/
def execRefclk25Return (rstSel : Bool) (tmode : BitVec 2) (s : State) : Host.Outcome State Fault Refusal :=
  if s.board.refclkLost then .next (leaveReset { s with board := { s.board with refclkLost := false } } rstSel tmode) else .next s

/-- The status balls that are asserted (R547): THERM_SHDN_N and FATAL_N driven low, READY driven high. -/
def statusBalls (s : State) : Bool × Bool × Bool := (s.board.thermShdn, s.err.fatal, s.start.phase == .ready)

/-! ### Phases (R467) -/

def setStart (s : State) (t : Start) : State := { s with start := t }
def toPhase (s : State) (p : Phase) : State := { s with start := { s.start with phase := p } }

/-- µs from reset release (STA_START_TIME). -/
def startUs (s : State) : Nat := (s.hubTime - s.start.releasedAt) / 25

/-- The start enters FAILED; with PCF started, MBX0 is ready (R479). -/
def failStart (s : State) (code : Nat) : State :=
  let s1 := setStart s { s.start with phase := .failed, result := .failed, failCode := BitVec.ofNat 8 code, startTime := startUs s }
  if s1.start.pcfRunning then setFwReady s1 0 true else s1

/-- RESET_PHASE_END (R467, R546): a test mode keeps phase RESET. -/
def execResetPhaseEnd (s : State) : Host.Outcome State Fault Refusal := whenLive s <|
  if s.start.phase = .reset && !inReset s && s.board.tmode = 0 then .next (toPhase s .rom) else .next s

/-- The stored Cleat settings in the port's registers (R517). -/
def applyCleat (s : State) : State :=
  let flow := storedValue s idCleatFlowEn
  let s1 := setReg s cleatBaud (BitVec.ofNat 32 (storedValue s idCleatBaudDiv))
  let s2 := setReg s1 cleatFmt (BitVec.ofNat 32 (1 + storedValue s idCleatParity * 4))
  let s3 := setReg s2 cleatAddrMatch (BitVec.ofNat 32 (0x6FF00 + storedValue s idCleatNodeAddr))
  setReg (orReg s3 cleatCtrl 8) cleatFlow (BitVec.ofNat 32 (flow * 0xC0000000 + 16 * 256 + 48))

/-- Steps 1 to 3 of R473. A CONFIRMED that names no bank leaves NEXT. -/
def chooseBank (s : State) : State × Bool :=
  let r := bootRec s
  if r.next ≠ r.confirmed && r.tries < 2 then (writeBoot s r.next (r.tries + 1) r.confirmed, r.next % 2 == 1)
  else (s, (if r.confirmed ≤ 1 then r.confirmed else r.next) % 2 == 1)

/-- ROM_PHASE_END (R467, R468, R473, R517): the hub is ready for configuration. -/
def execRomPhaseEnd (s : State) : Host.Outcome State Fault Refusal := whenLive s <|
  if s.start.phase = .rom then
    let (s1, b) := chooseBank s
    .next (applyCleat (setStart s1 { s1.start with phase := .secure, hubReady := true, bank := b }))
  else .next s

/-- The boot ROM starts the image of a bank. -/
def bootBank (s : State) (b fallback : Bool) : State :=
  setStart s { s.start with phase := .settings, pcfRunning := true, bank := b, fwFallback := fallback, secVersion := imageSec s b,
                            fwBuild := BitVec.ofNat 16 (imageBuild s b) }

/-- SECURE_PHASE_END (R467, R472, R473): the chosen bank, or the other, or RECOVERY with the hub window open (R493). -/
def execSecurePhaseEnd (s : State) : Host.Outcome State Fault Refusal := whenLive s <|
  if s.start.phase = .secure then
    let b := s.start.bank
    if imageValid s b then .next (bootBank s b false)
    else if imageValid s (!b) then .next (bootBank s (!b) true)
    else .next (toPhase { s with windows := s.windows ||| 1 } .recovery)
  else .next s

/-- Every setting at its stored value (R482 to R485). -/
def readSettings (s : State) : State :=
  let run := catalogue.foldl (fun t d => if storedValue s d.id = d.dflt then t else tput t d.id (storedValue s d.id)) []
  let once := (catalogue.filter fun d => d.writeOnce && (onceValue s d.id).isSome).map (·.id)
  let s1 := { s with settings := { s.settings with run := run, written := once } }
  let s2 := setStart s1 { s1.start with userBank := userBank s, userTorn := userTorn s 1 || userTorn s 2,
                                        setIgnored := ((userEntries s).filter (entryIgnored s)).length }
  { s2 with err := { s2.err with ceWindow := setting s2 idErrCeWindow }
            power := { s2.power with coreMhz := setting s2 idPwrCoreMhz }
            serving := { s2.serving with mode := setting s2 idPkgMode }
            twin := { s2.twin with state := if identWritten s2 then 8 else 0 } }

/-- Phase DIES begins: Lenot links and Hawser ports train (R356, R382, R480). -/
def beginDies (s : State) : State :=
  let s1 := (List.range 12).foldl (fun s l =>
    [(linkPorts l).1, (linkPorts l).2].foldl (fun s k => setLntPort s k { lntPort s k with state := 1 }) s) s
  toPhase ((List.range 8).foldl (fun s p => setHwsPort s p { hwsPort s p with state := 1 }) s1) .dies

/-- The CLAIM frame of R515. -/
def sendClaim (s : State) : State :=
  if nineBit s then cleatSend s [cleatChars (cleatOwn s) (cleatOwn s) 4 0 128 []] else s

/-- SETTINGS_PHASE_END (R407, R480, R482 to R485, R515, R517). -/
def execSettingsPhaseEnd (s : State) : Host.Outcome State Fault Refusal := whenLive s <|
  if s.start.phase = .settings && s.start.pcfRunning then
    let s1 := applyCleat (readSettings s)
    if factoryValid s then .next (sendClaim (beginDies s1)) else .next (failStart s1 2)
  else .next s

/-! ### Dies and stacks (R476 to R478) -/

/-- A die fails at start. -/
def failDie (s : State) (d : Nat) : State :=
  setStart (setDie s d .failedAtStart) { s.start with diesFailed := s.start.diesFailed ||| BitVec.ofNat 8 (2 ^ d) }

/-- DIE_DISCOVERY_TIMEOUT (R476). -/
def execDieDiscoveryTimeout (d : DieNo) (s : State) : Host.Outcome State Fault Refusal := whenLive s <|
  if s.start.phase = .dies && dieCond s d.val = .notDiscovered then .next (failDie s d.val) else .next s

/-- A die that the hub reaches and that has answered is discovered; one out of reach is failed at start (R26, R476). -/
def discoverDie (s : State) (d : Nat) : State :=
  if dieCond s d ≠ .notDiscovered then s
  else if (routeOf s 8 d).isNone then failDie s d
  else setStart (setDie s d .inService) { s.start with discovered := s.start.discovered ||| BitVec.ofNat 8 (2 ^ d) }

/-- The code with which a degraded start fails (R478). -/
def degradedFail (s : State) : Option Nat :=
  if (diesInService s).isEmpty then some 4
  else if s.start.diesFailed ≠ 0 && setting s idStartDegraded = 0 then some 5
  else none

/-- The next phase, or FAILED. -/
def goOn (s : State) (p : Phase) : State := match degradedFail s with
  | some c => failStart s c
  | none => toPhase s p

/-- Every link has ended its lane test. -/
def linksTested (s : State) : Bool := (List.range 12).all fun l => 2 ≤ (lntPort s (linkPorts l).1).state

/-- DIES_PHASE_END (R26, R344, R476, R478). -/
def execDiesPhaseEnd (s : State) : Host.Outcome State Fault Refusal := whenLive s <|
  if s.start.phase = .dies && s.start.pcfRunning && linksTested s then
    if [8, 9, 10, 11].any (linkUp s) then
      let s1 := { s with lnt := { s.lnt with routes := allRoutes s } }
      .next (goOn ((List.range 8).foldl discoverDie s1) .stackIds)
    else .next (failStart s 3)
  else .next s

/-- STACKS_PHASE_END (R304, R477, R478): every stack of a die in service has been trained and filled. -/
def execStacksPhaseEnd (s : State) : Host.Outcome State Fault Refusal := whenLive s <|
  let done := (diesInService s).all fun d => (tget {} s.stackIds d).cond == .inService && !(stackCtl s d).fill
  if s.start.phase = .stackIds && s.start.pcfRunning && done then .next (goOn s .service) else .next s

/-! ### READY and the watchdog (R469, R474) -/

/-- The pools of kernel mode (R92, R120). -/
def kernelPools (s : State) : State :=
  if s.serving.mode = 2 then
    (diesInService s).foldl (fun s d => sizePool s d (setting s idKvPoolMibKmode * 2 ^ 20 / (setting s idKvRowPages * 65536))) s
  else s

/-- FW_READY on MBX0 and on the mailbox of every enabled VF. -/
def allReady (s : State) : State :=
  ((List.range 64).filter fun n => fnEnabled s n && (tenant s n).resetting.isNone).foldl (fun s n => setFwReady s n true) s

/-- The running image is confirmed (R474). -/
def confirmImage (s : State) : State :=
  let b := b2n s.start.bank
  let s1 := writeBoot s b 0 b
  { s1 with fuse := { s1.fuse with fusedMin := max s1.fuse.fusedMin s1.start.secVersion }, start := { s1.start with confirmed := true } }

/-- READY_TRANSITION (R92, R120, R469, R474, R478, R492). -/
def execReadyTransition (s : State) : Host.Outcome State Fault Refusal := whenLive s <|
  if s.start.phase = .service && s.start.pcfRunning then
    let s1 := setStart s { s.start with phase := .ready, startTime := startUs s, watchdog := false,
                                        result := if s.start.diesFailed = 0 then .complete else .degraded }
    let s2 := confirmImage (allReady (kernelPools s1))
    .next (if s2.serving.mode = 0 then s2 else orReg s2 staTestCtrl (2 ^ 31))
  else .next s

/-- Registers whose counts and locks only a package reset ends: TNT_LOG_SYNC, PWR_TRIP_CNT and STA_TEST_CTRL (R447, R492, the tables of chapters 17 and 18). -/
def packageRegs : List Nat := [tntLogSync, pwrTripCnt, staTestCtrl]

/-- Back to phase ROM, with the PCIe link and configuration state kept; the watchdog runs again (R474). It is no package reset, so
what only a package reset ends stays: every mailbox's SEQ (R51), the error logs (R523), DUP_LOCK (R516) and the trips counted. -/
def romAgain (s : State) : State :=
  { resetState s with pcie := s.pcie, hubTime := s.hubTime, mbxs := s.mbxs.map fun p => (p.1, { seq := p.2.seq }),
                      err := s.err, regs := s.regs.filter (fun p => packageRegs.contains p.1),
                      cleat := { dupLock := s.cleat.dupLock }, power := { trips := s.power.trips },
                      start := { phase := .rom, hubReady := true, watchdog := true, releasedAt := s.start.releasedAt } }

/-- START_WATCHDOG_EXPIRY (R474). A start that has failed already keeps its code; RECOVERY waits for the flash. -/
def execStartWatchdogExpiry (s : State) : Host.Outcome State Fault Refusal := whenLive s <|
  let p := s.start.phase
  if !s.start.watchdog || inReset s || p = .ready || p = .recovery || s.board.tmode ≠ 0 then .next s
  else
    let booted := p ≠ .reset && p ≠ .rom
    let s1 := if p = .failed then s else failStart s 6
    if booted && b2n s.start.bank ≠ (bootRec s).confirmed then .next (romAgain s1)
    else .next (setStart s1 { s1.start with watchdog := false })

/-! ### The flash controller (R493 to R495) -/

/-- A command that the host writes into SFC_CMD: refused while the window is closed (R37) or a command runs. -/
def sfcCmd (s : State) (f : State → State) : State :=
  if !memSpaceOn s 0 then s
  else if !windowOpen s 0x471004 then hubError s 1 0x471004
  else if s.sfc.running.isSome then orReg s sfcStatus 2
  else f s

/-- SFC_ADDR, down to a multiple of the page or block size. -/
def sfcTarget (s : State) (size : Nat) : Nat :=
  let a := (reg s sfcAddr).toNat % 2 ^ 26
  a - a % size

/-- A PROGRAM or ERASE of the host is refused there (R494). -/
def flashProtected (s : State) (a : Nat) : Bool :=
  let bank (b : Bool) : Bool := flBank b ≤ a && a < flBank b + 0x1800000
  let c := (bootRec s).confirmed
  a < 0x20000 || (c = 0 && bank false) || (c = 1 && bank true)

/-- The command runs, or is refused under R494. -/
def sfcRun (s : State) (cmd size : Nat) : State :=
  let a := sfcTarget s size
  if cmd ≠ 1 && flashProtected s a then orReg s sfcStatus 4
  else { s with sfc := { s.sfc with running := some { cmd := cmd, addr := a } } }

/-- SFC_READ, SFC_PROGRAM and SFC_ERASE (R493, R494). -/
def execSfcRead (s : State) : Host.Outcome State Fault Refusal := whenLive s <| .next (sfcCmd s fun s => sfcRun s 1 4096)
def execSfcProgram (s : State) : Host.Outcome State Fault Refusal := whenLive s <| .next (sfcCmd s fun s => sfcRun s 2 4096)
def execSfcErase (s : State) : Host.Outcome State Fault Refusal := whenLive s <| .next (sfcCmd s fun s => sfcRun s 3 65536)

/-- The lower-numbered bank with a valid image. -/
def validBank (s : State) : Option Bool := [false, true].find? (imageValid s)

/-- SFC_REBOOT (R495). -/
def execSfcReboot (s : State) : Host.Outcome State Fault Refusal := whenLive s <|
  .next (sfcCmd s fun s =>
    if s.start.phase ≠ .recovery then s
    else match validBank s with
      | some b =>
        let s1 := writeBoot s (b2n b) 0 0xFF
        setStart { s1 with windows := s1.windows &&& ~~~1 } { s1.start with phase := .rom, watchdog := true }
      | none => s)

/-- What a PROGRAM leaves that reported a flash error: each bit that was to be cleared is a free value (log entry 1). -/
def badProgram (s : State) (a : Nat) (bs : List Byte) : State :=
  let got := (bs.zip (List.range bs.length)).map fun p => p.1 ||| (Config.freeWord (s.free + p.2)).setWidth 8
  { flashProgram s a got with free := s.free + bs.length }

/-- What an ERASE leaves that reported a flash error: each bit is set, or as it was. -/
def badErase (s : State) (a : Nat) : State :=
  let b := a - a % 65536
  let got := (List.range 65536).map fun i => flashByte s (b + i) ||| (Config.freeWord (s.free + i)).setWidth 8
  { flashProgram (flashErase s a) b got with free := s.free + 65536 }

/-- The effect of a command of the flash controller at its end. -/
def sfcEffect (s : State) (c : SfcCmd) (flashError : Bool) : State :=
  match c.cmd with
  | 1 =>
    let page := flashRead s c.addr 4096
    { s with sfc := { s.sfc with buf := (page.zip (List.range 4096)).foldl (fun t p => if p.1 = 0 then t else tput t p.2 p.1) [] } }
  | 2 => if flashError then orReg (badProgram s c.addr (sfcBytes s)) sfcStatus 8 else flashProgram s c.addr (sfcBytes s)
  | 3 => if flashError then orReg (badErase s c.addr) sfcStatus 8 else flashErase s c.addr
  | _ => s

/-- SFC_COMMAND_COMPLETE (R493). -/
def execSfcCommandComplete (flashError : Bool) (s : State) : Host.Outcome State Fault Refusal := whenLive s <|
  match s.sfc.running with
  | none => .next s
  | some c =>
    let s1 := sfcEffect s c flashError
    .next { s1 with sfc := { s1.sfc with running := none } }

/-! ### A restart of PCF (R54, R65, R82) -/

/-- A mailbox at a restart: FW_RESTART for the outstanding request, and nothing is held. -/
def restartMbx (s : State) (n : Nat) : State :=
  let m := mbx s n
  let s1 := match m.state, m.held.find? (fun h => m.outstanding = some (h.seq, h.hdr.tag)) with
    | .busy, some h => deliver s n (frameBytes h.hdr.opcode h.hdr.tag (hubFlags h.hdr) 0xF003 0 [])
    | _, _ => s
  setMbx s1 n { mbx s1 n with held := [], fwReady := false }

/-- A link whose test a restart ends returns to service. -/
def cutTest (s : State) (p : Nat × LinkTest) : State :=
  let k := p.1 / 16
  let l := p.1 % 16
  returnLink s k l p.2 [] []

/-- A pair or attach action goes back to where it started (R65, R407). -/
def cutForm (s : State) : State := match s.twin.act with
  | none => s
  | some a =>
    let s1 := if s.twin.state = 1 then twinTo (dropShadows s) a.prev else s
    setTwin s1 { s1.twin with act := none, syncSent := false, syncRcvd := false, peerReq := none }

/-- PCF_RESTART (R54, R65, R82, R534). An operation on a tenant ends with the effect that it had reached: the tenant keeps its state. -/
def execPcfRestart (s : State) : Host.Outcome State Fault Refusal := whenLive s <|
  if !s.start.pcfRunning then .next s
  else
    let ops := acceptedOps s
    let tests := s.linkTests
    let s1 := (s.mbxs.map (·.1)).foldl restartMbx s
    let s2 := cutForm s1
    let s3 := tests.foldl cutTest (endOps s2)
    let s4 := epochRestart { s3 with endedOps := s3.endedOps ++ ops }
    let c := { s4.cleat with frames := [], parts := [], reqs := [], running := [], kept := [], sends := [], writing := [], asm := [], gaps := [] }
    .next (setStart (setCleat s4 c) { s4.start with pcfRunning := false, restarting := true })

/-- PCF_RESTART_FW_READY (R54, R65, R469, R479). -/
def execPcfRestartFwReady (s : State) : Host.Outcome State Fault Refusal := whenLive s <|
  if !s.start.restarting then .next s
  else
    let s1 := setStart s { s.start with pcfRunning := true, restarting := false }
    let s2 := if s1.start.phase = .ready then allReady s1 else if s1.start.phase = .failed then setFwReady s1 0 true else s1
    .next (s2.endedOps.foldl (fun s op => opDone s op stWrongState 0xFFFF) { s2 with endedOps := [] })

end Sys2Proof.Machine
end

