-- ==== Sys2Proof/Machine/Cleat.lean ====
section
/-!
DEFINITION. The Cleat port: characters, address match, the FIFOs, bus access, frames, and what PCF and the twin unit make of them
(R497 to R518).
-/

namespace Sys2Proof.Machine

/-! ### The receive path (R498 to R502) -/

/-- A bit of CLEAT_CTRL: 0 TX_EN, 1 RX_EN, 2 MUTE, 3 AUTO_MUTE, 5 LOOP. -/
def cleatBit (s : State) (n : Nat) : Bool := (reg s cleatCtrl).getLsbD n
/-- The port changes MUTE (R499). -/
def setMute (s : State) (on : Bool) : State :=
  let s1 := setCleat s { s.cleat with muteAt := some s.hubTime }
  if on then orReg s1 cleatCtrl 4 else setReg s1 cleatCtrl (reg s1 cleatCtrl &&& ~~~(4 : Word))
def cleatError (s : State) (b : Nat) : State := orReg s cleatErr (2 ^ b)
/-- CLEAT_ERR.ENV. -/
def envError (s : State) : State := cleatError s 3

/-- A character for the receive FIFO (R501). -/
def enterFifo (s : State) (c : Nat) : State :=
  if 64 ≤ s.cleat.rx.length then bump (cleatError s 5) cleatDropCnt
  else rtsUpdate (setCleat s { s.cleat with rx := s.cleat.rx ++ [c] })

/-- An address character matches (R499). -/
def addrMatch (s : State) (c : Nat) : Bool :=
  let m := (reg s cleatAddrMatch).toNat
  ((c ^^^ bits m 0 8) &&& bits m 8 8) % 256 == 0 || (c == 0xFF && bit m 17)

/-- What was held back or under way ends at an address character; a frame of the twin unit that is cut short fails (R500, R510). -/
def cutFrame (s : State) : State :=
  let s1 := if s.cleat.into = 2 then envError s else s
  setCleat s1 { s1.cleat with hold := [], into := 0, twinAsm := [] }

/-- An address character (R499, R500). -/
def rxAddr (s : State) (c : Nat) : State :=
  let s1 := cutFrame s
  if addrMatch s (c % 256) then
    let s2 := setMute s1 false
    setCleat s2 { s2.cleat with hold := [c] }
  else if cleatBit s1 3 then setMute s1 true else s1

/-- Progress through a frame that goes into the FIFO. -/
def countChar (c : Cleat) (v : Nat) : Cleat :=
  let n := c.count + 1
  let left := if n = 6 then some (if v % 256 ≤ 48 then v % 256 + 2 else 0) else c.left.map (· - 1)
  { c with count := n, left := left, into := if left = some 0 then 0 else c.into }

/-- A character of a frame that the twin unit takes: a length other than 8 fails (R510, R513). -/
def twinChar (s : State) (v : Nat) : State :=
  let a := s.cleat.twinAsm ++ [v]
  if a.length = 6 && v % 256 ≠ 8 then envError (setCleat s { s.cleat with twinAsm := [], into := 3 })
  else if a.length = 16 then setCleat s { s.cleat with twinAsm := [], into := 3, twinIn := s.cleat.twinIn ++ [a] }
  else setCleat s { s.cleat with twinAsm := a }

/-- A data character in the receive path (R500). -/
def rxPath (s : State) (v : Nat) : State :=
  let c := s.cleat
  match c.hold with
  | [a] => setCleat s { c with hold := [a, v] }
  | [a, src] =>
    if v % 256 = 3 then setCleat s { c with hold := [], into := 2, twinAsm := [a, src, v] }
    else
      let s1 := setCleat s { c with hold := [], into := 1, count := 3, left := none }
      let s2 := enterFifo (enterFifo (enterFifo s1 a) src) v
      if (reg s2 cleatAddrMatch).getLsbD 18 then wakeScp s2 else s2
  | _ => match c.into with
    | 1 => enterFifo (setCleat s (countChar c v)) v
    | 2 => twinChar s v
    | 3 => s
    | _ => enterFifo s v

/-- A good character, after the checks of R498: in 8-bit format bit 8 is 0. One that is not discarded starts the gap timer of R510
again. -/
def rxChar (s : State) (c : Nat) : State :=
  let v := if nineBit s then c else c % 256
  let s1 := setCleat s { s.cleat with heardAt := some s.hubTime }
  if 256 ≤ v then rxAddr s1 v else if cleatBit s 2 then s else rxPath s1 v

/-- The line is busy again: a frame that waits for CLEAT_CTS_N needs a new wait (R504). -/
def lineHeard (s : State) : State := setCleat s { s.cleat with lineBusy := true, waitCts := false }

/-- The receiver hears the line: it is enabled, not looped back, and its ball is in normal function. -/
def hears (s : State) : Bool := cleatBit s 1 && !cleatBit s 5 && !ballsTaken s && !inReset s

/-- CLEAT_CHARACTER (R498 to R501): the character, and whether its stop bit reads 0 or its parity fails. -/
def execCleatCharacter (c : BitVec 9) (framing parity : Bool) (s : State) : Host.Outcome State Fault Refusal := whenLive s <|
  if !hears s then .next s
  else
    let s1 := lineHeard s
    if framing then .next (cleatError s1 0)
    else if parity && bits (reg s cleatFmt).toNat 2 2 ≠ 0 then .next (cleatError s1 1)
    else .next (rxChar s1 c.toNat)

/-- CLEAT_BREAK (R498). -/
def execCleatBreak (s : State) : Host.Outcome State Fault Refusal := whenLive s <|
  if hears s then .next (cleatError (lineHeard s) 2) else .next s

/-- CLEAT_GAP_EXPIRY (R10, R500, R510): what is held back or under way is discarded, unless a character completed in the same
always-on cycle. -/
def execCleatGapExpiry (s : State) : Host.Outcome State Fault Refusal := whenLive s <|
  let c := s.cleat
  if c.heardAt = some s.hubTime then .next s
  else if !c.hold.isEmpty then .next (envError (setCleat s { c with hold := [] }))
  else if c.into = 2 then .next (envError (setCleat s { c with twinAsm := [], into := 3 }))
  else if c.into = 1 then
    .next (envError (setCleat s (if c.rx.isEmpty then { c with asm := [], into := 0 } else { c with gaps := c.gaps ++ [c.rx.length], into := 0 })))
  else .next s

/-! ### Frames as PCF reads them (R508 to R511, R515) -/

/-- A frame passes the checks of R510 but the gap. -/
def busFrameGood (cs : List Nat) : Bool :=
  let bs : List Byte := cs.map (BitVec.ofNat 8 ·)
  let n := bs.length
  8 ≤ n && field bs 5 1 ≤ 48 && n == 8 + field bs 5 1 && 1 ≤ field bs 2 1 && field bs 2 1 ≤ 6
    && crc16 (bs.take (n - 2)) == field bs (n - 2) 2

def parseFrame (cs : List Nat) : CleatFrame :=
  let bs : List Byte := cs.map (BitVec.ofNat 8 ·)
  { dst := field bs 0 1, src := field bs 1 1, type := field bs 2 1, seq := field bs 3 1, seg := field bs 4 1,
    payload := (bs.drop 6).take (field bs 5 1) }

/-- A request's bytes are one mailbox frame (R509). -/
def wholeFrame (bs : List Byte) : Bool := 16 ≤ bs.length && bs.length == 16 + field bs 4 4

/-- A segment of a request (R509). A segment 0 starts anew; any other must follow the one before it. -/
def takeSegment (s : State) (f : CleatFrame) : State :=
  let rest := s.cleat.parts.filter fun p => p.src != f.src
  let ix := f.seg % 128
  let p : Option CleatReq :=
    if ix = 0 then some { src := f.src, seq := f.seq, broadcast := f.dst = 0xFF, next := 1, bytes := f.payload }
    else (s.cleat.parts.find? fun p => p.src == f.src && p.seq == f.seq && p.next == ix).map
      fun p => { p with next := ix + 1, bytes := p.bytes ++ f.payload }
  match p with
  | none => setCleat s { s.cleat with parts := rest }
  | some p =>
    if 128 ≤ f.seg then
      setCleat s { s.cleat with parts := rest, reqs := if wholeFrame p.bytes then s.cleat.reqs ++ [p] else s.cleat.reqs }
    else setCleat s { s.cleat with parts := rest ++ [p] }

/-- A frame that PCF has read whole. Frames that only a requester of this package could use are dropped. -/
def gotFrame (s : State) (cs : List Nat) : State :=
  if !busFrameGood cs then envError s
  else
    let f := parseFrame cs
    let s1 := bump s cleatFrameCnt
    if testing s 3 0 then s1
    else if f.src = cleatOwn s || f.type = 4 then setCleat s1 { s1.cleat with frames := s1.cleat.frames ++ [f] }
    else if f.type = 1 then takeSegment s1 f
    else s1

/-- PCF takes the next character of the receive FIFO. -/
def pcfChar (s : State) (v : Nat) : State :=
  let c := s.cleat
  if !nineBit s then setCleat s { c with asm := [] }
  else if 256 ≤ v then
    let s1 := setCleat s { c with asm := [v] }
    if c.asm.isEmpty then s1 else envError s1
  else if c.asm.isEmpty then s
  else
    let a := c.asm ++ [v]
    if a.length = 6 && 48 < v % 256 then envError (setCleat s { c with asm := [] })
    else if 6 ≤ a.length && a.length = 8 + a.getD 5 0 % 256 then gotFrame (setCleat s { c with asm := [] }) a
    else setCleat s { c with asm := a }

/-- The oldest entry is removed; a gap that is reached discards the frame that it cut (R501, R510). -/
def popRx (s : State) : State :=
  let c := s.cleat
  let gs := c.gaps.map (· - 1)
  rtsUpdate (setCleat s { c with rx := c.rx.drop 1, gaps := gs.filter (· != 0), asm := if gs.contains 0 then [] else c.asm })

/-- CLEAT_RX_DATA_READ (R88, R501): by the host, or by the SCP. CHAR of an empty FIFO is a free value. -/
def execCleatRxDataRead (host : Option (BitVec 4)) (s : State) : Host.Outcome State Fault Refusal := whenLive s <|
  match host with
  | some be =>
    if !memSpaceOn s 0 then .next (emit s (.completion 1 [] false))
    else
      let s1 := emit { s with free := s.free + 4 } (.completion 0 (readBytes (viewReg s 0 0x48001C) be) false)
      .next (if windowOpen s 0x48001C && !s.cleat.rx.isEmpty then popRx s1 else s1)
  | none => match s.cleat.rx with
    | [] => .next s
    | v :: _ => if pcfUp s then .next (popRx (pcfChar s v)) else .next s

/-! ### Requests, claims and twin frames (R511, R513, R515, R516) -/

def busReq (r : CleatReq) : Req :=
  { who := 64, seq := BitVec.ofNat 16 r.seq, hdr := frameHdr r.bytes, payload := (r.bytes.drop 16).take (field r.bytes 4 4) }

/-- A response made at once. -/
def busAnswer (s : State) (r : CleatReq) (a : Resp) : State :=
  let h := frameHdr r.bytes
  cleatRespond s r.src r.seq r.broadcast (frameBytes h.opcode h.tag pcfFlags a.status a.detail a.payload)

/-- A complete request: a retry, one too many, one that a check of R63 refuses, or one to be served (R511). -/
def takeRequest (s : State) (r : CleatReq) : State :=
  match s.cleat.kept.find? (fun k => k.src == r.src && k.seq == r.seq) with
  | some k => cleatRespond s r.src r.seq r.broadcast k.bytes
  | none => match s.cleat.running.find? (fun x => x.src == r.src) with
    | some x => if x.seq = r.seq then s else busAnswer s r { status := stBusy, detail := (frameHdr x.bytes).opcode }
    | none => match preCheck s (busReq r) with
      | some a => busAnswer s r a
      | none => setCleat s { s.cleat with running := s.cleat.running ++ [r] }

/-- Nothing that comes by the bus is served: 8-bit format, a duplicate address, or a test of the port (R507, R516, R518). -/
def busMute (s : State) : Bool := !nineBit s || s.cleat.dupLock || testing s 3 0

/-- CLEAT_REQUEST (R507, R511, R516, R518). -/
def execCleatRequest (s : State) : Host.Outcome State Fault Refusal := whenLive s <|
  match s.cleat.reqs with
  | [] => .next s
  | r :: rest =>
    if !pcfUp s then .next s
    else
      let s1 := setCleat s { s.cleat with reqs := rest }
      .next (if busMute s then s1 else takeRequest s1 r)

/-- A frame with the node's own SRC reveals a duplicate (R515). -/
def checkDup (s : State) (f : CleatFrame) : State := if f.src = cleatOwn s then cleatDup s else s

/-- CLAIM (R515). -/
def execClaim (s : State) : Host.Outcome State Fault Refusal := whenLive s <|
  match s.cleat.frames with
  | [] => .next s
  | f :: rest =>
    if f.type ≠ 4 || !pcfUp s then .next s
    else
      let s1 := setCleat s { s.cleat with frames := rest }
      let s2 := if f.dst = cleatOwn s then cleatSend s1 [cleatChars (cleatOwn s) (cleatOwn s) 5 f.seq 128 []] else s1
      .next (checkDup s2 f)

/-- CLAIM_REPLY (R515, R516): this frame, or any other with the node's own SRC. -/
def execClaimReply (s : State) : Host.Outcome State Fault Refusal := whenLive s <|
  match s.cleat.frames with
  | [] => .next s
  | f :: rest => if f.type = 4 || !pcfUp s then .next s else .next (checkDup (setCleat s { s.cleat with frames := rest }) f)

/-- CLEAT_TWIN_FRAME (R507, R510, R513, R515, R516): the twin unit takes a frame of the peer; TWIN_CLEAT_PEER 0xFF names none. -/
def execCleatTwinFrame (s : State) : Host.Outcome State Fault Refusal := whenLive s <|
  match s.cleat.twinIn with
  | [] => .next s
  | cs :: rest =>
    let s1 := setCleat s { s.cleat with twinIn := rest }
    if !busFrameGood cs then .next (envError s1)
    else
      let f := parseFrame cs
      let s2 := bump s1 cleatFrameCnt
      let t := field f.payload 0 1
      if f.src = cleatOwn s then .next (cleatDup s2)
      else if busMute s then .next s2
      else if f.src ≠ cleatPeer s || cleatPeer s = 0xFF || 3 < t then .next (envError s2)
      else
        let m : HwsMsg := { cls := 2, type := t, src := 0, dst := 0, txn := f.seq,
                            addr := field f.payload 1 4 + field f.payload 5 1 * 2 ^ 32 + field f.payload 6 1 * 2 ^ 40 }
        .next { s2 with hws := { s2.hws with inbox := s2.hws.inbox ++ [(8, m)] } }

/-! ### Transmission (R501, R503 to R506, R512, R514, R518) -/

/-- A character for the transmit FIFO (R501). -/
def enterTx (s : State) (v : Nat) : State :=
  let c := s.cleat
  if 64 ≤ c.tx.length then cleatError s 6
  else if c.tx.length = 63 && c.released = 0 then bumpBy (cleatError (setCleat s { c with tx := [] }) 6) cleatDropCnt 32 64
  else setCleat s { c with tx := c.tx ++ [v] }

/-- PCF's next frame: one that waits, or the oldest notice (R512, R516, R527). -/
def nextOwnFrame (s : State) : Option (State × List Nat) :=
  match s.cleat.sends, s.err.notices with
  | f :: rest, _ => some (setCleat s { s.cleat with sends := rest }, f)
  | [], n :: rest =>
    let s1 := { s with err := { s.err with notices := rest } }
    if s.cleat.dupLock || setting s idCleatNoticeDest = 0xFF then some (s1, [])
    else some (s1, cleatChars (setting s idCleatNoticeDest) (cleatOwn s) 6 n.1 128 n.2)
  | [], [] => none

/-- PCF writes the next character of a frame; it starts one only when what it wrote before has been released. -/
def pcfWrite (s : State) : State :=
  if !pcfUp s || !nineBit s || testing s 3 0 || 64 ≤ s.cleat.tx.length then s
  else match s.cleat.writing with
    | v :: rest => enterTx (setCleat s { s.cleat with writing := rest }) v
    | [] =>
      if s.cleat.tx.length ≠ s.cleat.released then s
      else match nextOwnFrame s with
        | some (s1, v :: rest) => enterTx (setCleat s1 { s1.cleat with writing := rest }) v
        | some (s1, []) => s1
        | none => s

/-- A host write of a CLEAT register (R36, R37). -/
def cleatHostWrite (s : State) (a : Nat) (be : BitVec 4) (f : State → State) : State :=
  if !memSpaceOn s 0 then s
  else
    let (s1, ok) := blockGuard s a be
    if ok then f s1 else s1

/-- CLEAT_TX_DATA_WRITE (R501): by the host, with the value and its byte enables, or by PCF. -/
def execCleatTxDataWrite (host : Option (Word × BitVec 4)) (s : State) : Host.Outcome State Fault Refusal := whenLive s <|
  match host with
  | some (w, be) => .next (cleatHostWrite s 0x480020 be fun s => enterTx s (w.toNat % 512))
  | none => .next (pcfWrite s)

def releaseTx (s : State) : State := setCleat s { s.cleat with released := s.cleat.tx.length }

/-- CLEAT_SEND (R3, R501): by the host, with the value that it writes into CLEAT_CTRL, where SEND 0 releases nothing; or by PCF once a
frame is written whole. -/
def execCleatSend (host : Option (Word × BitVec 4)) (s : State) : Host.Outcome State Fault Refusal := whenLive s <|
  match host with
  | some (w, be) => .next (cleatHostWrite s cleatCtrl be fun s => cleatCtrlWrite s w)
  | none => .next (if pcfUp s && s.cleat.writing.isEmpty then releaseTx s else s)

/-- The frame that the transmitter sends next: a frame of the twin unit that has been started, released characters up to the next
address character, or a frame of the twin unit (R506, R507). -/
def nextTx (s : State) : Option (List Nat × Bool) :=
  let twin := if nineBit s then s.cleat.twinOut.head?.map fun f => (f.chars, true) else none
  match s.cleat.tx.take s.cleat.released with
  | v :: rest =>
    let own : List Nat × Bool := (v :: rest.takeWhile (fun x => x < 256), false)
    if s.cleat.attempts ≠ 0 && s.cleat.twinTurn then some (twin.getD own) else some own
  | [] => twin

/-- The frame leaves the port. -/
def dropTx (s : State) (cs : List Nat) (twin : Bool) : State :=
  let c := s.cleat
  if twin then setCleat s { c with twinOut := c.twinOut.drop 1, attempts := 0 }
  else setCleat s { c with tx := c.tx.drop cs.length, released := c.released - cs.length, attempts := 0 }

/-- One attempt at a frame (R504, R505): whole, or stopped by a collision; with LOOP set the characters come back to the receiver and
the line is not driven (R518). -/
def sendBusFrame (s : State) (collision : Bool) : State :=
  match nextTx s with
  | none => s
  | some (cs, twin) =>
    let s0 := setCleat s { s.cleat with waitCts := false }
    if cleatBit s 5 then cs.foldl (fun s v => if cleatBit s 1 then rxChar s v else s) (dropTx s0 cs twin)
    else
      let s1 := setCleat s0 { s0.cleat with lineBusy := true }
      if collision then
        let s2 := bump (cleatError s1 4) cleatCollCnt
        if 8 ≤ s2.cleat.attempts + 1 then bumpBy (dropTx s2 cs twin) cleatDropCnt 32 cs.length
        else setCleat s2 { s2.cleat with attempts := s2.cleat.attempts + 1, twinTurn := twin }
      else emit (dropTx s1 cs twin) (.cleatFrame cs)

/-- The transmitter is enabled, no test of the port runs, and the balls are the port's. -/
def maySend (s : State) : Bool := cleatBit s 0 && !testing s 3 0 && !ballsTaken s && s.jtag.ir != .highz

/-- CLEAT_TRANSMIT_START (R503 to R506, R518): the wait of R504 has passed; with CTS_EN the frame waits for CLEAT_CTS_N. -/
def execCleatTransmitStart (collision : Bool) (s : State) : Host.Outcome State Fault Refusal := whenLive s <|
  let s1 := setCleat s { s.cleat with lineBusy := false }
  if !maySend s then .next s1
  else
    if (reg s cleatFlow).getLsbD 31 && !s.cleat.ctsLow then .next (setCleat s1 { s1.cleat with waitCts := (nextTx s1).isSome })
    else .next (sendBusFrame s1 collision)

/-- CLEAT_CTS_CHANGE (R503). -/
def execCleatCtsChange (low : Bool) (s : State) : Host.Outcome State Fault Refusal := whenLive s <|
  if ballsTaken s then .next s
  else
    let s1 := setCleat s { s.cleat with ctsLow := low }
    .next (if low && s.cleat.waitCts && (reg s cleatFlow).getLsbD 31 && maySend s then sendBusFrame s1 false else s1)

end Sys2Proof.Machine
end

