-- ==== Sys2Proof/Machine/Coherence.lean ====
section
/-!
DEFINITION. The rows of the coherence protocol (R267 to R283): each delivers one message in flight, or brings an agent's
request to its home. A row whose message is not in flight leaves the state as it is.
-/

namespace Sys2Proof.Machine

/-- Room in the request buffer of a line's slice (R267). -/
def reqRoom (s : State) (l : Nat) : Bool :=
  (s.uc.txns.filter fun p => sliceOf p.1 == sliceOf l).length + (s.uc.waitq.filter fun m => sliceOf m.line == sliceOf l).length < 512

/-- A request of a core in flight reaches its home, when the slice has room. -/
def requestRow (s : State) (c l : Nat) (k : MsgKind → Bool) : State :=
  if reqRoom s l then deliverFirst s fun m => m.line == l && m.src == .core c && m.dst == .home && k m.kind else s

/-- An agent's request within one line reaches its home: far writes, coherent reads, bypass writes (R268, R280). -/
def agentRow (s : State) (a : Nat) (k : MsgKind) : State :=
  if !reachable s a then noteUnpop s a
  else if reqRoom s (lineOf a) then arriveReq s { src := .agent, dst := .home, line := lineOf a, kind := k } else s

/-- GETS (R268). -/
def execGets (c : CoreNo) (l : Nat) (s : State) : Host.Outcome State Fault Refusal := whenLive s <|
  .next (requestRow s c.val l fun k => k == .getS)

/-- GETM (R268). -/
def execGetm (c : CoreNo) (l : Nat) (s : State) : Host.Outcome State Fault Refusal := whenLive s <|
  .next (requestRow s c.val l fun k => k == .getM)

/-- GETM_FULL (R268). -/
def execGetmFull (c : CoreNo) (l : Nat) (s : State) : Host.Outcome State Fault Refusal := whenLive s <|
  .next (requestRow s c.val l fun k => k == .getMFull)

/-- ATOM at the home: the predictor decides near or far (R275, R277). -/
def execAtomMessage (c : CoreNo) (l : Nat) (s : State) : Host.Outcome State Fault Refusal := whenLive s <|
  .next (requestRow s c.val l fun k => match k with
    | .atom _ _ _ _ => true
    | _ => false)

/-- RED at the home, always far (R274, R279). -/
def execRedMessage (c : CoreNo) (l : Nat) (s : State) : Host.Outcome State Fault Refusal := whenLive s <|
  .next (requestRow s c.val l fun k => match k with
    | .red _ _ _ _ _ => true
    | _ => false)

/-- A far write of an agent, within one line (R280). -/
def execFarWrite (a : Nat) (bs : List Byte) (s : State) : Host.Outcome State Fault Refusal := whenLive s <|
  .next (agentRow s a (.farWrite (a % 128) (bs.take (128 - a % 128))))

/-- A coherent read of an agent, within one line (R280). -/
def execCoherentRead (a n : Nat) (s : State) : Host.Outcome State Fault Refusal := whenLive s <|
  .next (agentRow s a (.cohRead (a % 128) (min n (128 - a % 128))))

/-- A bypass write, within one line (R254, R281). -/
def execBypassWrite (a : Nat) (bs : List Byte) (s : State) : Host.Outcome State Fault Refusal := whenLive s <|
  .next (agentRow s a (.bypass (a % 128) (bs.take (128 - a % 128))))

/-- An invalidation (R283): the oldest CINV in flight for the line, or an agent's. -/
def execInvalidation (l : Nat) (s : State) : Host.Outcome State Fault Refusal := whenLive s <|
  let isCinv (m : Msg) : Bool := m.line == l && m.dst == .home && (match m.kind with
    | .inval _ => true
    | _ => false)
  if s.uc.msgs.any isCinv then .next (if reqRoom s l then deliverFirst s isCinv else s)
  else .next (agentRow s (lineAddr l) (.inval 0))

/-- Delivers a forward from the home to a core. -/
def forwardRow (s : State) (c l : Nat) (k : MsgKind → Bool) : State :=
  deliverFirst s fun m => m.line == l && m.dst == .core c && k m.kind

/-- FWD_S (R268, R273). -/
def execFwdS (c : CoreNo) (l : Nat) (s : State) : Host.Outcome State Fault Refusal := whenLive s <|
  .next (forwardRow s c.val l fun k => match k with
    | .fwdS _ => true
    | _ => false)

/-- FWD_M (R268, R273). -/
def execFwdM (c : CoreNo) (l : Nat) (s : State) : Host.Outcome State Fault Refusal := whenLive s <|
  .next (forwardRow s c.val l fun k => match k with
    | .fwdM _ _ => true
    | _ => false)

/-- RECALL (R268, R273). -/
def execRecallLine (c : CoreNo) (l : Nat) (s : State) : Host.Outcome State Fault Refusal := whenLive s <|
  .next (forwardRow s c.val l fun k => k == .recallLine)

/-- INV (R268, R273). -/
def execInv (c : CoreNo) (l : Nat) (s : State) : Host.Outcome State Fault Refusal := whenLive s <|
  .next (forwardRow s c.val l fun k => match k with
    | .inv _ => true
    | _ => false)

/-- GNT (R269). -/
def execGnt (c : CoreNo) (l : Nat) (s : State) : Host.Outcome State Fault Refusal := whenLive s <|
  .next (forwardRow s c.val l fun k => match k with
    | .gnt _ => true
    | _ => false)

/-- INV_ACK, to a requester or to the home (R269). -/
def execInvAck (to_ : Option CoreNo) (l : Nat) (s : State) : Host.Outcome State Fault Refusal := whenLive s <|
  let d : Node := match to_ with
    | some c => .core c.val
    | none => .home
  .next (deliverFirst s fun m => m.line == l && m.dst == d && m.kind == .invAck)

/-- NOLINE (R271). -/
def execNoline (c : CoreNo) (l : Nat) (s : State) : Host.Outcome State Fault Refusal := whenLive s <|
  .next (deliverFirst s fun m => m.line == l && m.src == .core c.val && m.kind == .noline)

/-- ATOM_RES (R275). -/
def execAtomRes (c : CoreNo) (l : Nat) (s : State) : Host.Outcome State Fault Refusal := whenLive s <|
  .next (forwardRow s c.val l fun k => match k with
    | .atomRes _ _ => true
    | _ => false)

/-- DATA, to a requesting core or to another agent (R269). -/
def execData (to_ : Option CoreNo) (l : Nat) (s : State) : Host.Outcome State Fault Refusal := whenLive s <|
  let d : Node := match to_ with
    | some c => .core c.val
    | none => .agent
  .next (deliverFirst s fun m => m.line == l && m.dst == d && (match m.kind with
    | .data _ _ _ => true
    | _ => false))

/-- WB: an owner's answer, or unasked (R268, R271, R282). -/
def execWb (c : CoreNo) (l : Nat) (s : State) : Host.Outcome State Fault Refusal := whenLive s <|
  .next (deliverFirst s fun m => m.line == l && m.src == .core c.val && (match m.kind with
    | .wb _ _ => true
    | _ => false))

/-- UNBLOCK (R267). -/
def execUnblock (c : CoreNo) (l : Nat) (s : State) : Host.Outcome State Fault Refusal := whenLive s <|
  .next (deliverFirst s fun m => m.line == l && m.src == .core c.val && m.kind == .unblock)

/-- WB_DONE (R282). -/
def execWbDone (c : CoreNo) (l : Nat) (s : State) : Host.Outcome State Fault Refusal := whenLive s <|
  .next (forwardRow s c.val l fun k => k == .wbDone)

/-- CLAIM_HOLD_END (R273): the hold ends, and what it deferred is honoured in order of arrival. -/
def execClaimHoldEnd (c : CoreNo) (l : Nat) (s : State) : Host.Outcome State Fault Refusal := whenLive s <| .next (endHold s c.val l)

/-- PREDICTOR_DECAY (R277): each CTR above 0 is decreased by one. -/
def execPredictorDecay (s : State) : Host.Outcome State Fault Refusal := whenLive s <|
  .next (setUc s { s.uc with pred := s.uc.pred.map fun p => (p.1, { p.2 with ctr := p.2.ctr - 1 }) })

/-- UC_PRED_FLUSH (R277, R37, R88): a write of UC_PRED_CTRL through the die's open window; FLUSH clears every entry. -/
def execUcPredFlush (d : DieNo) (w : Word) (be : BitVec 4) (s : State) : Host.Outcome State Fault Refusal := whenLive s <|
  let a := dieReg d.val ucPredCtrl
  if !memSpaceOn s 0 then .next s
  else
    let (s1, ok) := blockGuard s a be
    .next (if ok && w.getLsbD 0 then setUc s1 { s1.uc with pred := s1.uc.pred.filter fun p => p.1 / 1024 != d.val } else s1)

end Sys2Proof.Machine
end

