-- ==== Sys2Proof/Machine/Kv.lean ====
section
/-!
DEFINITION. Append writes, session gathers and merge writes at their engines (R129 to R138).
-/

namespace Sys2Proof.Machine

/-! ### Writes on their way -/

/-- Takes a write that a thread sent, if this arrival is one (R203, R237). -/
def arrived (s : State) (w : Sent) : State :=
  match s.posted.find? (fun p => p.what == w) with
  | some p => { s with posted := s.posted.erase p }
  | none => s

/-! ### Appends (R129, R130) -/

/-- PCF's own tag, or a tag of the session's owner (R115, R309). -/
def mayAccess (s : State) (x : Session) (asid : Nat) : Bool := asid = 0 || asidOwned s x.owner asid

/-- Fields of an append in range for the session's geometry (R129). -/
def appendInRange (x : Session) (t : AppendTag) (n : Nat) : Bool :=
  t.layer < x.net.layers && t.head < x.net.kvHeads && t.kv ≤ 1 && t.srcFormat ≤ 1 && t.dimFirst % 16 = 0
    && 16 ≤ t.count && t.count ≤ 256 && t.count % 16 = 0 && t.dimFirst + t.count ≤ x.net.headDim && t.count = n

/-- Format of the elements of a session's pages. -/
def kvFmt (n : Network) : FpFmt := match n.kvFormat with
  | 0 => .e4m3
  | 1 => .e5m2
  | _ => .bf16

/-- The stored bytes of an append: each element converted with SAT under RNE (R130, R224). -/
def appendBytes (n : Network) (srcFormat : Nat) (data : List Word) : List Byte :=
  data.flatMap fun w =>
    let v := if srcFormat = 0 then fdecode .fp32 w.toNat else fdecode .bf16 (w.toNat % 65536)
    leBytes (kvElem n) (convVal (kvFmt n) .rne true v 0).1

/-- A discarded append: counter, SES_ERR, and the owner's record (R130, R521). One that names a free entry, or a number beyond the table,
has no home and no owner: it counts at die 0 and its record goes to the PF (DESIGN CHOICE, log entry 50). -/
def appendDrop (s : State) (n : Nat) (gen : Bool) : State :=
  let x := session s n
  let st := x.home
  let s1 := orReg (bump s (dieReg st sesAppendDropCnt)) (dieReg st sesErr) (if gen then 2 else 1)
  logErr s1 x.owner { code := 0x1033, cls := 6, source := 7, die := st, unit := st, inst := x.owner,
                      arg := n % 16384 + (if gen then 2 else 1) * 2 ^ 32 }

/-- An append at the home Session Engine (R130). The failed check that is a GEN or reservation mismatch is told from the others; where
several fail, the state and the tag are tested before GEN, and GEN before the ranges (DESIGN CHOICE, log entry 50). -/
def appendArrive (s : State) (asid : Nat) (t : AppendTag) (data : List Word) : State :=
  let x := session s t.session
  if 16384 ≤ t.session || x.state ≠ .active || !mayAccess s x asid then appendDrop s t.session false
  else if x.resv ≠ .opened || x.gen ≠ t.gen then appendDrop s t.session true
  else if !(x.c ≤ t.position && t.position < x.t) || !appendInRange x t data.length then appendDrop s t.session false
  else match elemAddr s x t.layer t.kv t.head t.position t.dimFirst with
    | some a => homeWrite s a (appendBytes x.net t.srcFormat data)
    | none => appendDrop s t.session false

/-- APPEND_WRITE (R130). -/
def execAppendWrite (asid : Nat) (t : AppendTag) (data : List Word) (s : State) : Host.Outcome State Fault Refusal := whenLive s <|
  .next (appendArrive (arrived s (.append t data asid)) asid t data)

/-! ### Gathers (R133, R202) -/

/-- The view length of a gather: MODE 0 C, 1 F, 2 T; C without a matching open reservation (R133). -/
def viewLength (x : Session) (mode : Nat) (gen : Half) : Nat :=
  if x.resv ≠ .opened || x.gen ≠ gen then x.c
  else match mode with
    | 1 => x.f
    | 2 => x.t
    | _ => x.c

/-- What a gather of one 32-byte sector comes to: the bytes, or a refusal that sets GATHER_ASID, with the device address read. -/
inductive Gathered where
  | refused
  | zero
  | sector (dpa : Nat)
  deriving DecidableEq, Repr

/-- A gather's checks and address from its descriptor (R133, R202). -/
def gatherAt (s : State) (asid : Nat) (d0 d1 d2 d3 : Nat) : Gathered :=
  let x := session s (d0 % 16384)
  let mode := if bits d0 14 2 = 3 then 0 else bits d0 14 2
  let e := kvElem x.net
  let dim := d3 % 65536
  if !(x.state == .active || x.state == .waitPage) || !mayAccess s x asid then .refused
  else if viewLength x mode (BitVec.ofNat 16 (d0 / 65536)) ≤ d1 || x.net.layers ≤ d2 % 256 || x.net.kvHeads ≤ bits d2 8 8
      || x.net.headDim < dim + 32 / e || dim % (32 / e) ≠ 0 then .zero
  else match elemAddr s x (d2 % 256) (bits d2 16 1) (bits d2 8 8) d1 dim with
    | some a => .sector a
    | none => .zero

/-! ### Merge writes (R136 to R138) -/

/-- exp2 of a difference, correctly rounded (R137). -/
def mergeWeight (ms m : Word) : Nat :=
  match fdecode .fp32 ms.toNat with
  | .inf true => 0
  | v =>
    let neg : FVal := match fdecode .fp32 m.toNat with
      | .nan q => .nan q
      | .inf n => .inf (!n)
      | .fin n k e => .fin (!n) k e
    match v, neg with
    | .inf false, .inf true => (fexp2Val .fp32 .rne (fdecode .fp32 (faddVal .fp32 .rne v neg).1)).1
    | _, _ => (exactExp2 v neg)
where
  /-- exp2 of the exact difference, rounded once. -/
  exactExp2 (a b : FVal) : Nat :=
    match a, b with
    | .fin na ma ea, .fin nb mb eb =>
      let d := exactSum [(na, ma, ea), (nb, mb, eb)]
      (fexp2Val .fp32 .rne (.fin (d.1 < 0) d.1.natAbs d.2)).1
    | _, _ => (fexp2Val .fp32 .rne (fdecode .fp32 (faddVal .fp32 .rne a b).1)).1

/-- Sum := RN(sum + RN(x × w)) in FP32. -/
def mergeStep (acc x w : Nat) : Nat :=
  (faddVal .fp32 .rne (fdecode .fp32 acc) (fdecode .fp32 (fmulVal .fp32 .rne (fdecode .fp32 x) (fdecode .fp32 w)).1)).1

/-- The output elements of a vector from its partials in ascending source order (R137). -/
def mergeValues (headDim outFormat : Nat) (ps : List Partial) : List Nat :=
  let fmt : FpFmt := if outFormat = 0 then .fp32 else .bf16
  if ps.any (fun p => isNan (fdecode .fp32 p.m.toNat)) then List.replicate headDim (defaultNan fmt)
  else
    let m := ps.foldl (fun b p => if numLt true (fdecode .fp32 b) (fdecode .fp32 p.m.toNat) then p.m.toNat else b) (infBits .fp32 true)
    let ws := ps.map fun p => (p, mergeWeight p.m (BitVec.ofNat 32 m))
    let l := ws.foldl (fun acc p => mergeStep acc p.1.l.toNat p.2) 0
    if isZeroVal (fdecode .fp32 l) then List.replicate headDim 0
    else (List.range headDim).map fun i =>
      let o := ws.foldl (fun acc p => mergeStep acc (p.1.o.getD i 0).toNat p.2) 0
      let q := (fdivVal .fp32 .rne (fdecode .fp32 o) (fdecode .fp32 l)).1
      (convVal fmt .rne false (fdecode .fp32 q) 0).1

/-- A stray record sets SES_ERR.MRG_STRAY (R136). -/
def mergeStray (s : State) (d : Nat) : State := orReg s (dieReg d sesErr) 4

/-- A partial record arrives at a die's merge unit (R136): accepted, or discarded as stray; the last partial of a vector writes
its output (R137). -/
def mergeArrive (s : State) (d : Nat) (r : MergeRec) : State :=
  match if r.slot < 64 then mergeSlot s d r.slot else none with
  | none => mergeStray s d
  | some m =>
    let mask := (m.masks.getD r.vector 0).toNat
    if m.vectors ≤ r.vector || r.o.length ≠ m.headDim || !bit mask r.source || m.got.any (fun g => g.1 == 8 * r.vector + r.source)
    then mergeStray s d
    else
      let m1 := { m with got := tput m.got (8 * r.vector + r.source) { m := r.m, l := r.l, o := r.o } }
      let have_ := m1.got.filter fun g => g.1 / 8 == r.vector
      let s1 := setMergeSlot s d r.slot m1
      if have_.length = ((List.range 8).filter (bit mask)).length then
        let vals := mergeValues m.headDim m.outFormat (have_.map (·.2))
        mergeOutput s1 d r.slot r.vector (vals.flatMap (leBytes (if m.outFormat = 0 then 4 else 2)))
      else s1

/-- MERGE_WRITE (R136, R203). -/
def execMergeWrite (d : DieNo) (asid : Nat) (r : MergeRec) (s : State) : Host.Outcome State Fault Refusal := whenLive s <|
  .next (mergeArrive (arrived s (.merge d.val asid r)) d.val r)

end Sys2Proof.Machine
end

