-- ==== Sys2Proof/Machine/Cores.lean ====
section
/-!
DEFINITION. Launches, blocks and groups: distribution and placement, start and end, splitting, convergence instructions, exit,
the watchdog and the stop of a launch; session gathers and merge writes of threads (R165 to R167, R177 to R203).
-/

namespace Sys2Proof.Machine

/-! ### LAUNCH (R165, R166, R177, R178) -/

/-- Range checks of LAUNCH, by byte offset (R165, R177, R178). -/
def launchRange (c : Cmd) : Option CmdRes :=
  let groups := field c.bytes 28 1
  let gran := field c.bytes 29 1
  let bad (off : Nat) : Option CmdRes := some { status := stBadRequest, detail := off }
  if field c.bytes 24 4 = 0 then bad 24
  else if groups = 0 || 32 < groups then bad 28
  else if gran = 0 || 32 < gran then bad 29
  else if 128 < groups * gran then bad 28
  else none

/-- The ranges of block indices per die: block b runs on the die numbered ⌊b × n ÷ BLOCKS⌋ of the list (R166). -/
def blockRanges (ds : List Nat) (blocks : Nat) : Tab (Nat × Nat) :=
  let n := ds.length
  (ds.zip (List.range n)).foldl (fun t p => tput t p.1 (ceilDiv (p.2 * blocks) n, ceilDiv ((p.2 + 1) * blocks) n)) []

/-- LAUNCH (R165 to R167). -/
def execLaunch (q : QueueNo) (i : Nat) (s : State) : Host.Outcome State Fault Refusal := whenLive s <|
  match startedCmd s q.val i 0x10 with
  | none => .next s
  | some c =>
    let x := queue s q.val
    let fin (r : CmdRes) : Host.Outcome State Fault Refusal := .next (endCmd s q.val i r)
    match launchRange c with
    | some r => fin r
    | none =>
      let aff := if field c.bytes 31 1 = 0 then 2 ^ x.inst else field c.bytes 31 1
      let ds := (List.range 8).filter fun d => bit aff d && dieInService s d && !dieDraining s d
      let all := (List.range 8).filter (bit aff)
      if ds.isEmpty then fin { status := stWrongState }
      else if bit (cmdOpflags c) 1 && ds.length ≠ all.length then fin { status := stWrongState, detail := field c.bytes 31 1 }
      else
        let l : Launch := { queue := q.val, index := i, entry := field c.bytes 8 8, param := field c.bytes 16 8,
                            blocks := field c.bytes 24 4, groups := field c.bytes 28 1, granules := field c.bytes 29 1,
                            lsConfig := field c.bytes 30 1, lsZero := bit (cmdOpflags c) 0, epoch := c.epoch,
                            next := blockRanges ds (field c.bytes 24 4) }
        let s1 := setStage s q.val i .running
        let n := s1.eng.nextLaunch
        .next { s1 with eng := { s1.eng with launches := tput s1.eng.launches n l, nextLaunch := n + 1 } }

/-! ### Placing and starting a block (R178, R179, R181 to R183) -/

/-- Groups of a core that have not ended. -/
def liveGroups (x : Core) : List (Nat × Group) := x.groups.filter fun p => (List.range 64).any fun t => !(thread p.2 t).exited

/-- Granules in use on a core: those of the groups that have not ended (R177, R200). -/
def granulesUsed (x : Core) : Nat :=
  ((liveGroups x).map fun p => match blockOf x p.2 with
    | some b => b.granules
    | none => 0).sum

/-- A core can take one more block of a launch (R178). -/
def canTake (x : Core) (l : Launch) : Bool :=
  granulesUsed x + l.groups * l.granules ≤ 128 && x.groups.length + l.groups ≤ 32
    && (heldBanks x).length + l.lsConfig ≤ 4 && x.ctxs.length + l.groups ≤ 64

/-- The core of a die that takes the next block: awake clusters first, then the fewest resident groups, then the lowest ID (R181). -/
def chooseCore (s : State) (d : Nat) (l : Launch) : Option Nat :=
  let cand := ((List.range 512).map (512 * d + ·)).filter fun c => canTake (coreAt s c) l
  let awake := cand.filter (clusterRuns s)
  let pool := if awake.isEmpty then cand else awake
  pool.foldl (fun b c => match b with
    | none => some c
    | some e => if (liveGroups (coreAt s c)).length < (liveGroups (coreAt s e)).length then some c else some e) none

/-- The lowest `n` numbers below a bound that are not in use. -/
def lowestFree (n bound : Nat) (used : List Nat) : List Nat := ((List.range bound).filter fun k => !used.contains k).take n

/-- Whether a bank must be zero-filled for a launch's tag (R183). -/
def needsFill (k : Bank) (asid : Nat) (zero : Bool) : Bool := zero || k.cached || k.tag != some asid

/-- A new group at the launch's entry point, every register zero, in one set (R182). -/
def newGroup (block index entry : Nat) : Group :=
  { block := block, index := index, threads := (List.range 64).map fun t => (t, { pc := entry }) }

/-- Gives banks to a block: lines of the L1 beyond its new capacity are written back, with their WB_DONE, and banks are
zero-filled as R183 asks. -/
def takeBanks (s : State) (c : Nat) (banks : List Nat) (asid : Nat) (zero : Bool) : State :=
  let s1 := l1Trim s c (coreAt s c).l1.length
  let s2 := (coreAt s1 c).wbs.foldl settle s1
  banks.foldl (fun s k =>
    let x := coreAt s c
    let b := tget {} x.banks k
    let fill := needsFill b asid zero
    let s3 := setCore s c { x with banks := tput x.banks k { bytes := if fill then [] else b.bytes, tag := some asid } }
    if fill then bump s3 (dieReg (coreDie c) coreLszeroCnt) else s3) s2

/-- Starts block `b` of launch `n` on a core. -/
def startBlock (s : State) (n : Nat) (l : Launch) (c b : Nat) : State :=
  let x := coreAt s c
  let key := (lowestFree 1 64 (x.blocks.map (·.1))).headD 0
  let slots := lowestFree l.groups 32 (x.groups.map (·.1))
  let ctxs := lowestFree l.groups 64 (x.ctxs.map (·.1))
  let banks := lowestFree l.lsConfig 4 (heldBanks x)
  let blk : Block := { launch := n, index := b, slots := slots, banks := banks, granules := l.granules, start := x.cycles }
  let x1 := { x with
    blocks := tput x.blocks key blk
    groups := (slots.zip (List.range l.groups)).foldl (fun t p => tput t p.1 (newGroup key p.2 l.entry)) x.groups
    ctxs := (ctxs.zip slots).foldl (fun t p => tput t p.1 { slot := p.2, threads := List.range 64 }) x.ctxs }
  let s1 := takeBanks (setCore s c x1) c banks (launchTag s l) l.lsZero
  if clusterRuns s1 c then s1
  else { s1 with power := { s1.power with clusters := tput s1.power.clusters (c / 64) .waking } }

/-- Launches that have a block waiting for a die, with their queue's priority. -/
def waitingLaunches (s : State) (d : Nat) : List (Nat × Launch) :=
  s.eng.launches.filter fun p => p.2.stopping.isNone && (let r := tget (0, 0) p.2.next d; r.1 < r.2)

/-- The launch whose block takes the next free core of a die: the order of R175 among launches. -/
def nextLaunchOn (s : State) (d : Nat) : Option Nat :=
  let r := waitingLaunches s d
  let aged := r.filter fun p => 64 ≤ tget 0 p.2.passed d
  let pool := if aged.isEmpty then r else aged
  let prio (l : Launch) : Nat := (queue s l.queue).priority
  let top := pool.foldl (fun m p => max m (prio p.2)) 0
  roundRobin (tget 0 s.eng.lastServed (1000 + d)) ((pool.filter fun p => prio p.2 == top).map (·.1))

/-- BLOCK_START (R175, R178 to R183): nothing happens while no core of the die can take the block; a die that sleeps wakes first (R453). -/
def execBlockStart (n : Nat) (d : DieNo) (s : State) : Host.Outcome State Fault Refusal := whenLive s <|
  match launchAt s n with
  | none => .next s
  | some l =>
    if !dieAwake s d.val then .next (if nextLaunchOn s d.val = some n then wakeDie s d.val else s)
    else if nextLaunchOn s d.val = some n then
      match chooseCore s d.val l with
      | none => .next s
      | some c =>
        let r := tget (0, 0) l.next d.val
        let prio (l : Launch) : Nat := (queue s l.queue).priority
        let s1 := (waitingLaunches s d.val).foldl (fun s p =>
          if prio p.2 < prio l then setLaunch s p.1 { p.2 with passed := tput p.2.passed d.val (tget 0 p.2.passed d.val + 1) } else s) s
        let l1 := { l with next := tput l.next d.val (r.1 + 1, r.2), passed := tdel l.passed d.val }
        let s2 := setLaunch s1 n l1
        let s3 := { s2 with eng := { s2.eng with lastServed := tput s2.eng.lastServed (1000 + d.val) n } }
        .next (startBlock s3 n l1 c r.1)
    else .next s

/-! ### Ending blocks and launches (R167, R199 to R201, R239) -/

/-- Operations of a block's threads that the matrix unit has not completed (R239). -/
def blockBusy (s : State) (c : Nat) (b : Block) : Bool := (mtxAll (coreAt s c)).any fun e => b.slots.contains e.slot

/-- Frees a block: groups, contexts and banks; its threads' waits end. What its threads have issued goes on, counted for the launch
(R199, R201). -/
def freeBlock (s : State) (c key : Nat) (b : Block) : State :=
  let x := coreAt s c
  let late (sl : Nat) : Nat := if b.slots.contains sl then lateSlot b.launch else sl
  let s1 := setCore s c { x with
    blocks := tdel x.blocks key
    groups := x.groups.filter fun p => !b.slots.contains p.1
    ctxs := x.ctxs.filter fun p => !b.slots.contains p.2.slot
    accs := x.accs.map fun a => { a with slot := late a.slot }
    storeQ := x.storeQ.map fun e => { e with slot := late e.slot }
    intTiles := x.intTiles.filter fun p => !b.slots.contains p.1
    intLs := x.intLs.filter fun p => !b.slots.contains p.1 }
  { s1 with posted := s1.posted.map fun p => if p.core = c then { p with slot := late p.slot } else p
            memWaits := s1.memWaits.filter fun w => match w.who with
              | .thread c' slot _ _ => !(c' == c && b.slots.contains slot)
              | .cmd _ _ => true }

/-- BLOCK_END (R199, R201, R239): every thread has ended, or the launch is being stopped, and the matrix unit has completed the block's
operations. The launch's last block completes its command with OK when nothing that its threads issued is outstanding (R156, R167). -/
def execBlockEnd (c : CoreNo) (key : Nat) (s : State) : Host.Outcome State Fault Refusal := whenLive s <|
  let x := coreAt s c.val
  match x.blocks.find? (fun p => p.1 == key) with
  | none => .next s
  | some (_, b) =>
    match launchAt s b.launch with
    | none => .next s
    | some l =>
      let ended := b.slots.all fun sl => match groupAt x sl with
        | some g => (alive g).isEmpty
        | none => true
      if (ended || l.stopping.isSome) && !blockBusy s c.val b then
        let s1 := freeBlock s c.val key b
        let l1 := { l with ended := l.ended + 1 }
        if l.stopping.isNone && l1.ended = l.blocks && !lateOps s1 b.launch then
          let s2 := { s1 with eng := { s1.eng with launches := tdel s1.eng.launches b.launch } }
          .next (endCmd s2 l.queue l.index { status := stOk })
        else .next (setLaunch s1 b.launch l1)
      else .next s

/-- Whether any block of a launch is resident. -/
def launchResident (s : State) (n : Nat) : Bool := s.cores.any fun p => p.2.blocks.any fun q => q.2.launch == n

/-- HANG_STOP_COMPLETE (R199): every group of a stopping launch has stopped, and every operation it issued has completed; its error record is written and the queue stops. A launch
of a VF that is being reset ends without a record (R432). -/
def execHangStopComplete (n : Nat) (s : State) : Host.Outcome State Fault Refusal := whenLive s <|
  match launchAt s n with
  | none => .next s
  | some l => match l.stopping with
    | none => .next s
    | some r =>
      if launchResident s n || lateOps s n then .next s
      else
        let s1 := { s with eng := { s.eng with launches := tdel s.eng.launches n } }
        match findCmd (queue s1 l.queue) l.index with
        | some c =>
          let x := queue s1 l.queue
          if (tget {} s1.tenants x.owner).resetting.isSome then
            .next (setQueue s1 l.queue { x with cmds := x.cmds.filter (fun d => d.index != l.index) })
          else .next (errorStop s1 l.queue c r)
        | none => .next s1

/-- A thread of the group waits at a convergence point or a block barrier: the watchdog counts (R197). -/
def watchdogRuns (g : Group) : Bool :=
  (alive g).any fun t => match (thread g t).wait with
    | none => false
    | some .ldwait => false
    | some _ => true

/-- GROUP_WATCHDOG_EXPIRY (R197, R199): the group is reported hung, unless a wait of it was released in this cycle (R10). -/
def execGroupWatchdogExpiry (c : CoreNo) (slot : Fin 32) (s : State) : Host.Outcome State Fault Refusal := whenLive s <|
  match groupAt (coreAt s c.val) slot.val, launchOf s c.val slot.val with
  | some g, some (b, _) =>
    if watchdogRuns g && !g.hung && g.freed != some s.hubTime then
      let d := coreDie c.val
      let s1 := setReg (bump s (dieReg d coreHangCnt)) (dieReg d coreHangLast) (BitVec.ofNat 32 (2 ^ 31 + slot.val * 65536 + c.val))
      let s2 := setCore s1 c.val (setGroup (coreAt s1 c.val) slot.val { g with hung := true })
      .next (stopLaunch s2 c.val slot.val { status := stGroupHang, detail := c.val, result := b.index + slot.val * 2 ^ 32 })
    else .next s
  | _, _ => .next s

/-! ### Splitting, convergence and exit (R188, R190 to R194, R200) -/

/-- AUTO_SPLIT (R190): a context that held two or more sets during 512 consecutive issues. -/
def execAutoSplit (c : CoreNo) (n : Fin 64) (s : State) : Host.Outcome State Fault Refusal := whenLive s <|
  let x := coreAt s c.val
  match x.ctxs.find? (fun p => p.1 == n.val) with
  | none => .next s
  | some (_, k) => match groupAt x k.slot with
    | none => .next s
    | some g =>
      if 512 ≤ k.divergent then
        match splitCtx x g n.val k with
        | some x1 => .next (bump (setCore s c.val x1) (dieReg (coreDie c.val) coreSplitCnt))
        | none => .next s
      else .next s

/-- SPLIT (R190): without effect on a single set, or without limit or room. -/
def execSplit (i : Issue) (s : State) : Host.Outcome State Fault Refusal := whenLive s <|
  match tryIssue s i [] with
  | none => .next s
  | some (set, s1) =>
    let s2 := advancePc s1 i set
    let x := coreAt s2 i.core.val
    match ctxOf x i.slot.val i.lead.val, groupAt x i.slot.val with
    | some (n, k), some g => match splitCtx x g n k with
      | some x1 => .next (setCore s2 i.core.val x1)
      | none => .next s2
    | _, _ => .next s2

/-- YIELD (R188): the set's count ends. -/
def execYieldSet (i : Issue) (s : State) : Host.Outcome State Fault Refusal := whenLive s <|
  match tryIssue s i [] with
  | none => .next s
  | some (set, s1) =>
    let x := coreAt s1 i.core.val
    match ctxOf x i.slot.val i.lead.val with
    | none => .next s
    | some (n, k) => .next (advancePc (setCore s1 i.core.val { x with ctxs := tput x.ctxs n { k with count := 16 } }) i set)

/-- REPACK (R191, R192). -/
def execRepack (i : Issue) (s : State) : Host.Outcome State Fault Refusal := whenLive s <| .next (arriveAt s i [] .repack fun _ _ => true)

/-- CONVERGE (R192). -/
def execConverge (i : Issue) (mask : BitVec 64) (s : State) : Host.Outcome State Fault Refusal := whenLive s <|
  .next (arriveAt s i [] (.converge mask.toNat) fun _ _ => true)

/-- BAR (R193, R249): a FENCE.B in every thread that reaches it. -/
def execBarBlock (i : Issue) (s : State) : Host.Outcome State Fault Refusal := whenLive s <|
  .next (arriveAt s i [] .bar fun s t => visibleAt s .b i.core.val i.slot.val t)

/-- Frees the contexts of a group whose threads have all ended (R200). -/
def endGroup (s : State) (c slot : Nat) : State :=
  let x := coreAt s c
  match groupAt x slot with
  | none => s
  | some g => if (alive g).isEmpty then setCore s c { x with ctxs := x.ctxs.filter fun p => p.2.slot != slot } else s

/-- EXIT (R194, R200). -/
def execExitThread (i : Issue) (s : State) : Host.Outcome State Fault Refusal := whenLive s <|
  match tryIssue s i [] with
  | none => .next s
  | some (set, s1) =>
    let c := i.core.val
    let slot := i.slot.val
    let s2 := set.foldl (fun s t => modThread s c slot t fun x => { x with exited := true }) s1
    .next (releaseAll (endGroup s2 c slot) c slot)

/-! ### Session gathers and merge writes of threads (R202, R203) -/

/-- A gather of one thread; poison stops the launch (R530). -/
def gatherThread (s : State) (c slot t dst desc : Nat) : State :=
  match launchOf s c slot with
  | none => s
  | some (_, l) =>
    let d (k : Nat) : Nat := (rd s c slot t (desc + k)).toNat
    match gatherAt s (launchTag s l) (d 0) (d 1) (d 2) (d 3) with
    | .refused => wrMany (orReg s (dieReg (coreDie c) sesErr) 8) c slot t dst 0 8
    | .zero => wrMany s c slot t dst 0 8
    | .sector a =>
      let x := coreAt s c
      match (if allForwarded x slot t x.nextSeq a 32 then none else poisonIn s a 32) with
      | some p => threadPoison s c slot p
      | none => wrMany (touchRead s a 32) c slot t dst (leNat (forwarded x slot t x.nextSeq a (homeRead s a 32))) 8

/-- What a gather waits for: it is a load of its sector (R244, R251). -/
def gatherReady (s : State) (c slot t desc : Nat) : Bool :=
  let d (k : Nat) : Nat := (rd s c slot t (desc + k)).toNat
  acquired s c slot t && (match launchOf s c slot with
    | some (_, l) => match gatherAt s (launchTag s l) (d 0) (d 1) (d 2) (d 3) with
      | .sector a => !sameBytePending s c slot t (.dev a) 32
      | _ => true
    | none => true)

/-- SGATHER (R133, R202, R251): a relaxed load, performed when it issues. -/
def execSgather (i : Issue) (dst desc : Nat) (s : State) : Host.Outcome State Fault Refusal := whenLive s <|
  let c := i.core.val
  let slot := i.slot.val
  .next (perThreadWhen s i ((List.range 8).map (dst + ·) ++ (List.range 4).map (desc + ·)) (fun s t => gatherReady s c slot t desc)
    fun s t => gatherThread s c slot t dst desc)

/-- The partial record at a local-store address (R136, R203). -/
def mergeRecord (bs : List Byte) (dim : Nat) : MergeRec :=
  { slot := field bs 0 1, source := field bs 1 1, vector := field bs 4 4, m := BitVec.ofNat 32 (field bs 8 4),
    l := BitVec.ofNat 32 (field bs 12 4), o := (List.range dim).map fun k => BitVec.ofNat 32 (field bs (16 + 4 * k) 4) }

/-- Sends a write from a thread to another unit. -/
def sendPosted (s : State) (c slot t : Nat) (w : Sent) : State :=
  let (s1, q) := nextSeq s c
  { s1 with posted := s1.posted ++ [{ core := c, slot := slot, lane := t, seq := q, what := w }] }

/-- MWRITE (R203): the record leaves for the die's merge unit, where it arrives by MERGE_WRITE. -/
def execMwrite (i : Issue) (die addr dim : Nat) (s : State) : Host.Outcome State Fault Refusal := whenLive s <|
  let c := i.core.val
  let slot := i.slot.val
  .next (perThreadWhen s i [addr] (fun s t => acquired s c slot t && loadsDone s c slot t) fun s t =>
    match launchOf s c slot with
    | none => s
    | some (_, l) =>
      let bs := lsGet s c slot (alignDown (rd s c slot t addr).toNat 16) (16 + 4 * dim)
      sendPosted s c slot t (.merge die (launchTag s l) (mergeRecord bs dim)))

end Sys2Proof.Machine
end

