-- ==== Sys2Proof/Machine/Errors.lean ====
section
/-!
DEFINITION. The ends of counting windows and of coalescing holds, and the boundary-scan port (R522, R528, R538).
-/

namespace Sys2Proof.Machine

/-- CE_WINDOW_END (R528): the counts restart, over ERR_CE_WINDOW_S as it now is. -/
def execCeWindowEnd (s : State) : Host.Outcome State Fault Refusal := whenLive s <|
  .next { s with err := { s.err with ce := [], ceWindow := setting s idErrCeWindow } }

/-- COALESCE_HOLD_END (R522): one record for what was held, which starts a new hold; nothing where nothing was held. -/
def execCoalesceHoldEnd (log : FnNo) (code : Nat) (s : State) : Host.Outcome State Fault Refusal := whenLive s <|
  let l := errLog s log.val
  match l.holds.find? (fun h => h.1 == code) with
  | none => .next s
  | some (_, h) => match h.last with
    | none => .next (setErrLog s log.val { l with holds := tdel l.holds code })
    | some r => .next (pushErr (setErrLog s log.val { l with holds := tput l.holds code {} }) log.val { r with count := min h.count 0xFFFF })

/-! ### The boundary-scan port (R538). It runs while the always-on supply is up. -/

/-- A package in its reset or out of it, with the always-on supply up. -/
def jtagUp (s : State) : Bool := s.board.powered && !s.board.brownout

/-- IDCODE: version, part number, manufacturer, 1. -/
def idcodeWord (s : State) : Nat := hubRevMajor s.fuse.variant * 2 ^ 28 + deviceId s.fuse.variant false * 2 ^ 12 + 0x4E7 * 2 + 1

/-- The port takes an instruction. -/
def jtagTake (s : State) (i : JtagIr) : State := if jtagUp s then { s with jtag := { s.jtag with ir := i } } else s

def execBypass (s : State) : Host.Outcome State Fault Refusal := .next (jtagTake s .bypass)
def execIdcode (s : State) : Host.Outcome State Fault Refusal :=
  .next (if jtagUp s then emit (jtagTake s .idcode) (.jtagShift (BitVec.ofNat 32 (idcodeWord s))) else s)

/-- SAMPLE_PRELOAD: the balls' levels are shifted out, in an order that the spec does not give (a free value), and a value in. -/
def execSamplePreload (value : Word) (s : State) : Host.Outcome State Fault Refusal :=
  if jtagUp s then
    let s1 := jtagTake s .sample
    .next (emit { s1 with jtag := { s1.jtag with boundary := value }, free := s1.free + 1 } (.jtagShift ((Config.freeWord s.free).setWidth 32)))
  else .next s

/-- EXTEST, CLAMP: the covered balls leave normal function until the port leaves the instruction. -/
def execExtest (s : State) : Host.Outcome State Fault Refusal := .next (jtagTake s .extest)
def execClamp (s : State) : Host.Outcome State Fault Refusal := .next (jtagTake s .clamp)
def execHighz (s : State) : Host.Outcome State Fault Refusal := .next (jtagTake s .highz)

end Sys2Proof.Machine
end

