-- ==== Sys2Proof/Machine/Matrix.lean ====
section
/-!
DEFINITION. The matrix unit: joint tiles, solo operations, appends from the result path, and the unit's queue (R225 to R239).
-/

namespace Sys2Proof.Machine

/-! ### Operands (R225, R226, R231, R235) -/

/-- K of a format's class (R225). -/
def mtxK (f : Nat) : Nat := match mtxClass f with
  | 0 => 16
  | 1 => 32
  | 2 => 32
  | _ => 64

/-- Whether a format is an integer one. -/
def mtxInt (f : Nat) : Bool := f == 5 || f == 6
/-- Element `k` of packed elements, ascending from byte 0 and low nibble first, as its encoding (R231). -/
def mtxElem (f : Nat) (bs : List Byte) (k : Nat) : Nat :=
  match mtxClass f with
  | 0 => field bs (2 * k) 2
  | 1 => field bs k 1
  | 2 => field bs k 1
  | _ => if k % 2 = 0 then field bs (k / 2) 1 % 16 else field bs (k / 2) 1 / 16

def mtxFpFmt (f : Nat) : FpFmt := match f with
  | 0 => .bf16
  | 1 => .fp16
  | 2 => .e4m3
  | 3 => .e5m2
  | _ => .e2m1

/-- A scaled element value (R226): NaN where its scale is 0xFF. -/
def mtxVal (f : Nat) (x scale : Nat) : FVal :=
  if scale = 0xFF then .nan false
  else match fdecode (mtxFpFmt f) x with
    | .fin n m e => .fin n m (e + ((scale : Int) - 127))
    | v => v

/-- A matrix operand: 32 rows of A or columns of B as packed bytes, and their scales by row and block of 32. -/
structure MtxOperand where
  fmt : Nat
  lines : List (List Byte)
  scales : List (List Nat)

/-- One D element: chunks of 16 products each rounded once into FP32, or the wrapped integer sum (R227 to R229). -/
def mtxDot (a b : MtxOperand) (i j : Nat) (c : Word) : Word :=
  let k := mtxK a.fmt
  let la := a.lines.getD i []
  let lb := b.lines.getD j []
  if mtxInt a.fmt then
    let w := if a.fmt = 5 then 8 else 4
    let sum : Int := ((List.range k).map fun n => sval w (mtxElem a.fmt la n) * sval w (mtxElem b.fmt lb n)).sum
    BitVec.ofNat 32 (wrap 32 ((c.toNat : Int) + sum))
  else
    let sa := a.scales.getD i []
    let sb := b.scales.getD j []
    let out := (List.range (k / 16)).foldl (fun acc ch =>
      (chunkAdd (fdecode .fp32 acc) ((List.range 16).map fun n =>
        let q := 16 * ch + n
        (mtxVal a.fmt (mtxElem a.fmt la q) (sa.getD (q / 32) 127), mtxVal b.fmt (mtxElem b.fmt lb q) (sb.getD (q / 32) 127)))).1) c.toNat
    BitVec.ofNat 32 out

/-- D in row order from A, B and C in row order (R226). -/
def mtxCompute (a b : MtxOperand) (c : List Word) : List Word :=
  (List.range 1024).map fun n => mtxDot a b (n / 32) (n % 32) (c.getD n 0)

/-! ### Joint-tile fragments (R231, R232) -/

def wordBytes (ws : List Word) : List Byte := ws.flatMap fun w => leBytes 4 w.toNat

/-- Rows of A or columns of B from the fragments of threads r and r + 32. -/
def fragLines (fr : List (List Word)) : List (List Byte) :=
  (List.range 32).map fun r => wordBytes (fr.getD r []) ++ wordBytes (fr.getD (r + 32) [])

/-- Scales of rows or columns: FP4 one for each half row, FP8 that of threads 0 to 31 (R231). -/
def fragScales (f : Nat) (ws : List Word) : List (List Nat) :=
  (List.range 32).map fun r =>
    if mtxClass f = 3 then [(ws.getD r 0x7F).toNat % 256, (ws.getD (r + 32) 0x7F).toNat % 256]
    else [(ws.getD r 0x7F).toNat % 256]

/-- C in row order from fragments: row 16h + q of column r in register q of thread r + 32h. -/
def fragC (fr : List (List Word)) : List Word :=
  (List.range 1024).map fun n =>
    let row := n / 32
    (fr.getD (n % 32 + 32 * (row / 16)) []).getD (row % 16) 0

/-! ### Issue (R231 to R238) -/

/-- Registers that a matrix operation will write are free of outstanding loads, and so is a C that chains (R231). -/
def tileFree (x : Core) (slot t c d : Nat) : Bool := !(regSpan c 16 ++ regSpan d 16).any (accPending x slot t)

/-- MMAJ (R231, R232): each thread waits until the whole group has arrived. -/
def execMmaj (i : Issue) (fa fb d a b c : Nat) (sa sb : Option Nat) (s : State) : Host.Outcome State Fault Refusal := whenLive s <|
  let slot := i.slot.val
  let cRegs := if chainsOn (coreAt s i.core.val) slot c then [] else regSpan c 16
  .next (arriveAt s i (regSpan a 4 ++ regSpan b 4 ++ cRegs ++ sa.toList ++ sb.toList) (.mmaj fa fb d a b c sa sb) fun s t =>
    mtxRoom (coreAt s i.core.val) && tileFree (coreAt s i.core.val) slot t c d)

/-- MMAS (R230, R233 to R235): one operation for each active thread, in ascending order. It issues while the unit's queue is not full; what
the queue has no place for follows in the same order. -/
def execMmas (i : Issue) (fa fb ad aa ab ac : Nat) (asa asb : Option Nat) (s : State) : Host.Outcome State Fault Refusal := whenLive s <|
  let c := i.core.val
  let slot := i.slot.val
  let regs := [ad, aa, ab, ac] ++ asa.toList ++ asb.toList
  match tryIssue s i regs with
  | none => .next s
  | some (set, s1) =>
    if !mtxRoom (coreAt s c) then .next s
    else if !mtxWellFormed fa fb then .next (advancePc (noteMalformed s1 c) i set)
    else
      let adr (t r : Nat) : Nat := alignDown (rd s c slot t r).toNat 64
      let one (t : Nat) : MtxOp :=
        .solo fa fb (adr t ad) (adr t aa) (adr t ab) (adr t ac) (asa.map (adr t)) (asb.map (adr t)) t
      .next (advancePc (noteOdd (pushMtx s1 c slot (set.map one)) c slot regs (asa.isSome || asb.isSome) fa) i set)

/-- Solo operations and MAPPENDS of a thread that have not completed (R236). -/
def soloOf (x : Core) (slot t : Nat) : Bool := (mtxAll x).any fun e => e.slot == slot && (match e.op with
  | .solo _ _ _ _ _ _ _ _ u => u == t
  | .appendS _ _ _ u => u == t
  | _ => false)

/-- MFENCE.S (R236): issues once every solo operation and MAPPENDS of the thread has completed. -/
def execMfenceS (i : Issue) (s : State) : Host.Outcome State Fault Refusal := whenLive s <|
  .next (perThreadWhen s i [] (fun s t => !soloOf (coreAt s i.core.val) i.slot.val t) fun s _ => s)

/-- MAPPEND (R237): a joint-tile instruction. Its source and descriptor have come, and the thread's loads and atomics have returned, since
its writes are stores (R244). -/
def execMappend (i : Issue) (d desc : Nat) (rows : Fin 33) (s : State) : Host.Outcome State Fault Refusal := whenLive s <|
  .next (arriveAt s i (regSpan desc 4 ++ regSpan d 16) (.mappend d desc rows.val) fun s t =>
    mtxRoom (coreAt s i.core.val) && acquired s i.core.val i.slot.val t && loadsDone s i.core.val i.slot.val t)

/-- MAPPENDS (R230, R238). -/
def execMappends (i : Issue) (ad desc : Nat) (rows : Fin 33) (s : State) : Host.Outcome State Fault Refusal := whenLive s <|
  let c := i.core.val
  let slot := i.slot.val
  match tryIssue s i (ad :: regSpan desc 4) with
  | none => .next s
  | some (set, s1) =>
    if mtxRoom (coreAt s c) && set.all (fun t => acquired s c slot t && loadsDone s c slot t) then
      let one (t : Nat) : MtxOp :=
        .appendS (alignDown (rd s c slot t ad).toNat 64) ((List.range 4).map fun q => rd s c slot t (desc + q)) rows.val t
      .next (advancePc (noteOdd (pushMtx s1 c slot (set.map one)) c slot (ad :: regSpan desc 4) false 0) i set)
    else .next s

/-! ### The unit (R230, R232, R236 to R239) -/

/-- A solo operand in local store (R235). -/
def soloOperand (s : State) (c slot fmt a : Nat) (scales : Option Nat) : MtxOperand :=
  let bs := lsGet s c slot a 1024
  let nb := mtxK fmt / 32
  { fmt := fmt
    lines := (List.range 32).map fun r => (bs.drop (32 * r)).take 32
    scales := match scales, mtxScales fmt with
      | some sa, true =>
        let ss := lsGet s c slot sa (32 * nb)
        (List.range 32).map fun r => (List.range nb).map fun b => field ss (r * nb + b) 1
      | _, _ => [] }

/-- Thread t's D fragment of a result (R231). -/
def dFrag (result : List Word) (t : Nat) : List Word := (List.range 16).map fun q => result.getD (32 * (16 * (t / 32) + q) + t % 32) 0

/-- The C fragments that a result gives the next operation: an exited thread contributes zero (R230, R232). -/
def chainFrag (result : List Word) (lanes : List Nat) : List (List Word) :=
  (List.range 64).map fun t => if lanes.contains t then dFrag result t else List.replicate 16 0

/-- A 4 KiB tile in local store, as words in row order. -/
def lsTile (s : State) (c slot a : Nat) : List Word :=
  let cb := lsGet s c slot a 4096
  (List.range 1024).map fun n => BitVec.ofNat 32 (field cb (4 * n) 4)

/-- The lowest slot of the block of a group, which names its local store in `intLs`. -/
def blockSlot (s : State) (c slot : Nat) : Nat := match launchOf s c slot with
  | some (b, _) => b.slots.headD 0
  | none => 0

/-- The result of an operation taken by the unit; its C may be the D of the operation that started just before it. An append from an INT32
tile has none (R233, R237). -/
def mtxRunOp (s : State) (c : Nat) (e : MtxEntry) (before : Option MtxEntry) : List Word :=
  match e.op with
  | .joint fa fb _ _ scaled af bf cf sa sb lanes =>
    let cfr := match cf.isEmpty, before with
      | true, some b => chainFrag b.result lanes
      | _, _ => cf
    let sc (f : Nat) (ws : List Word) : List (List Nat) := if scaled && mtxScales f then fragScales f ws else []
    mtxCompute { fmt := fa, lines := fragLines af, scales := sc fa sa } { fmt := fb, lines := fragLines bf, scales := sc fb sb } (fragC cfr)
  | .solo fa fb _ aa ab ac asa asb t =>
    let scaled := asa.isSome && asb.isSome
    let chained := before.bind fun b => match b.op with
      | .solo _ _ bd _ _ _ _ _ u => if b.slot = e.slot && u = t && bd = ac then some b.result else none
      | _ => none
    mtxCompute (soloOperand s c e.slot fa aa (if scaled then asa else none)) (soloOperand s c e.slot fb ab (if scaled then asb else none))
      (chained.getD (lsTile s c e.slot ac))
  | .append frag _ _ _ => fragC frag
  | .appendS ad _ _ _ => if (coreAt s c).intLs.contains (blockSlot s c e.slot, ad) then [] else lsTile s c e.slot ad

/-- Local-store ranges that an operation reads; the C of a solo operation apart. -/
def soloReads (e : MtxEntry) : List (Nat × Nat) := match e.op with
  | .solo _ _ _ aa ab _ asa asb _ => [(aa, 1024), (ab, 1024)] ++ (asa.toList ++ asb.toList).map fun a => (a, 64)
  | .appendS ad _ _ _ => [(ad, 4096)]
  | _ => []

/-- The next operation may start: operations are performed in order, so what it reads in local store is not still to be written, but for a
C that chains on the operation just before; an append is after every earlier solo operation of its thread (R230, R238). -/
def mayStart (s : State) (c : Nat) (run : List MtxEntry) (e : MtxEntry) : Bool :=
  let here (b : MtxEntry) : Bool := blockSlot s c b.slot == blockSlot s c e.slot
  let writes (b : MtxEntry) : Option Nat := match b.op with
    | .solo _ _ bd _ _ _ _ _ _ => if here b then some bd else none
    | _ => none
  let clash (b : MtxEntry) (rs : List (Nat × Nat)) : Bool := match writes b with
    | some bd => rs.any fun r => overlaps bd 4096 r.1 r.2
    | none => false
  decide (run.length < 4) && !run.any (fun b => clash b (soloReads e)) && (match e.op with
    | .solo _ _ _ _ _ ac _ _ t => match run.getLast? with
      | some b => (match b.op with
          | .solo _ _ bd _ _ _ _ _ u => (b.slot == e.slot && u == t && bd == ac && !run.dropLast.any fun b => clash b [(ac, 4096)])
              || !run.any fun b => clash b [(ac, 4096)]
          | _ => !run.any fun b => clash b [(ac, 4096)])
      | none => true
    | .appendS _ _ _ t => !run.any fun b => match b.op with
        | .solo _ _ _ _ _ _ _ _ u => b.slot == e.slot && u == t
        | _ => false
    | _ => true)

/-- What waits for the unit may go on: groups of the core whose convergence points are due. -/
def releaseCore (s : State) (c : Nat) : State :=
  ((coreAt s c).groups.map (·.1)).foldl (fun s sl => releaseDue s c sl 64) s

/-- Counts an append of an INT32 tile under R233, once for its instruction. -/
def noteInt (s : State) (c : Nat) (e : MtxEntry) : State :=
  if (coreAt s c).mtxBad = some e.instr then s
  else noteMalformed (setCore s c { coreAt s c with mtxBad := some e.instr }) c

/-- MATRIX_OP_START (R230): the unit takes the next operation of its queue; a place in the queue may release a joint tile. -/
def execMatrixOpStart (c : CoreNo) (s : State) : Host.Outcome State Fault Refusal := whenLive s <|
  let x := coreAt s c.val
  match x.mtxQ with
  | [] => .next s
  | e :: rest =>
    if mayStart s c.val x.mtxRun e then
      let r := mtxRunOp s c.val e x.mtxRun.getLast?
      let s1 := setCore s c.val (mtxRefill { x with mtxQ := rest, mtxRun := x.mtxRun ++ [{ e with result := r }] })
      let s2 := match e.op with
        | .appendS _ _ _ _ => if r.isEmpty then noteInt s1 c.val e else s1
        | _ => s1
      .next (releaseCore s2 c.val)
    else .next s

/-- The elements of row i of a tile, as an append write carries them (R237). -/
def rowWords (bf16 : Bool) (i : Nat) (d : List Word) : List Word :=
  (List.range 32).map fun j =>
    let v := d.getD (32 * i + j) 0
    if bf16 then BitVec.ofNat 32 (convVal .bf16 .rne false (fdecode .fp32 v.toNat) 0).1 else v

/-- Sends the append writes of a tile (R237, R238). -/
def sendAppends (s : State) (c slot lane rows : Nat) (desc d : List Word) : State :=
  let asid := match launchOf s c slot with
    | some (_, l) => launchTag s l
    | none => 0
  ((appendTags desc rows).zip (List.range rows)).foldl (fun s p =>
    bump (sendPosted s c slot lane (.append p.1 (rowWords (p.1.srcFormat == 1) p.2 d) asid)) (dieReg (coreDie c) mtxAppendCnt)) s

/-- Joint tiles, solo operations and appends are each completed in the order of the unit. -/
def mtxKind (e : MtxEntry) : Nat := match e.op with
  | .joint _ _ _ _ _ _ _ _ _ _ _ => 0
  | .solo _ _ _ _ _ _ _ _ _ => 1
  | .append _ _ _ _ => 2
  | .appendS _ _ _ _ => 2

/-- The operation after position k in the unit takes its C from this result, if it chains (R230). -/
def handChain (x : Core) (k : Nat) (result : List Word) : Core :=
  let fill (e : MtxEntry) : MtxEntry := match e.op with
    | .joint fa fb d c sc af bf [] sa sb lanes => { e with op := .joint fa fb d c sc af bf (chainFrag result lanes) sa sb lanes }
    | _ => e
  if k + 1 < x.mtxRun.length then x
  else match x.mtxQ, x.mtxFeed with
    | e :: r, _ => { x with mtxQ := fill e :: r }
    | [], e :: r => { x with mtxFeed := fill e :: r }
    | [], [] => x

/-- What the completion of an operation writes: D into the released threads' registers or into local store, or the append writes are sent
(R230, R232, R235, R237). -/
def mtxWrite (s : State) (c : Nat) (e : MtxEntry) : State :=
  match e.op with
  | .joint fa _ d _ _ _ _ _ _ _ lanes =>
    let s2 := lanes.foldl (fun s t => ((dFrag e.result t).zip (List.range 16)).foldl (fun s p => wr s c e.slot t (d + p.2) p.1.toNat) s) s
    let y := coreAt s2 c
    let s3 := if mtxInt fa then setCore s2 c { y with intTiles := y.intTiles ++ [(e.slot, d)] } else s2
    bump s3 (dieReg (coreDie c) mtxJointCnt)
  | .solo fa _ ad _ _ _ _ _ _ =>
    let s2 := lsPut s c e.slot ad (wordBytes e.result)
    let y := coreAt s2 c
    let s3 := if mtxInt fa then setCore s2 c { y with intLs := y.intLs ++ [(blockSlot s2 c e.slot, ad)] } else s2
    bump s3 (dieReg (coreDie c) mtxSoloCnt)
  | .append _ desc rows lane => sendAppends s c e.slot lane rows desc e.result
  | .appendS _ desc rows lane => if e.result.isEmpty then s else sendAppends s c e.slot lane rows desc e.result

/-- MATRIX_OP_COMPLETE (R230, R232, R235, R237): a started operation, the oldest of its kind, writes its results. -/
def execMatrixOpComplete (p : MtxPlace) (s : State) : Host.Outcome State Fault Refusal := whenLive s <|
  let c := p.core
  let k := p.k
  let x := coreAt s c.val
  match x.mtxRun[k.val]? with
  | none => .next s
  | some e =>
    if (x.mtxRun.take k.val).any (fun b => mtxKind b == mtxKind e) then .next s
    else
      let x1 := handChain x k.val e.result
      .next (releaseCore (mtxWrite (setCore s c.val { x1 with mtxRun := x1.mtxRun.eraseIdx k.val }) c.val e) c.val)

end Sys2Proof.Machine
end

