-- ==== Sys2Proof/Machine/Dispatch.lean ====
section
/-! DEFINITION. The dispatch of the block: one arm per command, each a direct call of its meaning. -/

namespace Sys2Proof.Machine

def exec (i : Instr) (s : State) : Host.Outcome State Fault Refusal :=
  match i with
  | .configRequest x1 x2 => Sys2Proof.Machine.execConfigRequest x1 x2 s
  | .hotReset => Sys2Proof.Machine.execHotReset s
  | .linkDownReset => Sys2Proof.Machine.execLinkDownReset s
  | .pfFunctionLevelReset => Sys2Proof.Machine.execPfFunctionLevelReset s
  | .vfFunctionLevelReset x1 => Sys2Proof.Machine.execVfFunctionLevelReset x1 s
  | .flrLaunchTimeout x1 => Sys2Proof.Machine.execFlrLaunchTimeout x1 s
  | .vfResetComplete x1 => Sys2Proof.Machine.execVfResetComplete x1 s
  | .vfEnableSet x1 => Sys2Proof.Machine.execVfEnableSet x1 s
  | .vfEnableClear => Sys2Proof.Machine.execVfEnableClear s
  | .bar2Read x1 x2 => Sys2Proof.Machine.execBar2Read x1 x2 s
  | .bar2Write x1 x2 => Sys2Proof.Machine.execBar2Write x1 x2 s
  | .bar2Atomicop x1 => Sys2Proof.Machine.execBar2Atomicop x1 s
  | .hubBar2ApertureWrite x1 x2 => Sys2Proof.Machine.execHubBar2ApertureWrite x1 x2 s
  | .blockWindowWrite x1 x2 x3 => Sys2Proof.Machine.execBlockWindowWrite x1 x2 x3 s
  | .qdbTailWrite x1 x2 x3 x4 => Sys2Proof.Machine.execQdbTailWrite x1 x2 x3 x4 s
  | .responseWindowWrite x1 x2 x3 x4 => Sys2Proof.Machine.execResponseWindowWrite x1 x2 x3 x4 s
  | .registerWrite x1 x2 x3 x4 => Sys2Proof.Machine.execRegisterWrite x1 x2 x3 x4 s
  | .readClearRead x1 x2 => Sys2Proof.Machine.execReadClearRead x1 x2 s
  | .hubTimeLoRead => Sys2Proof.Machine.execHubTimeLoRead s
  | .srvSnapRead => Sys2Proof.Machine.execSrvSnapRead s
  | .tntLogSyncRead => Sys2Proof.Machine.execTntLogSyncRead s
  | .go x1 => Sys2Proof.Machine.execGo x1 s
  | .ack x1 => Sys2Proof.Machine.execAck x1 s
  | .cancel x1 => Sys2Proof.Machine.execCancel x1 s
  | .mbxResponsePost x1 => Sys2Proof.Machine.execMbxResponsePost x1 s
  | .mbxTimeoutExpiry x1 => Sys2Proof.Machine.execMbxTimeoutExpiry x1 s
  | .pcfRestart => Sys2Proof.Machine.execPcfRestart s
  | .discover x1 => Sys2Proof.Machine.execDiscover x1 s
  | .capsQuery x1 => Sys2Proof.Machine.execCapsQuery x1 s
  | .eventRingSet x1 => Sys2Proof.Machine.execEventRingSet x1 s
  | .queueOpen x1 x2 x3 x4 => Sys2Proof.Machine.execQueueOpen x1 x2 x3 x4 s
  | .queueClose x1 => Sys2Proof.Machine.execQueueClose x1 s
  | .queueCloseDrainComplete x1 => Sys2Proof.Machine.execQueueCloseDrainComplete x1 s
  | .queueQuery x1 => Sys2Proof.Machine.execQueueQuery x1 s
  | .bundleLoad x1 => Sys2Proof.Machine.execBundleLoad x1 s
  | .bundleLoadVerifyComplete => Sys2Proof.Machine.execBundleLoadVerifyComplete s
  | .bundleReplicationComplete => Sys2Proof.Machine.execBundleReplicationComplete s
  | .bundleSwap x1 => Sys2Proof.Machine.execBundleSwap x1 s
  | .swapDrainEnd => Sys2Proof.Machine.execSwapDrainEnd s
  | .swapDrainExpiry => Sys2Proof.Machine.execSwapDrainExpiry s
  | .swapHalfReplicated => Sys2Proof.Machine.execSwapHalfReplicated s
  | .bundleQuery x1 => Sys2Proof.Machine.execBundleQuery x1 s
  | .sessionCreate x1 => Sys2Proof.Machine.execSessionCreate x1 s
  | .sessionEnd x1 => Sys2Proof.Machine.execSessionEnd x1 s
  | .sessionQuery x1 => Sys2Proof.Machine.execSessionQuery x1 s
  | .settingGet x1 => Sys2Proof.Machine.execSettingGet x1 s
  | .settingSet x1 x2 x3 x4 => Sys2Proof.Machine.execSettingSet x1 x2 x3 x4 s
  | .userLayerEraseComplete => Sys2Proof.Machine.execUserLayerEraseComplete s
  | .epochQuery x1 => Sys2Proof.Machine.execEpochQuery x1 s
  | .epochDieStaged => Sys2Proof.Machine.execEpochDieStaged s
  | .epochRetire x1 => Sys2Proof.Machine.execEpochRetire x1 s
  | .tenantConfig x1 => Sys2Proof.Machine.execTenantConfig x1 s
  | .rangeZeroFillComplete x1 => Sys2Proof.Machine.execRangeZeroFillComplete x1 s
  | .freeze x1 => Sys2Proof.Machine.execFreeze x1 s
  | .freezeQuiesceComplete x1 => Sys2Proof.Machine.execFreezeQuiesceComplete x1 s
  | .freezeLimitExpiry x1 => Sys2Proof.Machine.execFreezeLimitExpiry x1 s
  | .thaw x1 => Sys2Proof.Machine.execThaw x1 s
  | .save x1 => Sys2Proof.Machine.execSave x1 s
  | .saveComplete x1 => Sys2Proof.Machine.execSaveComplete x1 s
  | .restore x1 => Sys2Proof.Machine.execRestore x1 s
  | .restoreComplete x1 => Sys2Proof.Machine.execRestoreComplete x1 s
  | .startDirtyLog x1 => Sys2Proof.Machine.execStartDirtyLog x1 s
  | .stopDirtyLog x1 => Sys2Proof.Machine.execStopDirtyLog x1 s
  | .tenantQuery x1 => Sys2Proof.Machine.execTenantQuery x1 s
  | .linkTest x1 => Sys2Proof.Machine.execLinkTest x1 s
  | .linkTestComplete x1 x2 x3 x4 x5 x6 => Sys2Proof.Machine.execLinkTestComplete x1 x2 x3 x4 x5 x6 s
  | .linkQuery x1 => Sys2Proof.Machine.execLinkQuery x1 s
  | .twinPair x1 => Sys2Proof.Machine.execTwinPair x1 s
  | .twinAttach x1 => Sys2Proof.Machine.execTwinAttach x1 s
  | .twinDetach x1 => Sys2Proof.Machine.execTwinDetach x1 s
  | .twinQuery x1 => Sys2Proof.Machine.execTwinQuery x1 s
  | .blockAccessOpen x1 => Sys2Proof.Machine.execBlockAccessOpen x1 s
  | .blockAccessClose x1 => Sys2Proof.Machine.execBlockAccessClose x1 s
  | .errRead x1 => Sys2Proof.Machine.execErrRead x1 s
  | .dieQuarantine x1 => Sys2Proof.Machine.execDieQuarantine x1 s
  | .quarantineDrainComplete x1 => Sys2Proof.Machine.execQuarantineDrainComplete x1 s
  | .quarantineDrainExpiry x1 => Sys2Proof.Machine.execQuarantineDrainExpiry x1 s
  | .dieReturnToService x1 => Sys2Proof.Machine.execDieReturnToService x1 s
  | .returnToServiceComplete x1 => Sys2Proof.Machine.execReturnToServiceComplete x1 s
  | .enterDeepIdle x1 => Sys2Proof.Machine.execEnterDeepIdle x1 s
  | .wakeToIdle x1 => Sys2Proof.Machine.execWakeToIdle x1 s
  | .powerQuery x1 => Sys2Proof.Machine.execPowerQuery x1 s
  | .stepBoundary => Sys2Proof.Machine.execStepBoundary s
  | .turn x1 x2 => Sys2Proof.Machine.execTurn x1 x2 s
  | .reserve x1 x2 => Sys2Proof.Machine.execReserve x1 x2 s
  | .rowZeroFillComplete x1 => Sys2Proof.Machine.execRowZeroFillComplete x1 s
  | .commit x1 x2 => Sys2Proof.Machine.execCommit x1 x2 s
  | .rollback x1 x2 => Sys2Proof.Machine.execRollback x1 x2 s
  | .stat x1 x2 => Sys2Proof.Machine.execStat x1 x2 s
  | .mergeArm x1 x2 => Sys2Proof.Machine.execMergeArm x1 x2 s
  | .mergeAbort x1 x2 => Sys2Proof.Machine.execMergeAbort x1 x2 s
  | .appendWrite x1 x2 x3 => Sys2Proof.Machine.execAppendWrite x1 x2 x3 s
  | .mergeWrite x1 x2 x3 => Sys2Proof.Machine.execMergeWrite x1 x2 x3 s
  | .mirrorSend x1 => Sys2Proof.Machine.execMirrorSend x1 s
  | .commandFetch x1 => Sys2Proof.Machine.execCommandFetch x1 s
  | .commandStart x1 x2 => Sys2Proof.Machine.execCommandStart x1 x2 s
  | .commandComplete x1 x2 => Sys2Proof.Machine.execCommandComplete x1 x2 s
  | .nop x1 x2 => Sys2Proof.Machine.execNop x1 x2 s
  | .fence x1 x2 => Sys2Proof.Machine.execFence x1 x2 s
  | .waitCmd x1 x2 => Sys2Proof.Machine.execWaitCmd x1 x2 s
  | .waitTimeout x1 x2 => Sys2Proof.Machine.execWaitTimeout x1 x2 s
  | .waitHostPoll x1 x2 => Sys2Proof.Machine.execWaitHostPoll x1 x2 s
  | .signal x1 x2 => Sys2Proof.Machine.execSignal x1 x2 s
  | .launch x1 x2 => Sys2Proof.Machine.execLaunch x1 x2 s
  | .copy x1 x2 => Sys2Proof.Machine.execCopy x1 x2 s
  | .fill x1 x2 => Sys2Proof.Machine.execFill x1 x2 s
  | .ucInval x1 x2 => Sys2Proof.Machine.execUcInval x1 x2 s
  | .xlatInval x1 x2 => Sys2Proof.Machine.execXlatInval x1 x2 s
  | .xlatInvalWaitEnd x1 => Sys2Proof.Machine.execXlatInvalWaitEnd x1 s
  | .rwrite x1 x2 => Sys2Proof.Machine.execRwrite x1 x2 s
  | .rfence x1 x2 => Sys2Proof.Machine.execRfence x1 x2 s
  | .blockStart x1 x2 => Sys2Proof.Machine.execBlockStart x1 x2 s
  | .blockEnd x1 x2 => Sys2Proof.Machine.execBlockEnd x1 x2 s
  | .groupWatchdogExpiry x1 x2 => Sys2Proof.Machine.execGroupWatchdogExpiry x1 x2 s
  | .hangStopComplete x1 => Sys2Proof.Machine.execHangStopComplete x1 s
  | .autoSplit x1 x2 => Sys2Proof.Machine.execAutoSplit x1 x2 s
  | .split x1 => Sys2Proof.Machine.execSplit x1 s
  | .repack x1 => Sys2Proof.Machine.execRepack x1 s
  | .converge x1 x2 => Sys2Proof.Machine.execConverge x1 x2 s
  | .yieldSet x1 => Sys2Proof.Machine.execYieldSet x1 s
  | .barBlock x1 => Sys2Proof.Machine.execBarBlock x1 s
  | .exitThread x1 => Sys2Proof.Machine.execExitThread x1 s
  | .sgather x1 x2 x3 => Sys2Proof.Machine.execSgather x1 x2 x3 s
  | .mwrite x1 x2 x3 x4 => Sys2Proof.Machine.execMwrite x1 x2 x3 x4 s
  | .fma x1 x2 x3 x4 x5 x6 x7 => Sys2Proof.Machine.execFma x1 x2 x3 x4 x5 x6 x7 s
  | .fpDiv x1 x2 x3 x4 x5 x6 => Sys2Proof.Machine.execFpDiv x1 x2 x3 x4 x5 x6 s
  | .sqrt x1 x2 x3 x4 x5 => Sys2Proof.Machine.execSqrt x1 x2 x3 x4 x5 s
  | .rcp x1 x2 x3 x4 x5 => Sys2Proof.Machine.execRcp x1 x2 x3 x4 x5 s
  | .rsqrt x1 x2 x3 x4 x5 => Sys2Proof.Machine.execRsqrt x1 x2 x3 x4 x5 s
  | .exp2 x1 x2 x3 x4 x5 => Sys2Proof.Machine.execExp2 x1 x2 x3 x4 x5 s
  | .log2 x1 x2 x3 x4 x5 => Sys2Proof.Machine.execLog2 x1 x2 x3 x4 x5 s
  | .fpMin x1 x2 x3 x4 x5 => Sys2Proof.Machine.execFpMin x1 x2 x3 x4 x5 s
  | .fpMax x1 x2 x3 x4 x5 => Sys2Proof.Machine.execFpMax x1 x2 x3 x4 x5 s
  | .fpCompare x1 x2 x3 x4 x5 x6 => Sys2Proof.Machine.execFpCompare x1 x2 x3 x4 x5 x6 s
  | .fpConvert x1 x2 x3 x4 x5 x6 x7 => Sys2Proof.Machine.execFpConvert x1 x2 x3 x4 x5 x6 x7 s
  | .convertToInteger x1 x2 x3 x4 x5 x6 => Sys2Proof.Machine.execConvertToInteger x1 x2 x3 x4 x5 x6 s
  | .convertFromInteger x1 x2 x3 x4 x5 x6 x7 => Sys2Proof.Machine.execConvertFromInteger x1 x2 x3 x4 x5 x6 x7 s
  | .scaledConvert x1 x2 x3 x4 x5 x6 x7 x8 => Sys2Proof.Machine.execScaledConvert x1 x2 x3 x4 x5 x6 x7 x8 s
  | .qmx x1 x2 x3 x4 x5 x6 => Sys2Proof.Machine.execQmx x1 x2 x3 x4 x5 x6 s
  | .intAdd x1 x2 x3 x4 x5 => Sys2Proof.Machine.execIntAdd x1 x2 x3 x4 x5 s
  | .intSub x1 x2 x3 x4 x5 => Sys2Proof.Machine.execIntSub x1 x2 x3 x4 x5 s
  | .intMul x1 x2 x3 x4 x5 => Sys2Proof.Machine.execIntMul x1 x2 x3 x4 x5 s
  | .intNeg x1 x2 x3 x4 => Sys2Proof.Machine.execIntNeg x1 x2 x3 x4 s
  | .intAbs x1 x2 x3 x4 => Sys2Proof.Machine.execIntAbs x1 x2 x3 x4 s
  | .mulhi x1 x2 x3 x4 x5 x6 => Sys2Proof.Machine.execMulhi x1 x2 x3 x4 x5 x6 s
  | .intDiv x1 x2 x3 x4 x5 x6 => Sys2Proof.Machine.execIntDiv x1 x2 x3 x4 x5 x6 s
  | .rem x1 x2 x3 x4 x5 x6 => Sys2Proof.Machine.execRem x1 x2 x3 x4 x5 x6 s
  | .shl x1 x2 x3 x4 x5 => Sys2Proof.Machine.execShl x1 x2 x3 x4 x5 s
  | .shr x1 x2 x3 x4 x5 => Sys2Proof.Machine.execShr x1 x2 x3 x4 x5 s
  | .sar x1 x2 x3 x4 x5 => Sys2Proof.Machine.execSar x1 x2 x3 x4 x5 s
  | .rol x1 x2 x3 x4 x5 => Sys2Proof.Machine.execRol x1 x2 x3 x4 x5 s
  | .ror x1 x2 x3 x4 x5 => Sys2Proof.Machine.execRor x1 x2 x3 x4 x5 s
  | .clz x1 x2 x3 x4 => Sys2Proof.Machine.execClz x1 x2 x3 x4 s
  | .ctz x1 x2 x3 x4 => Sys2Proof.Machine.execCtz x1 x2 x3 x4 s
  | .addSat x1 x2 x3 x4 x5 x6 => Sys2Proof.Machine.execAddSat x1 x2 x3 x4 x5 x6 s
  | .subSat x1 x2 x3 x4 x5 x6 => Sys2Proof.Machine.execSubSat x1 x2 x3 x4 x5 x6 s
  | .mulSat x1 x2 x3 x4 x5 x6 => Sys2Proof.Machine.execMulSat x1 x2 x3 x4 x5 x6 s
  | .negSat x1 x2 x3 x4 x5 => Sys2Proof.Machine.execNegSat x1 x2 x3 x4 x5 s
  | .absSat x1 x2 x3 x4 x5 => Sys2Proof.Machine.execAbsSat x1 x2 x3 x4 x5 s
  | .divSat x1 x2 x3 x4 x5 x6 => Sys2Proof.Machine.execDivSat x1 x2 x3 x4 x5 x6 s
  | .rdsr x1 x2 x3 => Sys2Proof.Machine.execRdsr x1 x2 x3 s
  | .clrflags x1 x2 => Sys2Proof.Machine.execClrflags x1 x2 s
  | .mmaj x1 x2 x3 x4 x5 x6 x7 x8 x9 => Sys2Proof.Machine.execMmaj x1 x2 x3 x4 x5 x6 x7 x8 x9 s
  | .mmas x1 x2 x3 x4 x5 x6 x7 x8 x9 => Sys2Proof.Machine.execMmas x1 x2 x3 x4 x5 x6 x7 x8 x9 s
  | .mfenceS x1 => Sys2Proof.Machine.execMfenceS x1 s
  | .mappend x1 x2 x3 x4 => Sys2Proof.Machine.execMappend x1 x2 x3 x4 s
  | .mappends x1 x2 x3 x4 => Sys2Proof.Machine.execMappends x1 x2 x3 x4 s
  | .matrixOpStart x1 => Sys2Proof.Machine.execMatrixOpStart x1 s
  | .matrixOpComplete x1 => Sys2Proof.Machine.execMatrixOpComplete x1 s
  | .ld x1 x2 x3 x4 => Sys2Proof.Machine.execLd x1 x2 x3 x4 s
  | .st x1 x2 x3 x4 => Sys2Proof.Machine.execSt x1 x2 x3 x4 s
  | .storeQueueDrain x1 x2 => Sys2Proof.Machine.execStoreQueueDrain x1 x2 s
  | .ldAcq x1 x2 x3 x4 x5 => Sys2Proof.Machine.execLdAcq x1 x2 x3 x4 x5 s
  | .stRel x1 x2 x3 x4 x5 => Sys2Proof.Machine.execStRel x1 x2 x3 x4 x5 s
  | .atom x1 x2 x3 x4 x5 x6 x7 x8 => Sys2Proof.Machine.execAtom x1 x2 x3 x4 x5 x6 x7 x8 s
  | .red x1 x2 x3 x4 x5 x6 => Sys2Proof.Machine.execRed x1 x2 x3 x4 x5 x6 s
  | .threadFence x1 x2 => Sys2Proof.Machine.execThreadFence x1 x2 s
  | .ldwait x1 x2 x3 x4 => Sys2Proof.Machine.execLdwait x1 x2 x3 x4 s
  | .ldwaitTimeout x1 x2 x3 => Sys2Proof.Machine.execLdwaitTimeout x1 x2 x3 s
  | .ldwaitHostPoll x1 x2 x3 => Sys2Proof.Machine.execLdwaitHostPoll x1 x2 x3 s
  | .cinv x1 x2 => Sys2Proof.Machine.execCinv x1 x2 s
  | .ldl x1 x2 x3 x4 => Sys2Proof.Machine.execLdl x1 x2 x3 x4 s
  | .stl x1 x2 x3 x4 => Sys2Proof.Machine.execStl x1 x2 x3 x4 s
  | .gets x1 x2 => Sys2Proof.Machine.execGets x1 x2 s
  | .getm x1 x2 => Sys2Proof.Machine.execGetm x1 x2 s
  | .getmFull x1 x2 => Sys2Proof.Machine.execGetmFull x1 x2 s
  | .atomMessage x1 x2 => Sys2Proof.Machine.execAtomMessage x1 x2 s
  | .redMessage x1 x2 => Sys2Proof.Machine.execRedMessage x1 x2 s
  | .farWrite x1 x2 => Sys2Proof.Machine.execFarWrite x1 x2 s
  | .coherentRead x1 x2 => Sys2Proof.Machine.execCoherentRead x1 x2 s
  | .bypassWrite x1 x2 => Sys2Proof.Machine.execBypassWrite x1 x2 s
  | .invalidation x1 => Sys2Proof.Machine.execInvalidation x1 s
  | .fwdS x1 x2 => Sys2Proof.Machine.execFwdS x1 x2 s
  | .fwdM x1 x2 => Sys2Proof.Machine.execFwdM x1 x2 s
  | .recallLine x1 x2 => Sys2Proof.Machine.execRecallLine x1 x2 s
  | .inv x1 x2 => Sys2Proof.Machine.execInv x1 x2 s
  | .gnt x1 x2 => Sys2Proof.Machine.execGnt x1 x2 s
  | .invAck x1 x2 => Sys2Proof.Machine.execInvAck x1 x2 s
  | .noline x1 x2 => Sys2Proof.Machine.execNoline x1 x2 s
  | .atomRes x1 x2 => Sys2Proof.Machine.execAtomRes x1 x2 s
  | .data x1 x2 => Sys2Proof.Machine.execData x1 x2 s
  | .wb x1 x2 => Sys2Proof.Machine.execWb x1 x2 s
  | .unblock x1 x2 => Sys2Proof.Machine.execUnblock x1 x2 s
  | .wbDone x1 x2 => Sys2Proof.Machine.execWbDone x1 x2 s
  | .claimHoldEnd x1 x2 => Sys2Proof.Machine.execClaimHoldEnd x1 x2 s
  | .predictorDecay => Sys2Proof.Machine.execPredictorDecay s
  | .ucPredFlush x1 x2 x3 => Sys2Proof.Machine.execUcPredFlush x1 x2 x3 s
  | .stackRequestAccept x1 x2 => Sys2Proof.Machine.execStackRequestAccept x1 x2 s
  | .stackRequestServe x1 x2 x3 => Sys2Proof.Machine.execStackRequestServe x1 x2 x3 s
  | .refresh x1 => Sys2Proof.Machine.execRefresh x1 s
  | .hbmTemperatureReadout x1 x2 => Sys2Proof.Machine.execHbmTemperatureReadout x1 x2 s
  | .ecsReadout x1 x2 => Sys2Proof.Machine.execEcsReadout x1 x2 s
  | .patrolScrubRead x1 x2 x3 => Sys2Proof.Machine.execPatrolScrubRead x1 x2 x3 s
  | .retirementListUpdate x1 => Sys2Proof.Machine.execRetirementListUpdate x1 s
  | .stackZeroFillComplete x1 => Sys2Proof.Machine.execStackZeroFillComplete x1 s
  | .stackTrainingComplete x1 x2 x3 x4 x5 x6 => Sys2Proof.Machine.execStackTrainingComplete x1 x2 x3 x4 x5 x6 s
  | .tableWalk x1 x2 x3 => Sys2Proof.Machine.execTableWalk x1 x2 x3 s
  | .copyFault x1 x2 => Sys2Proof.Machine.execCopyFault x1 x2 s
  | .atsCompletion x1 x2 x3 x4 => Sys2Proof.Machine.execAtsCompletion x1 x2 x3 x4 s
  | .priResponse x1 x2 x3 => Sys2Proof.Machine.execPriResponse x1 x2 x3 s
  | .priTimeout x1 x2 => Sys2Proof.Machine.execPriTimeout x1 x2 s
  | .hostReadCompletion x1 x2 => Sys2Proof.Machine.execHostReadCompletion x1 x2 s
  | .atsInvalidateRequest x1 x2 x3 x4 => Sys2Proof.Machine.execAtsInvalidateRequest x1 x2 x3 x4 s
  | .lenotFlitRound x1 x2 => Sys2Proof.Machine.execLenotFlitRound x1 x2 s
  | .lenotPayloadFlit x1 => Sys2Proof.Machine.execLenotPayloadFlit x1 s
  | .lenotAckOnlyFlit x1 => Sys2Proof.Machine.execLenotAckOnlyFlit x1 s
  | .lenotSleepReq x1 => Sys2Proof.Machine.execLenotSleepReq x1 s
  | .lenotSleepAck x1 => Sys2Proof.Machine.execLenotSleepAck x1 s
  | .lenotSleepNak x1 => Sys2Proof.Machine.execLenotSleepNak x1 s
  | .lenotSleepIdleExpiry x1 => Sys2Proof.Machine.execLenotSleepIdleExpiry x1 s
  | .lenotWake x1 => Sys2Proof.Machine.execLenotWake x1 s
  | .lenotReplayTimerExpiry x1 => Sys2Proof.Machine.execLenotReplayTimerExpiry x1 s
  | .laneLockLoss x1 x2 x3 => Sys2Proof.Machine.execLaneLockLoss x1 x2 x3 s
  | .lenotRetrain x1 => Sys2Proof.Machine.execLenotRetrain x1 s
  | .lenotRetrainComplete x1 x2 x3 x4 => Sys2Proof.Machine.execLenotRetrainComplete x1 x2 x3 x4 s
  | .lenotLaneTestComplete x1 x2 x3 => Sys2Proof.Machine.execLenotLaneTestComplete x1 x2 x3 s
  | .mark x1 x2 x3 => Sys2Proof.Machine.execMark x1 x2 x3 s
  | .markDone x1 x2 x3 => Sys2Proof.Machine.execMarkDone x1 x2 x3 s
  | .registerAccessMessage x1 => Sys2Proof.Machine.execRegisterAccessMessage x1 s
  | .lntPatCtrlWrite x1 x2 x3 => Sys2Proof.Machine.execLntPatCtrlWrite x1 x2 x3 s
  | .hwsPayloadFrame x1 x2 => Sys2Proof.Machine.execHwsPayloadFrame x1 x2 s
  | .hwsAckOnlyFrame x1 x2 => Sys2Proof.Machine.execHwsAckOnlyFrame x1 x2 s
  | .hwsSleepReq x1 x2 => Sys2Proof.Machine.execHwsSleepReq x1 x2 s
  | .hwsSleepAck x1 x2 => Sys2Proof.Machine.execHwsSleepAck x1 x2 s
  | .hwsSleepNak x1 x2 => Sys2Proof.Machine.execHwsSleepNak x1 x2 s
  | .hwsSleepIdleExpiry x1 => Sys2Proof.Machine.execHwsSleepIdleExpiry x1 s
  | .hwsReplayTimerExpiry x1 => Sys2Proof.Machine.execHwsReplayTimerExpiry x1 s
  | .gainUpdate x1 x2 => Sys2Proof.Machine.execGainUpdate x1 x2 s
  | .startOfBurstDelimiter x1 x2 => Sys2Proof.Machine.execStartOfBurstDelimiter x1 x2 s
  | .gainHandover x1 => Sys2Proof.Machine.execGainHandover x1 s
  | .signalDetect x1 => Sys2Proof.Machine.execSignalDetect x1 s
  | .hwsWake x1 => Sys2Proof.Machine.execHwsWake x1 s
  | .burstAcquisitionFailure x1 => Sys2Proof.Machine.execBurstAcquisitionFailure x1 s
  | .wakeBurstTimeout x1 => Sys2Proof.Machine.execWakeBurstTimeout x1 s
  | .capabilityWord x1 x2 => Sys2Proof.Machine.execCapabilityWord x1 x2 s
  | .hwsTrainingComplete x1 x2 => Sys2Proof.Machine.execHwsTrainingComplete x1 x2 s
  | .hwsFrameLossTimeout x1 => Sys2Proof.Machine.execHwsFrameLossTimeout x1 s
  | .hwsRetrainRetryTimer x1 => Sys2Proof.Machine.execHwsRetrainRetryTimer x1 s
  | .wdata => Sys2Proof.Machine.execWdata s
  | .close => Sys2Proof.Machine.execClose s
  | .wdone => Sys2Proof.Machine.execWdone s
  | .e2eTimerExpiry x1 x2 => Sys2Proof.Machine.execE2eTimerExpiry x1 x2 s
  | .inboundTxnTimeout x1 x2 => Sys2Proof.Machine.execInboundTxnTimeout x1 x2 s
  | .pcfMessage x1 => Sys2Proof.Machine.execPcfMessage x1 s
  | .hb => Sys2Proof.Machine.execHb s
  | .twinFence => Sys2Proof.Machine.execTwinFence s
  | .fenceAck => Sys2Proof.Machine.execFenceAck s
  | .fenceNak => Sys2Proof.Machine.execFenceNak s
  | .pairReq => Sys2Proof.Machine.execPairReq s
  | .shOpen => Sys2Proof.Machine.execShOpen s
  | .shData => Sys2Proof.Machine.execShData s
  | .shCommit => Sys2Proof.Machine.execShCommit s
  | .shEnd => Sys2Proof.Machine.execShEnd s
  | .shNak => Sys2Proof.Machine.execShNak s
  | .handover => Sys2Proof.Machine.execHandover s
  | .promoteReq => Sys2Proof.Machine.execPromoteReq s
  | .syncDone => Sys2Proof.Machine.execSyncDone s
  | .shAck => Sys2Proof.Machine.execShAck s
  | .heartbeatTick => Sys2Proof.Machine.execHeartbeatTick s
  | .liveIncrement => Sys2Proof.Machine.execLiveIncrement s
  | .twinDeadTimeout => Sys2Proof.Machine.execTwinDeadTimeout s
  | .fenceResendTick => Sys2Proof.Machine.execFenceResendTick s
  | .fenceAnswerTimeout => Sys2Proof.Machine.execFenceAnswerTimeout s
  | .fencedSessionCleanup => Sys2Proof.Machine.execFencedSessionCleanup s
  | .promoteShadow => Sys2Proof.Machine.execPromoteShadow s
  | .twinPairWaitTimeout => Sys2Proof.Machine.execTwinPairWaitTimeout s
  | .detachDrainExpiry => Sys2Proof.Machine.execDetachDrainExpiry s
  | .uncontainedDieError x1 x2 x3 => Sys2Proof.Machine.execUncontainedDieError x1 x2 x3 s
  | .uncontainedPackageError x1 x2 => Sys2Proof.Machine.execUncontainedPackageError x1 x2 s
  | .clusterClockGate x1 => Sys2Proof.Machine.execClusterClockGate x1 s
  | .clusterPowerGate x1 => Sys2Proof.Machine.execClusterPowerGate x1 s
  | .clusterWakeComplete x1 => Sys2Proof.Machine.execClusterWakeComplete x1 s
  | .dieRetentionEntry x1 => Sys2Proof.Machine.execDieRetentionEntry x1 s
  | .dieWakeComplete x1 => Sys2Proof.Machine.execDieWakeComplete x1 s
  | .scpHalt => Sys2Proof.Machine.execScpHalt s
  | .scpWake => Sys2Proof.Machine.execScpWake s
  | .deepIdleAutoEntry => Sys2Proof.Machine.execDeepIdleAutoEntry s
  | .deepIdleEntryComplete => Sys2Proof.Machine.execDeepIdleEntryComplete s
  | .packageWakeComplete => Sys2Proof.Machine.execPackageWakeComplete s
  | .coreRailDroop x1 => Sys2Proof.Machine.execCoreRailDroop x1 s
  | .thermalSensorSample x1 => Sys2Proof.Machine.execThermalSensorSample x1 s
  | .thermalTripRelease => Sys2Proof.Machine.execThermalTripRelease s
  | .powerOn => Sys2Proof.Machine.execPowerOn s
  | .resetNAssert x1 => Sys2Proof.Machine.execResetNAssert x1 s
  | .perstAssert => Sys2Proof.Machine.execPerstAssert s
  | .resetNRelease x1 x2 => Sys2Proof.Machine.execResetNRelease x1 x2 s
  | .vddAonBrownout => Sys2Proof.Machine.execVddAonBrownout s
  | .refclk25Loss => Sys2Proof.Machine.execRefclk25Loss s
  | .romPhaseEnd => Sys2Proof.Machine.execRomPhaseEnd s
  | .securePhaseEnd => Sys2Proof.Machine.execSecurePhaseEnd s
  | .settingsPhaseEnd => Sys2Proof.Machine.execSettingsPhaseEnd s
  | .dieDiscoveryTimeout x1 => Sys2Proof.Machine.execDieDiscoveryTimeout x1 s
  | .diesPhaseEnd => Sys2Proof.Machine.execDiesPhaseEnd s
  | .stacksPhaseEnd => Sys2Proof.Machine.execStacksPhaseEnd s
  | .readyTransition => Sys2Proof.Machine.execReadyTransition s
  | .startWatchdogExpiry => Sys2Proof.Machine.execStartWatchdogExpiry s
  | .sfcRead => Sys2Proof.Machine.execSfcRead s
  | .sfcProgram => Sys2Proof.Machine.execSfcProgram s
  | .sfcErase => Sys2Proof.Machine.execSfcErase s
  | .sfcReboot => Sys2Proof.Machine.execSfcReboot s
  | .sfcCommandComplete x1 => Sys2Proof.Machine.execSfcCommandComplete x1 s
  | .cleatCharacter x1 x2 x3 => Sys2Proof.Machine.execCleatCharacter x1 x2 x3 s
  | .cleatBreak => Sys2Proof.Machine.execCleatBreak s
  | .cleatGapExpiry => Sys2Proof.Machine.execCleatGapExpiry s
  | .cleatRequest => Sys2Proof.Machine.execCleatRequest s
  | .cleatTwinFrame => Sys2Proof.Machine.execCleatTwinFrame s
  | .claim => Sys2Proof.Machine.execClaim s
  | .claimReply => Sys2Proof.Machine.execClaimReply s
  | .cleatTransmitStart x1 => Sys2Proof.Machine.execCleatTransmitStart x1 s
  | .cleatTxDataWrite x1 => Sys2Proof.Machine.execCleatTxDataWrite x1 s
  | .cleatRxDataRead x1 => Sys2Proof.Machine.execCleatRxDataRead x1 s
  | .cleatSend x1 => Sys2Proof.Machine.execCleatSend x1 s
  | .ceWindowEnd => Sys2Proof.Machine.execCeWindowEnd s
  | .coalesceHoldEnd x1 x2 => Sys2Proof.Machine.execCoalesceHoldEnd x1 x2 s
  | .bypass => Sys2Proof.Machine.execBypass s
  | .idcode => Sys2Proof.Machine.execIdcode s
  | .samplePreload x1 => Sys2Proof.Machine.execSamplePreload x1 s
  | .extest => Sys2Proof.Machine.execExtest s
  | .clamp => Sys2Proof.Machine.execClamp s
  | .highz => Sys2Proof.Machine.execHighz s
  | .corruptedFlit x1 x2 => Sys2Proof.Machine.execCorruptedFlit x1 x2 s
  | .discardedFrame x1 x2 => Sys2Proof.Machine.execDiscardedFrame x1 x2 s
  | .pcfRestartFwReady => Sys2Proof.Machine.execPcfRestartFwReady s
  | .vddAonRecovery x1 x2 => Sys2Proof.Machine.execVddAonRecovery x1 x2 s
  | .refclk25Return x1 x2 => Sys2Proof.Machine.execRefclk25Return x1 x2 s
  | .resetPhaseEnd => Sys2Proof.Machine.execResetPhaseEnd s
  | .cleatCtsChange x1 => Sys2Proof.Machine.execCleatCtsChange x1 s

end Sys2Proof.Machine
end

