-- ==== Sys2Proof/Safety.lean ====
section
/-!
DEFINITION. What counts as a safe run, and the invariants that claims use: a step that answers, and memories and flash in their
canonical form.
-/

namespace Sys2Proof.Machine

/-- The package has not shut down for its temperature (R464). -/
abbrev State.live (s : State) : Prop := s.power.shutdown = false

/-- PCF runs and serves request `r` next of issuer `who`: it carries opcode `op`, no freeze holds it, and every check that R63 puts
before the command's own has passed. -/
structure Serves (s : State) (who : Issuer) (op : Nat) (r : Req) : Prop where
  live : s.live
  up : pcfUp s = true
  head : curReq s (issuerNo who) = some r
  opcode : r.hdr.opcode = op
  notHeld : heldByFreeze s r = false
  checked : preCheck s r = none

/-- How far the command of index `i` of queue `q` has got, while the queue holds it. -/
def cmdStage (s : State) (q i : Nat) : Option CmdStage := (findCmd (queue s q) i).map (·.stage)

/-- A thread of a core, by group slot. -/
def threadOf (s : State) (c slot u : Nat) : Thread := match groupAt (coreAt s c) slot with
  | some g => thread g u
  | none => {}

/-- Registers allocated to each thread of a group (R177). -/
def allocated (s : State) (c slot : Nat) : Nat := match groupAt (coreAt s c) slot with
  | some g => regCount (coreAt s c) g
  | none => 0

/-- Instruction `i` issues for the threads of `set`: the package is live, the set may issue and none of `regs` is still to come;
`s1` is `s` once the scheduler has counted the issue. -/
structure Issues (s : State) (i : Issue) (regs set : List Nat) (s1 : State) : Prop where
  live : s.live
  issued : tryIssue s i regs = some (set, s1)
  distinct : set.Nodup

/-- From `s1` to `t`, each thread of `set` wrote the value and raised the flags that `f` gives it, `n` registers from `d`, and went
on; no other register, flag or thread changed, and nothing outside the core's groups but its marks of integer tiles (R237). -/
structure RowDone (s1 t : State) (i : Issue) (set : List Nat) (d n : Nat) (f : Nat → Nat × Nat) : Prop where
  others : ∀ u, u ∉ set → threadOf t i.core.val i.slot.val u = threadOf s1 i.core.val i.slot.val u
  moved : ∀ u ∈ set, ∃ rs, threadOf t i.core.val i.slot.val u = { threadOf s1 i.core.val i.slot.val u with
    regs := rs, flags := (threadOf s1 i.core.val i.slot.val u).flags ||| (f u).2, pc := goesTo i u }
  written : ∀ u ∈ set, ∀ k, k < n → d + k < allocated s1 i.core.val i.slot.val →
    rd t i.core.val i.slot.val u (d + k) = BitVec.ofNat 32 ((f u).1 / 2 ^ (32 * k))
  kept : ∀ u r, r < d ∨ d + n ≤ r ∨ allocated s1 i.core.val i.slot.val ≤ r →
    rd t i.core.val i.slot.val u r = rd s1 i.core.val i.slot.val u r
  slots : ∀ sl, sl ≠ i.slot.val → groupAt (coreAt t i.core.val) sl = groupAt (coreAt s1 i.core.val) sl
  elsewhere : t = setCore s1 i.core.val { coreAt s1 i.core.val with
    groups := (coreAt t i.core.val).groups, intTiles := (coreAt t i.core.val).intTiles }

/-- Message `m` is the oldest in flight for its line; `others` are the rest. -/
def Oldest (s : State) (m : Msg) (others : List Msg) : Prop :=
  takeMsg (fun x => x.line == m.line) s.uc.msgs = some (m, others)

/-- The messages in flight are `old`, as they were, and after them those of `new`, each at hand or on its way to another die. -/
def Sends (t : State) (old new : List Msg) : Prop :=
  ∃ sent, t.uc.msgs = old ++ sent ∧ sent.map (fun m => { m with txn := none }) = new

/-- The home of a line takes a request for it at once: its die is awake, the line has no open transaction and no waiting request,
the slice has room for the request and the directory for an entry. -/
structure HomeFree (s : State) (l : Nat) : Prop where
  live : s.live
  running : s.power.deep = false
  awake : diePwr s (sliceOf l) ≠ .retention
  idle : busy s l = false
  alone : s.uc.waitq.any (fun w => w.line == l) = false
  room : reqRoom s l = true
  dirRoom : (s.uc.dir.filter fun p => dirSet p.1 == dirSet l).length < 16
  whole : ∀ x, ucLine s l = some x → x.data.length = 128

/-- The command of index `i` and opcode `op` that queue `q` has started is in range and reaches all its fields: `l` holds the pieces of
a Copy Engine command's fields, `s1` is `s` with what its translations leave behind, and `c` is the command as it stands then. On the
other engines, whose fields were translated whole at fetch, `s1` is `s` and `l` is empty. -/
structure Reached (s : State) (q i op : Nat) (range : Cmd → Option CmdRes) (l : List (Nat × List (Loc × Nat))) (s1 : State) (c : Cmd) :
    Prop where
  live : s.live
  reached : ∃ c0 s0, startedCmd s q i op = some c0 ∧ range c0 = none ∧ s0 = noteHeld s (queue s q) c0 ∧
    copyStop s0 (queue s0 q) c0 = .clear l ∧ s1 = keepReached s0 q (queue s0 q) c0 l
  found : findCmd (queue s1 q) i = some c

/-- The outcome is a next state. -/
def Answers (o : Host.Outcome State Fault Refusal) : Prop := ∃ t, o = .next t

/-- Device memory and host memory are in canonical form. -/
def State.memoryWf (s : State) : Prop := Memory.wf s.mem = true ∧ Memory.wf s.hostMem = true

/-- The flash is in canonical form: offsets strictly rising, and no byte listed that reads as erased. -/
def Flash.wf (t : Tab Byte) : Bool := tsorted t && t.all (fun c => c.2 != 0xFF)

end Sys2Proof.Machine
end

