-- ==== Sys2Proof/Certificates/Slice0/Obligations.lean ====
section
/-! DEFINITION. The statements about the PX8 block that the provers are given. -/

section

open Sys2Proof Sys2Proof.Machine

/-- O1. For every command c and state s, a step of s with c at the front of its queue is exec c on s with the queue's rest; with an empty
queue the block idles for one always-on cycle, which the model chose (log entry 4). (95 What each step holds) -/
def Obligations.StepRunsFrontCommand : Prop :=
  (∀ (c : Sys2Proof.Instr) (rest : List Sys2Proof.Instr) (s : State),
    s.pending = c :: rest → step s = exec c { s with pending := rest }) ∧
  (∀ s : State, s.pending = [] → step s = .next (idle s))

/-- O2. Until the hub is ready every configuration request completes with Request Retry Status (code 2) and changes nothing else. Once it is
ready, every request to a function that exists completes normally (code 0), changes nothing outside the PCIe attachment and no other
function, and a read returns what it names: the identity fields, a capability's fields, the base address registers. A write sets its
control: on every function memory space, the MSI-X, ATS, PRI and PASID enables and the power state, and on the PF the payload and read
request sizes, the tag and ASPM enables, the page size, BAR2's size, the base address registers and the AER bits. A base address register
reads back its address bits, its type and its prefetchable bit, and those that are not implemented read 0. A request to a VF that is not
enabled completes with Unsupported Request (code 1). (02 Host attachment, register windows and mailboxes) -/
def Obligations.ConfigurationRequestsComplete : Prop :=
  (∀ (s : State) (fn : FnNo) (op : CfgOp), s.live → s.start.hubReady = false →
    exec (.configRequest fn op) s = .next (emit s (.completion 2 [] false)) ∧
    exec (.vfEnableSet fn) s = .next (emit s (.completion 2 [] false)) ∧
    exec .vfEnableClear s = .next (emit s (.completion 2 [] false))) ∧
  (∀ (s : State) (fn : FnNo) (op : CfgOp), s.live → s.start.hubReady = true → fnEnabled s fn.val = false →
    exec (.configRequest fn op) s = .next (emit s (.completion 1 [] false))) ∧
  (∀ (s : State) (fn : FnNo) (op : CfgOp), s.live → s.start.hubReady = true → fnEnabled s fn.val = true →
    ∃ t, exec (.configRequest fn op) s = .next t ∧ t = { s with pcie := t.pcie, out := t.out } ∧
      (∃ bs, t.out.getLast? = some (.completion 0 bs false)) ∧ (∀ m, m ≠ fn.val → pcieFn t m = pcieFn s m)) ∧
  (∀ (s : State) (fn : FnNo) (c : CfgCap) (k : Fin 6), s.live → s.start.hubReady = true → fnEnabled s fn.val = true →
    exec (.configRequest fn .readIdentity) s = .next (emit s (.completion 0 (identityBytes s fn.val) false)) ∧
    exec (.configRequest fn (.readCap c)) s = .next (emit s (.completion 0 (capBytes s fn.val c) false)) ∧
    exec (.configRequest fn (.readBar k)) s =
      .next (emit s (.completion 0 (leBytes 4 (if fn.val = 0 then barValue s false k.val else 0)) false)) ∧
    exec (.configRequest fn (.readVfBar k)) s =
      .next (emit s (.completion 0 (leBytes 4 (if fn.val = 0 then barValue s true k.val else 0)) false)) ∧
    (4 ≤ k.val → barValue s false k.val = 0) ∧ (2 ≤ k.val → barValue s true k.val = 0)) ∧
  (∀ (s : State) (fn : FnNo) (a b : Bool), s.live → s.start.hubReady = true → fnEnabled s fn.val = true →
    let done (op : CfgOp) (f : PcieFn) : Prop := ∃ t, exec (.configRequest fn op) s = .next t ∧ pcieFn t fn.val = f
    done (.setMemSpace a) { pcieFn s fn.val with memSpace := a } ∧
    done (.setMsix a b) { pcieFn s fn.val with msixEnable := a, msixMask := b } ∧
    done (.setAts a) { pcieFn s fn.val with ats := a } ∧ done (.setPri a) { pcieFn s fn.val with pri := a } ∧
    done (.setPasid a) { pcieFn s fn.val with pasid := a } ∧ done (.setPower a) { pcieFn s fn.val with d3hot := a }) ∧
  (∀ (s : State) (a b c : Bool) (m : Fin 3) (r : Fin 6) (p : Fin 5) (z : Fin 4) (w : Word), s.live → s.start.hubReady = true →
    let done (op : CfgOp) (P : State → Prop) : Prop := ∃ t, exec (.configRequest 0 op) s = .next t ∧ P t
    done (.setPayload m) (fun t => (pcieFn t 0).mps = m.val) ∧ done (.setReadRequest r) (fun t => (pcieFn t 0).mrrs = r.val) ∧
    done (.setTags a b) (fun t => (pcieFn t 0).extTag = a ∧ (pcieFn t 0).tenBitTag = b) ∧
    done (.setAspm a) (fun t => (pcieFn t 0).aspmL1 = a) ∧ done (.setPageSize p) (fun t => t.pcie.pageSize = p.val) ∧
    done (.setBar2Size z) (fun t => bar2Size t = 2 ^ (36 + z.val)) ∧
    done (.writeBar 0 w) (fun t => barValue t false 0 = w.toNat - w.toNat % 2 ^ 24 + 4) ∧
    done (.writeBar 2 w) (fun t => barValue t false 2 = 12) ∧
    done (.writeVfBar 0 w) (fun t => barValue t true 0 = w.toNat - w.toNat % 2 ^ 16 + 4) ∧
    done (.setAer a b c) (fun t => t.pcie.aerCorMask = a ∧ t.pcie.aerUncMask = b ∧ t.pcie.aerUncFatal = c) ∧
    done (.clearAer a b) (fun t => t.pcie.aerCorStatus = (s.pcie.aerCorStatus && !a) ∧ t.pcie.aerUncStatus = (s.pcie.aerUncStatus && !b)))

/-- O3. Once the hub is ready, VF Enable set from clear makes VFs 1 to NumVFs exist; each that no reset holds is unconfigured, and its
FW_READY reads 1 exactly in phase READY with PCF running. VF Enable cleared from set makes every VF's reset begin with its tenant to become
unconfigured and FW_READY 0. Either keeps device memory, the C-dies and the settings. Each of the three resets clears VF Enable and the PF's
configuration state, empties MBX0 but for SEQ and FW_READY, returns HUB_BAR2_APERTURE, HUB_ERR and HUB_ERR_ADDR to reset, and leaves
HUB_TIME, the start-up phase, the C-dies and device memory as they are. (02 Host attachment, register windows and mailboxes, 17 Tenants,
virtual functions and migration) -/
def Obligations.VfEnableAndFunctionResets : Prop :=
  ((∀ (s : State) (n : FnNo), s.live → s.start.hubReady = true → s.pcie.vfEnable = false →
    ∃ t, exec (.vfEnableSet n) s = .next t ∧ t.pcie.vfEnable = true ∧ t.pcie.numVFs = n.val ∧
      (∀ v : FnNo, v.val ≠ 0 → (fnEnabled t v.val = decide (v.val ≤ n.val)) ∧
        (v.val ≤ n.val → (tenant s v.val).resetting = none →
          tenant t v.val = {} ∧ ((mbx t v.val).fwReady = true ↔ s.start.phase = .ready ∧ s.start.pcfRunning = true))) ∧
      t.mem = s.mem ∧ t.dies = s.dies ∧ t.settings = s.settings) ∧
  (∀ s : State, s.live → s.start.hubReady = true → s.pcie.vfEnable = true →
    ∃ t, exec .vfEnableClear s = .next t ∧ t.pcie.vfEnable = false ∧
      (∀ v : FnNo, v.val ≠ 0 → v.val ≤ s.pcie.numVFs →
        (tenant t v.val).resetting = some .unconfigured ∧ (mbx t v.val).fwReady = false) ∧
      t.mem = s.mem ∧ t.dies = s.dies ∧ t.settings = s.settings)) ∧
  (∀ (s : State) (c : Sys2Proof.Instr), c = .hotReset ∨ c = .linkDownReset ∨ c = .pfFunctionLevelReset → s.live →
    ∃ t, exec c s = .next t ∧ t.pcie.vfEnable = false ∧ pcieFn t 0 = {} ∧ (mbx t 0).state = .idle ∧ (mbx t 0).outstanding = none ∧
      (mbx t 0).seq = (mbx s 0).seq ∧ (mbx t 0).fwReady = (mbx s 0).fwReady ∧ (mbx t 0).held = (mbx s 0).held ∧
      (∀ a ∈ [hubAperture, hubErr, hubErrAddrLo, hubErrAddrHi], reg t a = regReset a) ∧
      t.hubTime = s.hubTime ∧ t.hubTimeHi = s.hubTimeHi ∧ t.start = s.start ∧ t.dies = s.dies ∧ t.mem = s.mem ∧
      t.power.scp = s.power.scp)

/-- O4. A read of HUB_TIME_LO returns the enabled bytes of the low half of the count and puts the upper half into the snapshot that
HUB_TIME_HI returns; nothing else changes. The count is 0 where the start begins, and a step with no command waiting adds one to it outside
reset and thermal shutdown (the tick is the model's choice, log entry 4). A read of SRV_SNAP copies every live serving counter into the
snapshot, adds one to the snapshot sequence number and returns it. A read of TNT_LOG_SYNC returns the count of marks. A read of any other
register, of the PF's or a VF's BAR0, returns the enabled bytes of its value, with its RC fields back at reset whatever bytes are enabled
(log entry 48); a peak of the admission queue starts again from its depth, and a read of the low half of a pattern's BITS takes the snapshot
of the upper half. (00 Scope and conventions, 02 Host attachment, register windows and mailboxes, 04 Serving mode: one bundle, many
sessions) -/
def Obligations.HubReadsTakeSnapshots : Prop :=
  ((∀ (s : State) (be : BitVec 4), s.live → memSpaceOn s 0 = true →
    exec (.readClearRead 0 ⟨0x1020, be⟩) s = .next { s with
      hubTimeHi := BitVec.ofNat 32 (s.hubTime / 2 ^ 32)
      out := s.out ++ [.completion 0 (readBytes s.hubTime be) false] } ∧
    exec .hubTimeLoRead s = exec (.readClearRead 0 ⟨0x1020, 0xF⟩) s) ∧
  (∀ s : State, viewReg s 0 0x1024 = s.hubTimeHi.toNat) ∧ (∀ v : Nat, readBytes v 0xF = leBytes 4 v) ∧
  (∀ s : State, (beginStart s).hubTime = 0) ∧
  (∀ s : State, s.live → s.pending = [] → s.board.powered = true → s.board.resetN = false → s.board.brownout = false →
    s.board.refclkLost = false → step s = .next { s with hubTime := s.hubTime + 1 })) ∧
  ((∀ (s : State) (be : BitVec 4), s.live → memSpaceOn s 0 = true →
    exec (.readClearRead 0 ⟨0x420000, be⟩) s = .next { s with
      serving := { s.serving with snapSeq := s.serving.snapSeq + 1, snap := s.serving.cnt }
      out := s.out ++ [.completion 0 (readBytes (s.serving.snapSeq + 1).toNat be) false] } ∧
    exec .srvSnapRead s = exec (.readClearRead 0 ⟨0x420000, 0xF⟩) s ∧
    exec (.readClearRead 0 ⟨0x450000, be⟩) s =
      .next { s with out := s.out ++ [.completion 0 (readBytes (reg s 0x450000).toNat be) false] } ∧
    exec .tntLogSyncRead s = exec (.readClearRead 0 ⟨0x450000, 0xF⟩) s) ∧
  (∀ (s : State) (fn : FnNo) (a : Nat) (be : BitVec 4), s.live → memSpaceOn s fn.val = true →
    (fn.val = 0 → a - a % 4 ∉ [0x1020, 0x420000, 0x450000, 0x48001C]) →
    (hasRc (storedAt fn.val (a - a % 4)) = false ∨ (fn.val ≠ 0 ∧ 0x100 ≤ a - a % 4)) → (fn.val = 0 → isPatLo (a - a % 4) = false) →
    exec (.readClearRead fn ⟨a, be⟩) s = .next { s with
      free := s.free + 4
      out := s.out ++ [.completion 0 (readBytes (viewReg s fn.val (a - a % 4)) be) false] }) ∧
  (∀ (s : State) (fn : FnNo) (a : Nat) (be : BitVec 4), s.live → memSpaceOn s fn.val = true →
    (fn.val = 0 → a - a % 4 ∉ [0x1020, 0x420000, 0x450000, 0x48001C]) →
    hasRc (storedAt fn.val (a - a % 4)) = true → (fn.val = 0 ∨ a - a % 4 < 0x100) →
    ∃ t, exec (.readClearRead fn ⟨a, be⟩) s = .next t ∧ t = { s with regs := t.regs, free := s.free + 4, out := t.out } ∧
      t.out = s.out ++ [.completion 0 (readBytes (viewReg s fn.val (a - a % 4)) be) false] ∧
      (∀ b, b ≠ storedAt fn.val (a - a % 4) → reg t b = reg s b) ∧
      (storedAt fn.val (a - a % 4) ≠ srvAdmqPeak → reg t (storedAt fn.val (a - a % 4)) =
        BitVec.ofNat 32 (clearRc (reg s (storedAt fn.val (a - a % 4))).toNat (fieldsAt (storedAt fn.val (a - a % 4))))) ∧
      (storedAt fn.val (a - a % 4) = srvAdmqPeak → s.serving.admq.length < 2 ^ 32 →
        s.serving.admq.length ≤ (reg t srvAdmqPeak).toNat)) ∧
  (∀ (s : State) (a : Nat) (be : BitVec 4), s.live → memSpaceOn s 0 = true → isPatLo (a - a % 4) = true → hasRc (a - a % 4) = false →
    a - a % 4 ∉ [0x1020, 0x420000, 0x450000, 0x48001C] →
    ∃ t, exec (.readClearRead 0 ⟨a, be⟩) s = .next t ∧ reg t (a - a % 4 + 4) = reg s (patHi (a - a % 4)) ∧
      t.out = s.out ++ [.completion 0 (readBytes (viewReg s 0 (a - a % 4)) be) false]))

/-- O5. With no BAR2 access waiting, ACK in DONE or TIMEOUT and CANCEL in BUSY return the mailbox to IDLE, CANCEL abandoning the request;
where they have no effect, GO, ACK and CANCEL change only MBX_ERR.CMD_STATE, but a CANCEL in the always-on cycle in which the response
arrived changes nothing. Behind a BAR2 access that waits for its die they wait too. The timer's expiry in BUSY abandons the request and
enters TIMEOUT. No command of one mailbox changes another, device memory or the settings. (02 Host attachment, register windows and
mailboxes) -/
def Obligations.MailboxCommandTable : Prop :=
  (∀ (s : State) (fn : FnNo), s.live → memSpaceOn s fn.val = true → s.power.held = [] →
    ((mbx s fn.val).state = .done ∨ (mbx s fn.val).state = .timeout →
      exec (.ack fn) s = .next (setMbx s fn.val { mbx s fn.val with state := .idle })) ∧
    ((mbx s fn.val).state = .busy →
      exec (.cancel fn) s = .next (setMbx s fn.val { mbx s fn.val with state := .idle, outstanding := none, timer := false })) ∧
    ((mbx s fn.val).state = .idle ∨ (mbx s fn.val).state = .busy →
      exec (.ack fn) s = .next (orReg s (instBase fn.val + mbxErrOff) 1)) ∧
    ((mbx s fn.val).state ≠ .busy → ¬ ((mbx s fn.val).state = .done ∧ (mbx s fn.val).doneAt = some s.hubTime) →
      exec (.cancel fn) s = .next (orReg s (instBase fn.val + mbxErrOff) 1)) ∧
    ((mbx s fn.val).state = .done → (mbx s fn.val).doneAt = some s.hubTime → exec (.cancel fn) s = .next s) ∧
    ((mbx s fn.val).state ≠ .idle → exec (.go fn) s = .next (orReg s (instBase fn.val + mbxErrOff) 1))) ∧
  (∀ (s : State) (fn : FnNo), s.live → s.power.held ≠ [] →
    exec (.go fn) s = .next { s with power := { s.power with held := s.power.held ++ [.mbxCmd fn.val 1] } } ∧
    exec (.ack fn) s = .next { s with power := { s.power with held := s.power.held ++ [.mbxCmd fn.val 2] } } ∧
    exec (.cancel fn) s = .next { s with power := { s.power with held := s.power.held ++ [.mbxCmd fn.val 3] } }) ∧
  (∀ (s : State) (fn : FnNo), s.live → (mbx s fn.val).state = .busy → (mbx s fn.val).timer = true →
    ∃ t, exec (.mbxTimeoutExpiry fn) s = .next t ∧
      mbx t fn.val = { mbx s fn.val with state := .timeout, outstanding := none, timer := false } ∧
      (reg t (instBase fn.val + instIrqOff)).getLsbD 0 = true ∧ (∀ m, m ≠ fn.val → mbx t m = mbx s m) ∧
      t.mem = s.mem ∧ t.settings = s.settings)

/-- O6. GO in IDLE, with no BAR2 access waiting, adds one to SEQ, modulo 2^16, and wakes the SCP. When the header passes the hub's checks
the mailbox enters BUSY, with the request of that SEQ and TAG outstanding and a copy of the request handed to PCF after those it already
holds; otherwise the mailbox enters DONE with the hub's response. Either way the other mailboxes and device memory are unchanged. The answer
at the head of a mailbox's requests is taken when PCF posts it. With SEQ and TAG outstanding in BUSY, it is delivered and the mailbox enters
DONE with nothing outstanding; in any other case STATE and the response window stay, SEQ and TAG go to MBX_STALE_TAG, STATUS and DETAIL to
MBX_STALE_STATUS, and MBX_STALE_CNT counts up. (02 Host attachment, register windows and mailboxes) -/
def Obligations.RequestsAndResponses : Prop :=
  (∀ (s : State) (fn : FnNo), s.live → memSpaceOn s fn.val = true → (mbx s fn.val).state = .idle → s.power.held = [] →
    ∃ t, exec (.go fn) s = .next t ∧ (mbx t fn.val).seq = (mbx s fn.val).seq + 1 ∧ t.power = { s.power with scp := true } ∧
      (goStatus (mbx s fn.val) (winHdr (mbx s fn.val).reqWin) = none →
        (mbx t fn.val).state = .busy ∧
        (mbx t fn.val).outstanding = some ((mbx s fn.val).seq + 1, (winHdr (mbx s fn.val).reqWin).tag) ∧
        ∃ h : Held, (mbx t fn.val).held = (mbx s fn.val).held ++ [h] ∧ h.seq = (mbx s fn.val).seq + 1 ∧
          h.hdr = winHdr (mbx s fn.val).reqWin ∧ h.payload.length = h.hdr.length ∧ h.answer = none) ∧
      (∀ st, goStatus (mbx s fn.val) (winHdr (mbx s fn.val).reqWin) = some st →
        (mbx t fn.val).state = .done ∧ (mbx t fn.val).held = (mbx s fn.val).held ∧
        (reg t (instBase fn.val + instIrqOff)).getLsbD 0 = true ∧
        leNat (mread (mbx t fn.val).respWin 12 2) = st) ∧
      (∀ m, m ≠ fn.val → mbx t m = mbx s m) ∧ t.mem = s.mem ∧ t.settings = s.settings) ∧
  (∀ (s : State) (fn : FnNo) (h : Held) (rest : List Held) (a : Resp), s.live → pcfUp s = true →
    (mbx s fn.val).held = h :: rest → h.answer = some a → a.status < 2 ^ 16 → a.detail < 2 ^ 16 →
    ((mbx s fn.val).state = .busy → (mbx s fn.val).outstanding = some (h.seq, h.hdr.tag) →
      ∃ t, exec (.mbxResponsePost (.mbx fn)) s = .next t ∧ (mbx t fn.val).state = .done ∧ (mbx t fn.val).outstanding = none ∧
        (mbx t fn.val).held = rest ∧ (mbx t fn.val).seq = (mbx s fn.val).seq ∧
        (reg t (instBase fn.val + instIrqOff)).getLsbD 0 = true ∧
        mread (mbx t fn.val).respWin 12 4 = leBytes 2 a.status ++ leBytes 2 a.detail ∧ t.mem = s.mem) ∧
    ((mbx s fn.val).outstanding ≠ some (h.seq, h.hdr.tag) →
      ∃ t, exec (.mbxResponsePost (.mbx fn)) s = .next t ∧ mbx t fn.val = { mbx s fn.val with held := rest } ∧
        (reg t (instBase fn.val + mbxStaleTagOff)).toNat = h.seq.toNat * 65536 + h.hdr.tag.toNat ∧
        (reg t (instBase fn.val + mbxStaleStatusOff)).toNat = a.status * 65536 + a.detail ∧
        (reg t (instBase fn.val + mbxStaleCntOff)).toNat = min ((reg s (instBase fn.val + mbxStaleCntOff)).toNat + 1) 65535 ∧
        t.mem = s.mem))

/-- O7. A restart of PCF clears FW_READY and the requests held on every mailbox, ends every link test, and stops PCF. When the restarted
firmware sets FW_READY the package is served again: in phase READY FW_READY returns to 1 on MBX0, and no ended operation is left without its
OP_DONE. (02 Host attachment, register windows and mailboxes) -/
def Obligations.PcfRestartEndsHeldWork : Prop :=
  (∀ s : State, s.live → s.start.pcfRunning = true →
    ∃ t, exec .pcfRestart s = .next t ∧ t.start.pcfRunning = false ∧ t.start.phase = s.start.phase ∧
      (∀ n, (mbx t n).held = [] ∧ (mbx t n).fwReady = false) ∧ t.linkTests = []) ∧
  (∀ s : State, s.live → s.start.restarting = true →
    ∃ t, exec .pcfRestartFwReady s = .next t ∧ t.start.pcfRunning = true ∧ t.start.restarting = false ∧ t.endedOps = [] ∧
      (s.start.phase = .ready → (mbx t 0).fwReady = true) ∧ t.start.phase = s.start.phase)

/-- O8. With no BAR2 access waiting, a full write of an instance register other than the mailbox doorbell, of the PF or a VF, or of a HUB
register other than the aperture, sets each field under its access code and changes no other register; a write of fewer bytes changes only
HUB_ERR and HUB_ERR_ADDR for the PF, and is a record of a VF's own log for a VF. A write of a request window or of the MSI-X table, of any
size, sets the enabled bytes. Behind a BAR2 access that waits, a write of BAR0 waits too. The aperture is written in the same way by its own
command. A host write to a block register window that is closed changes nothing but HUB_ERR and the error address: BLK_WR, and BAR0_SIZE too
where fewer than four bytes are written. While the window is open a full write of a register without a row of its own sets its fields; the
flash buffer takes any size; CLEAT_FLOW keeps both levels where they are not allowed; CLEAT_CTRL.SEND releases the transmit FIFO;
STA_TEST_CTRL keeps its locked fields and raises LOCK_VIOL; a partial write is BAR0_SIZE; and the registers with rows of their own are left
to them. A write to a response window changes only MBX_ERR.RESP_WR. An AtomicOp on BAR2 completes with Unsupported Request and sets
HUB_ERR.BAR2_ATOMIC with the device physical address. (00 Scope and conventions, 02 Host attachment, register windows and mailboxes) -/
def Obligations.RegisterWrites : Prop :=
  ((∀ (s : State) (fn : FnNo) (o : Nat) (w : Word), s.live → memSpaceOn s fn.val = true → s.power.held = [] → 0 < o → o < 0x100 →
    ∃ t, exec (.registerWrite fn (if fn.val = 0 then 0x2000 + o else o) w 0xF) s = .next t ∧
      reg t (instBase fn.val + o) =
        BitVec.ofNat 32 (writeFields (reg s (instBase fn.val + o)).toNat w.toNat false (fieldsAt (instBase fn.val + o))) ∧
      (∀ b, b ≠ instBase fn.val + o → reg t b = reg s b) ∧ t = { s with regs := t.regs }) ∧
  (∀ (s : State) (o : Nat) (w : Word), s.live → memSpaceOn s 0 = true → s.power.held = [] → o < 0x100 → 0x1000 + o ≠ hubAperture →
    ∃ t, exec (.registerWrite 0 (0x1000 + o) w 0xF) s = .next t ∧
      reg t (0x1000 + o) = BitVec.ofNat 32 (writeFields (reg s (0x1000 + o)).toNat w.toNat false (fieldsAt (0x1000 + o))) ∧
      (∀ b, b ≠ 0x1000 + o → reg t b = reg s b) ∧ t = { s with regs := t.regs }) ∧
  (∀ (s : State) (fn : FnNo) (o : Nat) (w : Word) (be : BitVec 4), s.live → memSpaceOn s fn.val = true → s.power.held = [] →
    o < 0x100 → be ≠ 0xF →
    exec (.registerWrite fn (if fn.val = 0 then 0x2000 + o else o) w be) s =
      .next (if fn.val = 0 then hubError s 0 (0x2000 + o)
        else logErr s fn.val { code := 0x1037, cls := 6, inst := fn.val, arg := o })) ∧
  (∀ (s : State) (fn : FnNo) (o : Nat) (w : Word) (be : BitVec 4), s.live → memSpaceOn s fn.val = true → s.power.held = [] → o < 0x1000 →
    ∃ t, exec (.registerWrite fn (if fn.val = 0 then 0x3000 + o else 0x1000 + o) w be) s = .next t ∧
      t = { s with mbxs := t.mbxs } ∧ (∀ m, m ≠ fn.val → mbx t m = mbx s m) ∧
      mbx t fn.val = { mbx s fn.val with reqWin := (mbx t fn.val).reqWin } ∧
      (∀ i, i < 4 → be.getLsbD i = true → mget (mbx t fn.val).reqWin (o + i) = BitVec.ofNat 8 (w.toNat / 256 ^ i)) ∧
      (∀ a, (∀ i, i < 4 → be.getLsbD i = true → a ≠ o + i) → mget (mbx t fn.val).reqWin a = mget (mbx s fn.val).reqWin a)) ∧
  (∀ (s : State) (fn : FnNo) (o : Nat) (w : Word) (be : BitVec 4), s.live → memSpaceOn s fn.val = true → s.power.held = [] →
    o < (if fn.val = 0 then 0x8000 else 0x400) →
    ∃ t, exec (.registerWrite fn (if fn.val = 0 then 0x10000 + o else 0x4000 + o) w be) s = .next t ∧
      t = { s with pcie := { s.pcie with msix := t.pcie.msix, pending := t.pcie.pending }, out := t.out } ∧
      (∀ i, i < 4 → be.getLsbD i = true → msixByte t fn.val (o + i) = BitVec.ofNat 8 (w.toNat / 256 ^ i))) ∧
  (∀ (s : State) (fn : FnNo) (a : Nat) (w : Word) (be : BitVec 4), s.live → s.power.held ≠ [] →
    exec (.registerWrite fn a w be) s = .next { s with power := { s.power with held := s.power.held ++ [.regWrite fn.val a w be] } }) ∧
  (∀ (s : State) (w : Word), s.live → memSpaceOn s 0 = true →
    ∃ t, exec (.hubBar2ApertureWrite w 0xF) s = .next t ∧
      reg t hubAperture = BitVec.ofNat 32 (writeFields (reg s hubAperture).toNat w.toNat false (fieldsAt hubAperture)) ∧
      (∀ b, b ≠ hubAperture → reg t b = reg s b) ∧ t = { s with regs := t.regs } ∧
      bar2Base t = ((reg t hubAperture).toNat - (reg t hubAperture).toNat % 2 ^ s.pcie.bar2Code) * 2 ^ 36 ∧
      ∀ be : BitVec 4, be ≠ 0xF → exec (.hubBar2ApertureWrite w be) s = .next (hubError s 0 hubAperture))) ∧
  ((∀ (s : State) (a : Nat) (w : Word) (be : BitVec 4), s.live → memSpaceOn s 0 = true → 0x400000 ≤ a → a < 0x1000000 →
    windowOpen s a = false →
    exec (.blockWindowWrite a w be) s =
      .next (hubError (if be = 0xF ∨ (0x472000 ≤ a ∧ a < 0x473000) then s else hubError s 0 a) 1 a)) ∧
  (∀ (s : State) (a : Nat) (w : Word) (be : BitVec 4), s.live → memSpaceOn s 0 = true → 0x400000 ≤ a → a < 0x1000000 →
    windowOpen s a = true → ¬ (0x472000 ≤ a ∧ a < 0x473000) →
    (be ≠ 0xF → exec (.blockWindowWrite a w be) s = .next (hubError s 0 a)) ∧
    (be = 0xF → ownRow a = true → exec (.blockWindowWrite a w be) s = .next s) ∧
    (be = 0xF → a ≠ cleatFlow → a ≠ cleatCtrl → ownRow a = false → (a = staTestCtrl → (reg s staTestCtrl).getLsbD 31 = false) →
      exec (.blockWindowWrite a w be) s =
        .next (setReg s a (BitVec.ofNat 32 (writeFields (reg s a).toNat w.toNat false (fieldsAt a)))))) ∧
  (∀ (s : State) (o : Nat) (w : Word) (be : BitVec 4), s.live → memSpaceOn s 0 = true → windowOpen s 0x472000 = true → o < 0x1000 →
    ∃ t, exec (.blockWindowWrite (0x472000 + o) w be) s = .next t ∧ t = { s with sfc := { s.sfc with buf := t.sfc.buf } } ∧
      (∀ i, i < 4 → be.getLsbD i = true → tget 0 t.sfc.buf (o + i) = BitVec.ofNat 8 (w.toNat / 256 ^ i)) ∧
      (∀ a, (∀ i, i < 4 → be.getLsbD i = true → a ≠ o + i) → tget 0 t.sfc.buf a = tget 0 s.sfc.buf a)) ∧
  (∀ (s : State) (w : Word), s.live → memSpaceOn s 0 = true → windowOpen s cleatCtrl = true →
    (∃ t, exec (.blockWindowWrite cleatFlow w 0xF) s = .next t ∧ t = { s with regs := t.regs, cleat := { s.cleat with rtsHigh := t.cleat.rtsHigh } } ∧
      (∀ b, b ≠ cleatFlow → reg t b = reg s b) ∧ (bit (reg t cleatFlow).toNat 31 = w.getLsbD 31 ∧ bit (reg t cleatFlow).toNat 30 = w.getLsbD 30) ∧
      (let ok := bits w.toNat 8 7 < bits w.toNat 0 7 ∧ bits w.toNat 0 7 ≤ 64
       (ok → bits (reg t cleatFlow).toNat 0 7 = bits w.toNat 0 7 ∧ bits (reg t cleatFlow).toNat 8 7 = bits w.toNat 8 7) ∧
       (¬ ok → bits (reg t cleatFlow).toNat 0 7 = bits (reg s cleatFlow).toNat 0 7 ∧
         bits (reg t cleatFlow).toNat 8 7 = bits (reg s cleatFlow).toNat 8 7))) ∧
    (s.cleat.muteAt ≠ some s.hubTime →
      ∃ t, exec (.blockWindowWrite cleatCtrl w 0xF) s = .next t ∧
        reg t cleatCtrl = BitVec.ofNat 32 (writeFields (reg s cleatCtrl).toNat w.toNat false (fieldsAt cleatCtrl)) ∧
        t.cleat = { s.cleat with released := if w.getLsbD 4 then s.cleat.tx.length else s.cleat.released }) ∧
    ((reg s staTestCtrl).getLsbD 31 = true →
      ∃ t, exec (.blockWindowWrite staTestCtrl w 0xF) s = .next t ∧ (reg t staLockErr).getLsbD 0 = true ∧
        reg t staTestCtrl = BitVec.ofNat 32 (writeFields (reg s staTestCtrl).toNat w.toNat true (fieldsAt staTestCtrl)))) ∧
  (∀ (s : State) (fn : FnNo) (o : Nat) (w : Word) (be : BitVec 4), s.live → memSpaceOn s fn.val = true →
    exec (.responseWindowWrite fn o w be) s = .next (orReg s (instBase fn.val + mbxErrOff) 2)) ∧
  (∀ (s : State) (o : Nat), s.live →
    exec (.bar2Atomicop o) s =
      .next (emit (if memSpaceOn s 0 then hubError s 4 (bar2Base s + o) else s) (.completion 1 [] false))))

/-- O9. In phase READY with the package and the die awake and no access waiting, a BAR2 read returns the bytes that a device-scope read of
their addresses returns, zero in a firmware reserve, and a BAR2 write outside the reserve is performed as a device-scope write at the home
slice; in a reserve it is discarded with HUB_ERR.BAR2_RSVD. Bytes of a bundle replica read as free values (log entry 1). Before READY a read
returns zeros and a write has no effect. While the die sleeps the access is held, and the die wakes; an access that arrives behind a held
one waits behind it, whatever its die. (02 Host attachment, register windows and mailboxes, 18 Power domains, clocks and sleep) -/
def Obligations.Bar2ReachesTheHomeSlice : Prop :=
  (∀ (s : State) (off n : Nat), s.live → memSpaceOn s 0 = true → 0 < n → off + n ≤ bar2Size s → s.start.phase ≠ .ready →
    exec (.bar2Read off n) s = .next (emit s (.completion 0 (zeros n) false)) ∧
    (∀ bs : List Byte, exec (.bar2Write off bs) s = .next s)) ∧
  (∀ (s : State) (off : Nat) (bs : List Byte), s.live → memSpaceOn s 0 = true → bs ≠ [] → off + bs.length ≤ bar2Size s →
    s.start.phase = .ready → s.power.deep = false → s.power.waking = false → s.power.entering = false → s.power.held = [] →
    diePwr s ((bar2Base s + off) / 2 ^ 36 % 8) = .awake →
    (exec (.bar2Write off bs) s =
      .next (if populated s (bar2Base s + off) && inReserve (bar2Base s + off) then hubError s 3 (bar2Base s + off)
        else homeWrite s (bar2Base s + off) bs)) ∧
    (populated s (bar2Base s + off) = true → inReserve (bar2Base s + off) = true →
      exec (.bar2Read off bs.length) s =
        .next (emit (hubError s 3 (bar2Base s + off)) (.completion 0 (zeros bs.length) false))) ∧
    (inReserve (bar2Base s + off) = false → (∀ i, i < bs.length → inReplica s (bar2Base s + off + i) = false) →
      exec (.bar2Read off bs.length) s =
        .next (emit (touchRead s (bar2Base s + off) bs.length)
          (.completion 0 (homeRead s (bar2Base s + off) bs.length) (poisonIn s (bar2Base s + off) bs.length).isSome)))) ∧
  (∀ (s : State) (off n : Nat), s.live → memSpaceOn s 0 = true → 0 < n → off + n ≤ bar2Size s →
    s.start.phase = .ready → s.power.deep = false →
    (s.power.entering = false → diePwr s ((bar2Base s + off) / 2 ^ 36 % 8) = .retention →
      ∃ t, exec (.bar2Read off n) s = .next t ∧ diePwr t ((bar2Base s + off) / 2 ^ 36 % 8) = .waking ∧ t.out = s.out ∧
        t.power.held = s.power.held ++ [.bar2 (bar2Base s + off) n none]) ∧
    (s.power.held ≠ [] →
      ∃ t, exec (.bar2Read off n) s = .next t ∧ t.out = s.out ∧ t.mem = s.mem ∧
        t.power.held = s.power.held ++ [.bar2 (bar2Base s + off) n none] ∧
        ∀ bs : List Byte, bs.length = n → ∃ u, exec (.bar2Write off bs) s = .next u ∧ u.mem = s.mem ∧ u.uc = s.uc ∧
          u.power.held = s.power.held ++ [.bar2 (bar2Base s + off) n (some bs)]))

/-- O10. Power-on, RESET_N held low for 10 µs, a brown-out of VDD_AON and the loss of REFCLK25 each return every register, die, link,
engine, cache, session, tenant, queue and the pair state to reset, and keep the fuses and the host's memory. RESET_N low for less than 1 µs
is ignored, and a pulse from 1 µs to 10 µs resets or is ignored, as a free value says (log entry 9). PERST# does the same with RST_SEL 1 and
the start then begins at once (log entry 40); with RST_SEL 0 it is a link-down reset. When the last cause of a reset ends, by RESET_N's
release, VDD_AON's recovery or REFCLK25's return, the straps are latched, HUB_TIME is 0, and the start is in phase RESET with its watchdog
running; while another cause remains the package stays in reset. Nothing else changes. From phase RESET the start goes to ROM unless a TMODE
strap was latched at 1. (19 Start-up and the settings image, 22 Electrical, thermal and mechanical data) -/
def Obligations.PackageResetAndItsEnd : Prop :=
  ((∀ (s : State) (c : Sys2Proof.Instr),
    (c = .powerOn ∨ ((∃ n, c = .resetNAssert n ∧ 10000 ≤ n) ∧ s.board.powered = true ∧ s.board.resetN = false ∧ ballsTaken s = false) ∨
      ((c = .vddAonBrownout ∨ c = .refclk25Loss) ∧ s.board.powered = true)) →
    ∃ t, exec c s = .next t ∧ t.start = {} ∧ t.fuse = s.fuse ∧ t.hostMem = s.hostMem ∧ t.regs = [] ∧ t.dies = [] ∧ t.mbxs = [] ∧
      t.eng = {} ∧ t.cores = [] ∧ t.uc = {} ∧ t.lnt = {} ∧ t.hws = {} ∧ t.twin = {} ∧ t.tenants = [] ∧ t.serving = {} ∧ t.sess = {} ∧
      t.xlat = {} ∧ t.cleat = {} ∧ t.err = {} ∧ t.settings = {} ∧ t.power = {} ∧ t.mem = [] ∧ inReset t = true) ∧
  (∀ (s : State) (n : Nat), n < 1000 → exec (.resetNAssert n) s = .next s) ∧
  (∀ (s : State) (n : Nat), 1000 ≤ n → n < 10000 → s.board.powered = true → s.board.resetN = false → ballsTaken s = false →
    ∃ t, exec (.resetNAssert n) s = .next t ∧ (t = { s with free := s.free + 1 } ∨
      (inReset t = true ∧ t.start = {} ∧ t.regs = [] ∧ t.eng = {} ∧ t.cores = [] ∧ t.mem = [] ∧ t.fuse = s.fuse ∧ t.hostMem = s.hostMem))) ∧
  (∀ s : State, inReset s = false → ballsTaken s = false →
    (s.board.rstSel = true → ∃ t, exec .perstAssert s = .next t ∧ t.start = { watchdog := true } ∧ t.fuse = s.fuse ∧ t.regs = [] ∧
      t.eng = {} ∧ t.twin = {} ∧ t.tenants = [] ∧ t.sess = {} ∧ t.hubTime = 0) ∧
    (s.board.rstSel = false → exec .perstAssert s = .next (functionReset s)))) ∧
  ((∀ (s : State) (r : Bool) (m : BitVec 2), s.board.powered = true → ballsTaken s = false →
    (s.board.resetN = true → s.board.brownout = false → s.board.refclkLost = false →
      exec (.resetNRelease r m) s = .next { s with
        board := { s.board with resetN := false, rstSel := r, tmode := m }
        hubTime := 0
        start := { watchdog := true } }) ∧
    (s.board.brownout = true → s.board.resetN = false → s.board.refclkLost = false →
      exec (.vddAonRecovery r m) s = .next { s with
        board := { s.board with brownout := false, rstSel := r, tmode := m }
        hubTime := 0
        start := { watchdog := true } }) ∧
    (s.board.refclkLost = true → s.board.resetN = false → s.board.brownout = false →
      exec (.refclk25Return r m) s = .next { s with
        board := { s.board with refclkLost := false, rstSel := r, tmode := m }
        hubTime := 0
        start := { watchdog := true } }) ∧
    (s.board.resetN = true → s.board.brownout = true →
      exec (.vddAonRecovery r m) s = .next { s with board := { s.board with brownout := false } })) ∧
  (∀ s : State, s.live → s.start.phase = .reset → inReset s = false →
    exec .resetPhaseEnd s = .next (if s.board.tmode = 0 then { s with start := { s.start with phase := .rom } } else s)))

/-- O11. At the end of phase ROM the hub is ready for configuration. With NEXT other than CONFIRMED and TRIES below 2, the bank is NEXT and
a record with TRIES + 1 is written; otherwise CONFIRMED's bank is chosen, where it names one, and no record is written. At the end of SECURE
the chosen bank runs if its image is valid, else the other bank with FW_FALLBACK, else the start is in RECOVERY with the hub window open;
PCF_RUNNING becomes 1 with the image. At the end of phase SETTINGS every setting of the catalogue has its stored value in force. With a
valid factory layer the start goes to DIES, every Lenot link and Hawser port in training; otherwise it is in FAILED with FAIL_CODE 0x02 and
MBX0 ready. (19 Start-up and the settings image) -/
def Obligations.BankAndSettingsLayers : Prop :=
  ((∀ s : State, s.live → s.start.phase = .rom →
    ∃ t, exec .romPhaseEnd s = .next t ∧ t.start.phase = .secure ∧ t.start.hubReady = true ∧
      ((bootRec s).next ≠ (bootRec s).confirmed → (bootRec s).tries < 2 →
        t.start.bank = ((bootRec s).next % 2 == 1) ∧
        t.flash = (writeBoot s (bootRec s).next ((bootRec s).tries + 1) (bootRec s).confirmed).flash) ∧
      (¬ ((bootRec s).next ≠ (bootRec s).confirmed ∧ (bootRec s).tries < 2) → (bootRec s).confirmed ≤ 1 →
        t.start.bank = ((bootRec s).confirmed == 1) ∧ t.flash = s.flash) ∧ t.fuse = s.fuse ∧ t.settings = s.settings) ∧
  (∀ s : State, s.live → s.start.phase = .secure →
    (∀ b : Bool, b = s.start.bank ∧ imageValid s b = true ∨ b = !s.start.bank ∧ imageValid s s.start.bank = false ∧ imageValid s b = true →
      ∃ t, exec .securePhaseEnd s = .next t ∧ t.start.phase = .settings ∧ t.start.pcfRunning = true ∧ t.start.bank = b ∧
        (t.start.fwFallback = true ↔ b ≠ s.start.bank) ∧ t.start.secVersion = imageSec s b ∧ t.flash = s.flash ∧ t.windows = s.windows) ∧
    (imageValid s false = false → imageValid s true = false →
      ∃ t, exec .securePhaseEnd s = .next t ∧ t.start.phase = .recovery ∧ t.windows.getLsbD 0 = true ∧ t.start.pcfRunning = s.start.pcfRunning))) ∧
  (∀ s : State, s.live → s.start.phase = .settings → s.start.pcfRunning = true →
    (factoryValid s = true →
      ∃ t, exec .settingsPhaseEnd s = .next t ∧ t.start.phase = .dies ∧ (∀ d ∈ catalogue, setting t d.id = storedValue s d.id) ∧
        t.serving.mode = storedValue s idPkgMode ∧ (∀ p : HwNo, (hwsPort t p.val).state = 1) ∧
        (∀ l : Fin 12, (lntPort t (linkPorts l.val).1).state = 1 ∧ (lntPort t (linkPorts l.val).2).state = 1) ∧ t.fuse = s.fuse) ∧
    (factoryValid s = false →
      ∃ t, exec .settingsPhaseEnd s = .next t ∧ t.start.phase = .failed ∧ t.start.failCode = 2 ∧ t.start.result = .failed ∧
        (mbx t 0).fwReady = true))

/-- O12. A die that does not answer discovery in time is failed at start. When every link has ended its lane test, the start goes on with
the dies reached if a spoke serves, and fails with code 0x03 otherwise; it fails with code 0x04 where no die serves and with 0x05 where one
failed and START_DEGRADED is 0. A stack that trains serves and its zero-fill runs; one that does not fails with its die. The start leaves
STACKS when every stack of a die in service has been filled. At READY the result reads complete, or degraded where a die failed; FW_READY is
1 on MBX0 and on every enabled VF's mailbox that no reset holds; the boot record names the running bank, FUSED_MIN is at least the image's
SEC_VERSION, and the watchdog stops. A watchdog that expires before READY sends the start to FAILED with code 0x06 when the running bank is
the confirmed one or none runs yet, and back to phase ROM with PCIe state, the error logs and the mailboxes' SEQ kept when it is not. (19
Start-up and the settings image) -/
def Obligations.DiesStacksAndReady : Prop :=
  ((∀ (s : State) (d : DieNo), s.live → s.start.phase = .dies → dieCond s d.val = .notDiscovered →
    ∃ t, exec (.dieDiscoveryTimeout d) s = .next t ∧ dieCond t d.val = .failedAtStart ∧ (∀ e, e ≠ d.val → dieCond t e = dieCond s e) ∧
      t.start.diesFailed = s.start.diesFailed ||| BitVec.ofNat 8 (2 ^ d.val) ∧ t.start.phase = .dies ∧ t.mem = s.mem) ∧
  (∀ s : State, s.live → s.start.phase = .dies → s.start.pcfRunning = true → linksTested s = true →
    ([8, 9, 10, 11].any (linkUp s) = false →
      ∃ t, exec .diesPhaseEnd s = .next t ∧ t.start.phase = .failed ∧ t.start.failCode = 3) ∧
    ([8, 9, 10, 11].any (linkUp s) = true →
      ∃ t, exec .diesPhaseEnd s = .next t ∧
        (∀ d : DieNo, dieCond s d.val = .notDiscovered → dieCond t d.val = .inService ∨ dieCond t d.val = .failedAtStart) ∧
        (t.start.phase = .stackIds ↔ degradedFail t = none) ∧ (∀ c, degradedFail t = some c → t.start.failCode = BitVec.ofNat 8 c))) ∧
  (∀ s : State, s.live → s.start.phase = .stackIds → s.start.pcfRunning = true → degradedFail s = none →
    (∀ d : DieNo, dieInService s d.val = true → (tget {} s.stackIds d.val).cond = .inService ∧ (stackCtl s d.val).fill = false) →
    exec .stacksPhaseEnd s = .next { s with start := { s.start with phase := .service } }) ∧
  (∀ (s : State) (d : DieNo) (mfr : BitVec 8) (h n : BitVec 4) (lanes rows thr : Nat), s.live → s.start.phase = .stackIds →
    dieInService s d.val = true → (tget {} s.stackIds d.val).cond = .notTrained →
    (∃ t, exec (.stackTrainingComplete d true mfr h n ⟨lanes, rows, thr⟩) s = .next t ∧ (tget {} t.stackIds d.val).cond = .inService ∧
      (tget {} t.stackIds d.val).mfr = mfr ∧ (stackCtl t d.val).fill = true ∧ (stackCtl t d.val).retired = (stackCtl s d.val).retired ∧
      (tget {} t.stackIds d.val).repairs = lanes + min rows (64 * (stackCtl s d.val).retired.length) ∧ dieCond t d.val = .inService ∧
      (∀ e, e ≠ d.val → stackCtl t e = stackCtl s e) ∧ t.mem = s.mem) ∧
    (∃ t, exec (.stackTrainingComplete d false mfr h n ⟨lanes, rows, thr⟩) s = .next t ∧ (tget {} t.stackIds d.val).cond = .failed ∧
      dieCond t d.val = .failedAtStart ∧ (∀ e, e ≠ d.val → dieCond t e = dieCond s e) ∧ t.mem = s.mem))) ∧
  ((∀ s : State, s.live → s.start.phase = .service → s.start.pcfRunning = true →
    ∃ t, exec .readyTransition s = .next t ∧ t.start.phase = .ready ∧ t.start.watchdog = false ∧ t.start.confirmed = true ∧
      t.start.result = (if s.start.diesFailed = 0 then .complete else .degraded) ∧
      (∀ n : FnNo, fnEnabled s n.val = true → (tenant s n.val).resetting = none → (mbx t n.val).fwReady = true) ∧
      t.fuse = { s.fuse with fusedMin := max s.fuse.fusedMin s.start.secVersion } ∧
      t.flash = (writeBoot s (b2n s.start.bank) 0 (b2n s.start.bank)).flash ∧ t.dies = s.dies ∧ t.mem = s.mem ∧
      statusBalls t = (s.board.thermShdn, s.err.fatal, true) ∧ (s.serving.mode ≠ 0 → (reg t staTestCtrl).getLsbD 31 = true)) ∧
  (∀ s : State, s.live → s.start.watchdog = true → inReset s = false → s.board.tmode = 0 → s.start.phase = .reset ∨ s.start.phase = .rom →
    ∃ t, exec .startWatchdogExpiry s = .next t ∧ t.start.phase = .failed ∧ t.start.failCode = 6 ∧ t.start.watchdog = false) ∧
  (∀ s : State, s.live → s.start.watchdog = true → inReset s = false → s.board.tmode = 0 →
    s.start.phase ∈ [Phase.secure, .settings, .dies, .stackIds, .service] →
    (b2n s.start.bank = (bootRec s).confirmed →
      ∃ t, exec .startWatchdogExpiry s = .next t ∧ t.start.phase = .failed ∧ t.start.failCode = 6 ∧ t.start.watchdog = false) ∧
    (b2n s.start.bank ≠ (bootRec s).confirmed →
      ∃ t, exec .startWatchdogExpiry s = .next t ∧ t.start.phase = .rom ∧ t.pcie = s.pcie ∧ t.start.hubReady = true ∧
        t.fuse = s.fuse ∧ t.eng = {} ∧ t.sess = {} ∧ t.cleat.dupLock = s.cleat.dupLock ∧ (∀ n, (mbx t n).seq = (mbx s n).seq))))

/-- O13. With the hub window open and no command running, READ, and PROGRAM and ERASE outside the protected regions, start at the page or
block of SFC_ADDR; a protected PROGRAM or ERASE changes only SFC_STATUS.PROTECT, one during a command only CMD_BUSY. With the window closed
each is BLK_WR. At its end READ has copied the page to SFC_BUF, ERASE has erased the block alone, PROGRAM has cleared bits of the page
alone; where the flash reports an error, SFC_STATUS.FAIL is set and each bit that was to change is a free value (log entry 1). REBOOT in
RECOVERY with a valid image returns to ROM. (19 Start-up and the settings image) -/
def Obligations.FlashControllerCommands : Prop :=
  (∀ (s : State) (c : Sys2Proof.Instr) (k : Nat), s.live → memSpaceOn s 0 = true → windowOpen s 0x471004 = true →
    (c = .sfcRead ∧ k = 1 ∨ c = .sfcProgram ∧ k = 2 ∨ c = .sfcErase ∧ k = 3) →
    (s.sfc.running = none → (k = 1 ∨ flashProtected s (sfcTarget s (if k = 3 then 65536 else 4096)) = false) →
      exec c s = .next { s with sfc := { s.sfc with running := some { cmd := k, addr := sfcTarget s (if k = 3 then 65536 else 4096) } } }) ∧
    (s.sfc.running = none → k ≠ 1 → flashProtected s (sfcTarget s (if k = 3 then 65536 else 4096)) = true →
      exec c s = .next (orReg s sfcStatus 4)) ∧
    (s.sfc.running ≠ none → exec c s = .next (orReg s sfcStatus 2))) ∧
  (∀ (s : State) (c : Sys2Proof.Instr), s.live → memSpaceOn s 0 = true → windowOpen s 0x471004 = false →
    c ∈ [Sys2Proof.Instr.sfcRead, .sfcProgram, .sfcErase, .sfcReboot] → exec c s = .next (hubError s 1 0x471004)) ∧
  (∀ (s : State) (a : Nat) (e : Bool), s.live → s.sfc.running = some { cmd := 1, addr := a } →
    ∃ t, exec (.sfcCommandComplete e) s = .next t ∧ t.sfc.running = none ∧ t.flash = s.flash ∧
      (∀ i, i < 4096 → tget 0 t.sfc.buf i = flashByte s (a + i))) ∧
  (∀ (s : State) (a : Nat), s.live → s.sfc.running = some { cmd := 2, addr := a } →
    ∃ t, exec (.sfcCommandComplete false) s = .next t ∧ t.sfc.running = none ∧ t.regs = s.regs ∧
      (∀ i, i < 4096 → flashByte t (a + i) = flashByte s (a + i) &&& tget 0 s.sfc.buf i) ∧
      (∀ b, b < a ∨ a + 4096 ≤ b → flashByte t b = flashByte s b)) ∧
  (∀ (s : State) (a : Nat), s.live → s.sfc.running = some { cmd := 3, addr := a } →
    ∃ t, exec (.sfcCommandComplete false) s = .next t ∧ t.sfc.running = none ∧ t.regs = s.regs ∧
      (∀ b, flashByte t b = if b / 65536 = a / 65536 then 0xFF else flashByte s b)) ∧
  (∀ (s : State) (a : Nat), s.live → s.sfc.running = some { cmd := 2, addr := a } →
    ∃ t, exec (.sfcCommandComplete true) s = .next t ∧ t.sfc.running = none ∧ (reg t sfcStatus).getLsbD 3 = true ∧
      (∀ i, i < 4096 → flashByte t (a + i) =
        flashByte s (a + i) &&& (tget 0 s.sfc.buf i ||| (Config.freeWord (s.free + i)).setWidth 8)) ∧
      (∀ b, b < a ∨ a + 4096 ≤ b → flashByte t b = flashByte s b)) ∧
  (∀ (s : State) (a : Nat), s.live → s.sfc.running = some { cmd := 3, addr := a } →
    ∃ t, exec (.sfcCommandComplete true) s = .next t ∧ t.sfc.running = none ∧ (reg t sfcStatus).getLsbD 3 = true ∧
      (∀ b, flashByte t b = if b / 65536 = a / 65536 then flashByte s b ||| (Config.freeWord (s.free + b % 65536)).setWidth 8
        else flashByte s b)) ∧
  (∀ s : State, s.live → memSpaceOn s 0 = true → windowOpen s 0x471004 = true → s.sfc.running = none → s.start.phase = .recovery →
    ∀ b, validBank s = some b →
      ∃ t, exec .sfcReboot s = .next t ∧ t.start.phase = .rom ∧ t.flash = (writeBoot s (b2n b) 0 0xFF).flash ∧
        t.windows.getLsbD 0 = false)

/-- O14. An idle running cluster is clock-gated, and a waking one runs again, with no other cluster or core changed. A clock- gated idle
cluster is power-gated once what runs on its lines has ended, losing what its banks hold; where that wakes it, it stays on. A present,
awake, idle C-die enters RETENTION with its stack in self refresh where PWR_RET_IDLE allows it, and a waking one is awake again, its stack
out of self refresh. ENTER_DEEP_IDLE starts an entry where no work remains and answers BUSY where some does; the automatic entry starts with
every present C-die in RETENTION. When nothing it waits for runs, the package is in DEEP_IDLE with the unified cache empty. An access that a
waking die held is performed when it is awake. WAKE_TO_IDLE and the end of the wake make the package ready again, counting the wake. The SCP
halts only when PCF has no work, and SCP_WAKE wakes it. (18 Power domains, clocks and sleep) -/
def Obligations.SleepStates : Prop :=
  ((∀ (s : State) (k : Fin 64), s.live →
    (clusterPwr s k.val = .run → clusterIdle s k.val = true →
      exec (.clusterClockGate k) s = .next { s with power := { s.power with clusters := tput s.power.clusters k.val .cg } }) ∧
    (clusterPwr s k.val = .waking →
      exec (.clusterWakeComplete k) s = .next { s with power := { s.power with clusters := tput s.power.clusters k.val .run } }) ∧
    (clusterPwr s k.val = .cg → clusterIdle s k.val = true → setting s idPwrPgIdle ≠ 0 → setting s idPwrAwakeClusters ≤ k.val % 8 →
      clusterLines s k.val = [] →
      ∃ t, exec (.clusterPowerGate k) s = .next t ∧ clusterPwr t k.val = .pg ∧
        (∀ j, j ≠ k.val → clusterPwr t j = clusterPwr s j) ∧ t.uc = s.uc ∧ t.mem = s.mem ∧ t.power.dies = s.power.dies) ∧
    (clusterPwr s k.val = .cg → setting s idPwrPgIdle ≠ 0 → setting s idPwrAwakeClusters ≤ k.val % 8 →
      let u := (clusterLines s k.val).foldl settle s
      (clusterPwr u k.val = .cg → clusterIdle u k.val = true →
        ∃ t, exec (.clusterPowerGate k) s = .next t ∧ clusterPwr t k.val = .pg ∧ ∀ c, c / 64 = k.val → (coreAt t c).banks = []) ∧
      (clusterPwr u k.val ≠ .cg ∨ clusterIdle u k.val = false → exec (.clusterPowerGate k) s = .next u))) ∧
  (∀ (s : State) (d : DieNo), s.live →
    (diePresent s d.val = true → dieAwake s d.val = true → setting s idPwrRetIdle ≠ 0 → dieIdle s d.val = true →
      ∃ t, exec (.dieRetentionEntry d) s = .next t ∧ diePwr t d.val = .retention ∧ (stackCtl t d.val).selfRefresh = true ∧
        (∀ e, e ≠ d.val → diePwr t e = diePwr s e) ∧ t.mem = s.mem ∧ t.uc = s.uc) ∧
    (diePwr s d.val = .waking → s.power.deep = false → s.power.held = [] →
      ∃ t, exec (.dieWakeComplete d) s = .next t ∧ diePwr t d.val = .awake ∧ (stackCtl t d.val).selfRefresh = false ∧
        (∀ e, e ≠ d.val → diePwr t e = diePwr s e) ∧ t.mem = s.mem ∧ t.uc = s.uc ∧ t.out = s.out) ∧
    (∀ (a n : Nat) (x : Option (List Byte)), diePwr s d.val = .waking → s.power.deep = false → s.power.held = [.bar2 a n x] →
      a / 2 ^ 36 % 8 = d.val →
      ∃ u t, exec (.dieWakeComplete d) s = .next t ∧ diePwr u d.val = .awake ∧ u.mem = s.mem ∧ u.uc = s.uc ∧
        t = { bar2Perform u a n x with power := { (bar2Perform u a n x).power with held := [] } }))) ∧
  ((∀ (s : State) (who : Issuer) (r : Req), Serves s who 0x0801 r →
    (field r.payload 0 1 = 1 → workRemains s = false → s.power.deep = false →
      exec (.enterDeepIdle who) s = .next (okWith { s with power := { s.power with entering := true } } r [])) ∧
    (field r.payload 0 1 = 1 → workRemains s = true → exec (.enterDeepIdle who) s = .next (refuse s r stBusy 0)) ∧
    (field r.payload 0 1 = 2 → s.power.deep = true →
      ∃ t, exec (.wakeToIdle who) s = .next (okWith t r []) ∧ t.power.waking = true ∧ t.power.scp = true ∧ t.power.deep = true ∧
        t.mem = s.mem ∧ t.mbxs = s.mbxs)) ∧
  (∀ s : State, s.live →
    (setting s idPwrDeepAuto ≠ 0 → s.start.phase = .ready → s.start.pcfRunning = true → s.power.deep = false → workRemains s = false →
      (∀ d : DieNo, diePresent s d.val = true → diePwr s d.val = .retention) →
      exec .deepIdleAutoEntry s = .next { s with power := { s.power with entering := true, scp := true } }) ∧
    (s.power.entering = true → entryClear s = true →
      ∃ t, exec .deepIdleEntryComplete s = .next t ∧ t.power.deep = true ∧ t.power.entering = false ∧ t.power.waking = false ∧
        t.uc = {} ∧ (∀ d : DieNo, diePresent s d.val = true → diePwr t d.val = .deep ∧ (stackCtl t d.val).selfRefresh = true)) ∧
    (s.power.deep = true → s.power.waking = true → s.power.held = [] →
      ∃ t, exec .packageWakeComplete s = .next t ∧ t.power.deep = false ∧ t.power.waking = false ∧ t.power.scp = true ∧
        (∀ d : DieNo, diePresent s d.val = true → diePwr t d.val = .awake ∧ (stackCtl t d.val).selfRefresh = false) ∧
        (reg t pwrWakeCnt).toNat = min ((reg s pwrWakeCnt).toNat + 1) (2 ^ 32 - 1) ∧ t.mem = s.mem ∧ t.uc = s.uc) ∧
    (s.start.pcfRunning = true → pcfIdle s = true →
      exec .scpHalt s = .next { s with power := { s.power with scp := false } }) ∧
    (pcfIdle s = false → exec .scpHalt s = .next s) ∧
    exec .scpWake s = .next { s with power := { s.power with scp := true } }))

/-- O15. A sample with its highest sensor at 110 °C or more engages the trip, with the core clock at 400 MHz; below that and 125 °C the trip
is as it was. A sample of 125 °C or more shuts the package down with THERM_SHDN_N low. The trip's release, with every sensor below 100 °C
since the last sample, restores PWR_CORE_MHZ. A core rail's droop sets PWR_ERR and quarantines its die when that die is in service. (18
Power domains, clocks and sleep) -/
def Obligations.ThermalTripAndShutdown : Prop :=
  (∀ (s : State) (temps : List Nat), s.live → ∃ t, exec (.thermalSensorSample temps) s = .next t ∧
    (∀ n, n < 9 → tj t n = temps.getD n 0) ∧
    (1100 ≤ tjMax t → t.power.trip = true ∧ (s.power.trip = false → t.power.coreMhz = 400 ∧ t.power.trips = s.power.trips + 1)) ∧
    (tjMax t < 1100 → t.power.trip = s.power.trip ∧ t.power.coreMhz = s.power.coreMhz) ∧
    (t.power.shutdown = true ↔ 1250 ≤ tjMax t) ∧ (1250 ≤ tjMax t → t.board.thermShdn = true) ∧
    (tjMax t < 1250 → t.board = s.board ∧ t.power.releasing = (t.power.trip && decide (tjMax t < 1000))) ∧
    t.mem = s.mem ∧ t.uc = s.uc ∧ t.sess = s.sess) ∧
  (∀ s : State, s.live → s.power.trip = true → s.power.releasing = true →
    exec .thermalTripRelease s = .next { s with
      power := { s.power with trip := false, releasing := false, coreMhz := setting s idPwrCoreMhz } }) ∧
  (∀ (s : State) (k : Fin 64), s.live → diePresent s (k.val / 8) = true →
    ∃ t, exec (.coreRailDroop k) s = .next t ∧ (reg t pwrErr).getLsbD 1 = true ∧
      (reg t pwrDroopLast).toNat = 2 ^ 31 + k.val ∧
      (dieInService s (k.val / 8) = true → s.err.fatal = false → dieCond t (k.val / 8) = .quarantined) ∧
      (∀ e, e ≠ k.val / 8 → dieCond t e = dieCond s e))

/-- O16. In a package that has shut down for its temperature, every command that is neither a cause or an end of a package reset nor an
operation of the boundary-scan port leaves the whole state as it is, and an always-on cycle passes without effect. (18 Power domains, clocks
and sleep) -/
def Obligations.ShutdownStopsEverythingButReset : Prop :=
  (∀ (c : Sys2Proof.Instr) (s : State), s.power.shutdown = true →
    (∀ n, c ≠ .resetNAssert n) → (∀ r m, c ≠ .resetNRelease r m ∧ c ≠ .vddAonRecovery r m ∧ c ≠ .refclk25Return r m) →
    c ∉ [.powerOn, .perstAssert, .vddAonBrownout, .refclk25Loss, .bypass, .idcode, .extest, .clamp, .highz] →
    (∀ v, c ≠ .samplePreload v) → exec c s = .next s) ∧
  (∀ s : State, s.power.shutdown = true → idle s = s)

/-- O17. The end of a counting window clears the corrected-error counts and takes ERR_CE_WINDOW_S anew. At the end of a hold, what was held
becomes one record with its count at the end of that log, INDEX in sequence, and a new hold starts; where nothing was held the hold is over
and no record is written. With the always-on supply up, each instruction of the port comes into force and changes nothing else of the
package; IDCODE shifts out the 32 bits with manufacturer 0x4E7, the device number and a 1, and SAMPLE_PRELOAD takes the preloaded value and
shifts out 32 bits that the spec does not fix (log entry 1). Without the supply nothing happens. (21 Errors, diagnostics and link test
patterns) -/
def Obligations.ErrorWindowsAndBoundaryScan : Prop :=
  ((∀ s : State, s.live → exec .ceWindowEnd s = .next { s with err := { s.err with ce := [], ceWindow := setting s idErrCeWindow } }) ∧
  (∀ (s : State) (n : FnNo) (code : Nat), s.live → (∃ h, (errLog s n.val).holds.find? (fun h => h.1 == code) = some h ∧ h.2.last = none) →
    ∃ t, exec (.coalesceHoldEnd n code) s = .next t ∧ (errLog t n.val).recs = (errLog s n.val).recs ∧
      (errLog t n.val).next = (errLog s n.val).next ∧ (∀ h ∈ (errLog t n.val).holds, h.1 ≠ code) ∧ t.out = s.out) ∧
  (∀ (s : State) (n : FnNo) (code k : Nat) (r : ErrRec), s.live →
    (∃ h, (errLog s n.val).holds.find? (fun h => h.1 == code) = some h ∧ h.2 = { count := k, last := some r }) →
    ∃ t, exec (.coalesceHoldEnd n code) s = .next t ∧
      (errLog t n.val).recs.getLast? = some { r with index := (errLog s n.val).next, count := min k 0xFFFF } ∧
      (errLog t n.val).next = (errLog s n.val).next + 1 ∧ (errLog t n.val).recs.length ≤ max (errLog s n.val).recs.length (logCap n.val) ∧
      tget { count := 1 } (errLog t n.val).holds code = {} ∧ t.mem = s.mem)) ∧
  ((∀ (s : State), s.board.powered = true → s.board.brownout = false →
    exec .bypass s = .next { s with jtag := { s.jtag with ir := .bypass } } ∧
    exec .extest s = .next { s with jtag := { s.jtag with ir := .extest } } ∧
    exec .clamp s = .next { s with jtag := { s.jtag with ir := .clamp } } ∧
    exec .highz s = .next { s with jtag := { s.jtag with ir := .highz } } ∧
    (∃ w : Word, exec .idcode s = .next { s with
        jtag := { s.jtag with ir := .idcode }
        out := s.out ++ [.jtagShift w] } ∧ bits w.toNat 0 1 = 1 ∧ bits w.toNat 1 11 = 0x4E7 ∧
      bits w.toNat 12 16 = deviceId s.fuse.variant false ∧ bits w.toNat 28 4 = hubRevMajor s.fuse.variant) ∧
    (∀ v : Word, ∃ w : Word, exec (.samplePreload v) s = .next { s with
        jtag := { s.jtag with ir := .sample, boundary := v }
        free := s.free + 1
        out := s.out ++ [.jtagShift w] })) ∧
  (∀ (s : State) (c : Sys2Proof.Instr) (v : Word), s.board.powered = false ∨ s.board.brownout = true →
    c ∈ [.bypass, .idcode, .samplePreload v, .extest, .clamp, .highz] → exec c s = .next s))

/-- O18. A LINK_TEST that is served with the package awake, on a link with no test running that can be taken out of service, is answered
ACCEPTED and the link's test runs; on a link under test it answers BUSY, DETAIL 0x0601. At the end of the time the test runs no longer,
RESULT is 1 when no selected lane failed and 2 otherwise, and the sums of its ends are kept. DIE_QUARANTINE of a die in service, and
DIE_RETURN_TO_SERVICE of a quarantined one, are ACCEPTED and run on that die when nothing refuses them. A drain with nothing left to wait
for ends with the die quarantined; a return ends with it in service and its block window closed. An uncontained error of a die in service
quarantines it at once; one of the package sets the fatal state, asserts FATAL_N and stops every queue that is not closed. A fatal state
stays, whatever error follows. (16 Twin pairs, failover and in-service repair, 21 Errors, diagnostics and link test patterns) -/
def Obligations.LinkTestsAndQuarantine : Prop :=
  ((∀ (s : State) (who : Issuer) (r : Req), Serves s who 0x0601 r → s.power.deep = false →
    (testing s (field r.payload 0 1) (field r.payload 1 1) = true → exec (.linkTest who) s = .next (refuse s r stBusy 0x0601)) ∧
    (testing s (field r.payload 0 1) (field r.payload 1 1) = false → linkHeld s (field r.payload 0 1) (field r.payload 1 1) = false →
      ∃ t, exec (.linkTest who) s = .next (accepted t r) ∧
        tget { op := r.op, pattern := 0, laneMask := 0, durationMs := 0 } t.linkTests
            (16 * field r.payload 0 1 + field r.payload 1 1) =
          { op := r.op, pattern := field r.payload 2 1, laneMask := BitVec.ofNat 32 (field r.payload 4 4),
            durationMs := field r.payload 8 4 } ∧
        t.mem = s.mem ∧ t.settings = s.settings)) ∧
  (∀ (s : State) (kind : Fin 4) (link : Fin 12) (near far : List LaneCount) (f1 f2 : List (Fin 8 × BitVec 18)) (x : LinkTest),
    s.live → pcfUp s = true → s.linkTests.find? (fun p => p.1 == 16 * kind.val + link.val) = some (16 * kind.val + link.val, x) →
    (kind.val = 0 → linkDrained s link.val = true) →
    ∃ t, exec (.linkTestComplete kind link near far f1 f2) s = .next t ∧ testing t kind.val link.val = false ∧
      tget {} t.linkResults (16 * kind.val + link.val) = testResult kind.val x near far)) ∧
  ((∀ (s : State) (who : Issuer) (r : Req), Serves s who 0x0703 r → s.power.deep = false → field r.payload 0 1 < 8 →
    (field r.payload 1 1 = 1 → dieCtrlRefusal s (field r.payload 0 1) .quarantined .inService = none →
      ∃ t o, exec (.dieQuarantine who) s = .next (accepted t r) ∧ dieOp t (field r.payload 0 1) = some o ∧ o.op = r.op ∧ o.back = false ∧
        t.dies = s.dies ∧ t.mem = s.mem) ∧
    (field r.payload 1 1 = 2 → dieCtrlRefusal s (field r.payload 0 1) .inService .quarantined = none →
      ∃ t o, exec (.dieReturnToService who) s = .next (accepted t r) ∧ dieOp t (field r.payload 0 1) = some o ∧ o.op = r.op ∧
        o.back = true ∧ t.dies = s.dies ∧ t.mem = s.mem)) ∧
  (∀ (s : State) (d : DieNo) (o : DieOp), s.live → pcfUp s = true → dieOp s d.val = some o →
    (o.back = false → s.serving.step = none → sessionsOn s d.val = [] → drained s d.val = true →
      (∃ t, exec (.quarantineDrainComplete d) s = .next t ∧ dieCond t d.val = .quarantined ∧
        (∀ e, e ≠ d.val → dieCond t e = dieCond s e) ∧ dieOp t d.val = none) ∧
      (∃ t, exec (.quarantineDrainExpiry d) s = .next t ∧ dieCond t d.val = .quarantined ∧ dieOp t d.val = none)) ∧
    (o.back = true → ∃ t, exec (.returnToServiceComplete d) s = .next t ∧ dieCond t d.val = .inService ∧
      (∀ e, e ≠ d.val → dieCond t e = dieCond s e) ∧ dieOp t d.val = none ∧ t.windows.getLsbD (1 + d.val) = false)) ∧
  (∀ (s : State) (d : DieNo) (k : Option (Fin 8)) (u : DWord), s.live → dieInService s d.val = true → s.err.fatal = false →
    ∃ t, exec (.uncontainedDieError d k u) s = .next t ∧ dieCond t d.val = .quarantined ∧ (∀ e, e ≠ d.val → dieCond t e = dieCond s e) ∧
      dieOp t d.val = none) ∧
  (∀ (s : State) (u : DWord) (stops : Bool), s.live → s.err.fatal = false →
    ∃ t, exec (.uncontainedPackageError u stops) s = .next t ∧ t.err.fatal = true ∧ t.err.fatalCode = 0x1043 ∧
      t.start.pcfRunning = (s.start.pcfRunning && !stops) ∧ t.dies = s.dies ∧ (statusBalls t).2.1 = true ∧
      (∀ q, (queue s q).state ≠ .closed → (queue t q).state = .stopped)) ∧
  (∀ (s : State) (d : DieNo) (k : Option (Fin 8)) (u : DWord) (stops : Bool), s.live → s.err.fatal = true →
    (∃ t, exec (.uncontainedDieError d k u) s = .next t ∧ t.dies = s.dies ∧ t.err.fatalCode = s.err.fatalCode) ∧
    (∃ t, exec (.uncontainedPackageError u stops) s = .next t ∧ t.err.fatal = true ∧ t.err.fatalCode = s.err.fatalCode)))

/-- O19. A started RESERVE that no check refuses and the pool serves with rows last held by the same owner opens the reservation: F is C +
FIRM, T is F + DRAFT, GEN goes up by one, the rows pop from the head of the free list, and RESULT packs GEN, the rows and C. With a row last
held by another owner it waits for the zero-fill, and at its end opens in the same way; with nothing cached those rows read zero. A prefill
that the pool cannot serve ends with POOL_EMPTY and changes no session; a decode parks the session in WAIT_PAGE at the end of the wait list.
In kernel mode, COMMIT of K positions of an open reservation of an active, unfenced session moves C, F and T to C + K and leaves no
reservation; ROLLBACK does so with K = 0, and ROLLBACK of a parked reservation drops it with DETAIL 1. Only row-map entries at or above the
new C leave the session. A COMMIT beyond T is refused and a RESERVE-less session answers WRONG_STATE; neither changes a session. What
arrives while a RESERVE's zero-fill runs waits for it. (05 Sessions, key-value pages and attention, 06 Engines, queues and command lists) -/
def Obligations.ReservationsOpenAndClose : Prop :=
  ((∀ (s : State) (q : QueueNo) (i n cls st f d : Nat) (c : Cmd), s.live → startedCmd s q.val i 0x31 = some c →
    n = field c.bytes 8 4 → cls = field c.bytes 12 1 → st = sourceStack (session s n) (field c.bytes 13 1) →
    f = field c.bytes 14 2 → d = field c.bytes 16 1 →
    reserveRefusal s (queue s q.val).owner n cls (field c.bytes 13 1) f d = none →
    (popServed s st cls (entriesNeeded (session s n) f d).length = true →
      (∀ r ∈ (pool s st).free.take (entriesNeeded (session s n) f d).length, tget 0 (pool s st).owner r = (session s n).owner + 1) →
      ∃ t, exec (.reserve q i) s = .next t ∧ (session t n).resv = .opened ∧ (session t n).c = (session s n).c ∧
        (session t n).f = (session s n).c + f ∧ (session t n).t = (session s n).c + f + d ∧ (session t n).gen = (session s n).gen + 1 ∧
        (pool t st).free = (pool s st).free.drop (entriesNeeded (session s n) f d).length ∧
        (∀ m, m ≠ n → session t m = session s m) ∧ t.mem = s.mem ∧
        cmdStage t q.val i = some (.ended (CmdRes.mk stOk 0
          (((session s n).gen + 1).toNat + (entriesNeeded (session s n) f d).length * 2 ^ 16 + (session s n).c * 2 ^ 32) false))) ∧
    (popServed s st cls (entriesNeeded (session s n) f d).length = true →
      (∃ r ∈ (pool s st).free.take (entriesNeeded (session s n) f d).length, tget 0 (pool s st).owner r ≠ (session s n).owner + 1) →
      ∃ t p, exec (.reserve q i) s = .next t ∧ (session t n).resv = .filling p ∧
        p.rows = (pool s st).free.take (entriesNeeded (session s n) f d).length ∧ p.f = f ∧ p.d = d ∧ (session t n).c = (session s n).c ∧
        (session t n).gen = (session s n).gen ∧ t.mem = s.mem ∧ cmdStage t q.val i = some .running) ∧
    (popServed s st cls (entriesNeeded (session s n) f d).length = false → cls = 0 →
      ∃ t, exec (.reserve q i) s = .next t ∧ (session t n).state = .waitPage ∧ (pool t st).wait = (pool s st).wait ++ [n] ∧
        (session t n).rowMap = (session s n).rowMap ∧ t.mem = s.mem ∧ cmdStage t q.val i = some (.ended (CmdRes.mk stWaitPage 0
          (((session s n).gen + 1).toNat + (session s n).c * 2 ^ 32) false))) ∧
    (popServed s st cls (entriesNeeded (session s n) f d).length = false → cls = 1 →
      ∃ t, exec (.reserve q i) s = .next t ∧ t.sess = s.sess ∧ t.mem = s.mem ∧
        cmdStage t q.val i = some (.ended { status := stPoolEmpty, detail := st }))) ∧
  (∀ (s : State) (q : QueueNo) (i : Nat) (c : Cmd), s.live → ownSession s (queue s q.val).owner (field c.bytes 8 4) = true →
    behindFill (session s (field c.bytes 8 4)) = true →
    (startedCmd s q.val i 0x31 = some c → exec (.reserve q i) s = .next s) ∧
    (startedCmd s q.val i 0x32 = some c → exec (.commit q i) s = .next s) ∧
    (startedCmd s q.val i 0x33 = some c → exec (.rollback q i) s = .next s)) ∧
  (∀ (s : State) (n : Nat) (p : PendResv), s.live → (session s n).resv = .filling p → (session s n).state = .active →
    ∃ t, exec (.rowZeroFillComplete n) s = .next t ∧ (session t n).resv = .opened ∧ (session t n).c = (session s n).c ∧
      (session t n).f = (session s n).c + p.f ∧ (session t n).t = (session s n).c + p.f + p.d ∧
      (session t n).gen = (session s n).gen + 1 ∧ (∀ m, m ≠ n → session t m = session s m) ∧
      (s.uc = {} → ∀ r ∈ p.rows, rowForeign s p.stack (session s n).owner r = true →
        ∀ k, k < setting s idKvRowPages * 65536 → mget t.mem (rowBase s p.stack r + k) = 0))) ∧
  (∀ (s : State) (q : QueueNo) (i n : Nat) (c : Cmd), s.live → n = field c.bytes 8 4 → ownSession s (queue s q.val).owner n = true →
    s.serving.mode ≠ 1 →
    (startedCmd s q.val i 0x32 = some c → s.twin.fenced = false → (session s n).resv = .opened → (session s n).state = .active →
      (field c.bytes 12 2 ≤ (session s n).t - (session s n).c →
        ∃ t, exec (.commit q i) s = .next t ∧ (session t n).c = (session s n).c + field c.bytes 12 2 ∧
          (session t n).f = (session t n).c ∧ (session t n).t = (session t n).c ∧ (session t n).resv = .none ∧ (session t n).tent = [] ∧
          (session t n).gen = (session s n).gen ∧ (session t n).state = .active ∧
          (∀ e ∈ (session s n).rowMap, e.1 < ceilDiv (session t n).c (kvSpan (session s n).net) → e ∈ (session t n).rowMap) ∧
          cmdStage t q.val i = some (.ended { status := stOk, result := (session s n).c + field c.bytes 12 2 })) ∧
      ((session s n).t - (session s n).c < field c.bytes 12 2 →
        exec (.commit q i) s = .next (endCmd s q.val i { status := stBadRequest, detail := 12 }))) ∧
    (startedCmd s q.val i 0x33 = some c → (session s n).resv = .opened → (session s n).state = .active →
      ∃ t, exec (.rollback q i) s = .next t ∧ (session t n).c = (session s n).c ∧ (session t n).f = (session s n).c ∧
        (session t n).t = (session s n).c ∧ (session t n).resv = .none ∧ (session t n).gen = (session s n).gen ∧
        cmdStage t q.val i = some (.ended { status := stOk })) ∧
    (∀ p, startedCmd s q.val i 0x33 = some c → (session s n).resv = .pending p → (session s n).state = .waitPage →
      ∃ t, exec (.rollback q i) s = .next t ∧ (session t n).resv = .none ∧ (session t n).state = .active ∧
        (session t n).c = (session s n).c ∧ (session t n).rowMap = (session s n).rowMap ∧
        cmdStage t q.val i = some (.ended { status := stOk, detail := 1 })) ∧
    (startedCmd s q.val i 0x33 = some c → (session s n).resv = .none → (session s n).state = .active →
      exec (.rollback q i) s = .next (endCmd s q.val i { status := stWrongState, detail := 1 })))

/-- O20. STAT of an own session that is no shadow and whose RESERVE is not being filled writes its 1,056 bytes at the named address, where
every page of it may be written, and ends OK. MERGE_ARM of a free slot whose masks can be read and outputs written, with every vector's mask
non-zero, arms it with its fields and nothing received; a vector with mask 0 is written as +0 and the command ends OK. MERGE_ABORT of an own
armed slot frees it at once; outputs written stay and no counter is incremented; of a slot that is free or another owner's it answers
WRONG_STATE, and of a slot number above 63 BAD_REQUEST. An append whose tag names an active session of a permitted issuer, its open
reservation's GEN, a reserved position and fields in range is written, converted, at the element's address; one whose GEN is not the
reservation's is dropped, counted in SES_APPEND_DROP, and changes no session and no device memory. A merge write with no armed slot, or for
a source not in the vector's mask, changes only SES_ERR; one that is awaited and not the last of its vector is kept in its slot. (05
Sessions, key-value pages and attention, 06 Engines, queues and command lists) -/
def Obligations.StatAppendsAndMerges : Prop :=
  ((∀ (s t : State) (q : QueueNo) (i : Nat) (c : Cmd), s.live → startedCmd s q.val i 0x34 = some c →
    ownSession s (queue s q.val).owner (field c.bytes 8 4) = true → (session s (field c.bytes 8 4)).state ≠ .shadow →
    behindFill (session s (field c.bytes 8 4)) = false →
    writeBuf s (queue s q.val) c 16 (field c.bytes 16 8) (statBytes (session s (field c.bytes 8 4))) = (t, none) →
    exec (.stat q i) s = .next (endCmd t q.val i { status := stOk }) ∧ (statBytes (session s (field c.bytes 8 4))).length = 1056) ∧
  (∀ (s s0 : State) (q : QueueNo) (i : Nat) (c : Cmd) (masks : List Byte), s.live → startedCmd s q.val i 0x35 = some c →
    mergeArmRange s (queue s q.val).owner c = none → s.serving.mode ≠ 1 → mergeSlot s (queue s q.val).inst (field c.bytes 8 1) = none →
    readBuf s (queue s q.val) c 32 (field c.bytes 32 8) (field c.bytes 12 4) = (s0, .ok masks) → mergeOutFault s (queue s q.val) c = none →
    (∃ t, exec (.mergeArm q i) s = .next (endCmd t q.val i { status := stOk })) ∧
    ((∀ v, v < field c.bytes 12 4 → masks.getD v 0 ≠ 0) →
      ∃ t m, exec (.mergeArm q i) s = .next (endCmd t q.val i { status := stOk }) ∧
        mergeSlot t (queue s q.val).inst (field c.bytes 8 1) = some m ∧
        m.owner = (queue s q.val).owner ∧ m.asid = field c.bytes 48 2 ∧ m.vectors = field c.bytes 12 4 ∧ m.headDim = field c.bytes 10 2 ∧
        m.outVA = field c.bytes 16 8 ∧ m.stride = field c.bytes 24 8 ∧ m.masks = masks ∧ m.counterVA = field c.bytes 40 8 ∧
        m.got = [] ∧ m.written = [] ∧ t.mem = s0.mem ∧ t.uc = s0.uc)) ∧
  (∀ (s : State) (q : QueueNo) (i : Nat) (c : Cmd), s.live → startedCmd s q.val i 0x36 = some c →
    (63 < field c.bytes 8 1 → exec (.mergeAbort q i) s = .next (endCmd s q.val i { status := stBadRequest, detail := 8 })) ∧
    (field c.bytes 8 1 ≤ 63 → s.serving.mode = 1 →
      exec (.mergeAbort q i) s = .next (endCmd s q.val i { status := stWrongState, detail := 1 })) ∧
    (field c.bytes 8 1 ≤ 63 → s.serving.mode ≠ 1 →
      (∀ m, mergeSlot s (queue s q.val).inst (field c.bytes 8 1) = some m → m.owner ≠ (queue s q.val).owner) →
      exec (.mergeAbort q i) s = .next (endCmd s q.val i { status := stWrongState })) ∧
    (∀ m, field c.bytes 8 1 ≤ 63 → s.serving.mode ≠ 1 → mergeSlot s (queue s q.val).inst (field c.bytes 8 1) = some m →
      m.owner = (queue s q.val).owner →
      ∃ t, exec (.mergeAbort q i) s = .next t ∧ mergeSlot t (queue s q.val).inst (field c.bytes 8 1) = none ∧ t.mem = s.mem ∧
        t.sess.table = s.sess.table ∧ cmdStage t q.val i = some (.ended { status := stOk })))) ∧
  ((∀ (s : State) (asid : Nat) (g : AppendTag) (data : List Word) (a : Nat), s.live → s.posted = [] → g.session < 16384 →
    (session s g.session).state = .active → mayAccess s (session s g.session) asid = true → (session s g.session).resv = .opened →
    ((session s g.session).gen = g.gen → (session s g.session).c ≤ g.position → g.position < (session s g.session).t →
      appendInRange (session s g.session) g data.length = true →
      elemAddr s (session s g.session) g.layer g.kv g.head g.position g.dimFirst = some a →
      exec (.appendWrite asid g data) s = .next (homeWrite s a (appendBytes (session s g.session).net g.srcFormat data))) ∧
    ((session s g.session).gen ≠ g.gen →
      ∃ t, exec (.appendWrite asid g data) s = .next t ∧ t.sess = s.sess ∧ t.mem = s.mem ∧ t.uc = s.uc ∧
        (reg t (dieReg (session s g.session).home sesErr)).getLsbD 1 = true)) ∧
  (∀ (s : State) (d : DieNo) (asid : Nat) (r : MergeRec), s.live → s.posted = [] →
    (mergeSlot s d.val r.slot = none ∨ 63 < r.slot →
      exec (.mergeWrite d asid r) s = .next (orReg s (dieReg d.val sesErr) 4)) ∧
    (∀ m, r.slot ≤ 63 → mergeSlot s d.val r.slot = some m → bit (m.masks.getD r.vector 0).toNat r.source = false →
      exec (.mergeWrite d asid r) s = .next (orReg s (dieReg d.val sesErr) 4)) ∧
    (∀ m, r.slot ≤ 63 → mergeSlot s d.val r.slot = some m → r.vector < m.vectors → r.o.length = m.headDim → r.source < 8 → m.got = [] →
      bit (m.masks.getD r.vector 0).toNat r.source = true →
      (∃ k, k < 8 ∧ k ≠ r.source ∧ bit (m.masks.getD r.vector 0).toNat k = true) →
      ∃ t, exec (.mergeWrite d asid r) s = .next t ∧
        mergeSlot t d.val r.slot = some { m with got := [(8 * r.vector + r.source, { m := r.m, l := r.l, o := r.o })] } ∧
        t.mem = s.mem ∧ t.regs = s.regs)))

/-- O21. Outside a pair, or for a session that is not mirrored, MIRROR_SEND changes nothing. In a pair, for an active mirrored session with
its SH_OPEN sent, a twin port serving its home, and committed positions that carry no poison, it moves the mirrored cursor M up to C and
keeps C, A and the session's rows. (16 Twin pairs, failover and in-service repair) -/
def Obligations.MirrorSendAdvancesTheCursor : Prop :=
  (∀ (s : State) (n : Nat), s.live → (isMirrored (session s n) = false ∨ (session s n).mirrorLost = true ∨ paired s = false) →
    exec (.mirrorSend n) s = .next s) ∧
  (∀ (s : State) (n : Nat), s.live → isMirrored (session s n) = true → (session s n).mirrorLost = false → paired s = true →
    (session s n).shOpen = true → (twinPort s (session s n).home).isSome = true → (session s n).m < (session s n).c →
    (∀ p, (session s n).m ≤ p → p < (session s n).c → posPoisoned s (session s n) p = false) →
    ∃ t, exec (.mirrorSend n) s = .next t ∧ (session t n).m = (session s n).c ∧ (session t n).c = (session s n).c ∧
      (session t n).a = (session s n).a ∧ (session t n).rowMap = (session s n).rowMap ∧ (session t n).state = (session s n).state)

/-- O22. In serving mode with nothing in the way BUNDLE_LOAD is ACCEPTED with the next handle. BUNDLE_SWAP of the staged bundle is ACCEPTED,
and its first drain begins at a step boundary: at once where no step is in flight (log entry 27). Verification fails the load, stages the
bundle where one is active, or starts its replication; an image that still has its digest becomes active on both halves, and in a swap may
be written to the half; one that has not ends the load or the swap with the old bundle serving. At a step boundary a half with nothing left
to drain loads, the first half loaded begins serving and lets the second drain, and the second half loaded, or both at once, makes the new
bundle active; while a step is in flight a loaded half waits for its boundary. (04 Serving mode: one bundle, many sessions) -/
def Obligations.BundleLoadAndSwap : Prop :=
  (∀ (s : State) (who : Issuer) (r : Req), s.power.deep = false → s.serving.mode = 1 → bundleBusy s = none →
    (Serves s who 0x0201 r →
      ∃ t, exec (.bundleLoad who) s = .next (acceptedWith t r (leBytes 4 s.serving.nextHandle)) ∧
        t.serving.load = some { op := r.op, handle := s.serving.nextHandle, dpa := field r.payload 0 8, bytes := field r.payload 8 8,
                                repl := field r.payload 16 1 } ∧
        t.serving.nextHandle ≠ s.serving.nextHandle ∧ t.serving.active = s.serving.active ∧ t.mem = s.mem) ∧
    (∀ a b : Bundle, Serves s who 0x0202 r → s.serving.active = some a → s.serving.staged = some b → b.handle = field r.payload 0 4 →
      ∃ t, exec (.bundleSwap who) s = .next (accepted t r) ∧
        t.serving.swap = some { op := r.op, bundle := b,
                                stage := if s.serving.step.isSome then .accepted else if a.repl = 1 then .drainAll else .drainA,
                                drainMs := if field r.payload 4 4 = 0 then setting s idSwapMaxDrain else field r.payload 4 4 } ∧
        t.serving.active = some a ∧ t.sess = s.sess ∧ t.mem = s.mem)) ∧
  (∀ (s : State) (who : Issuer) (r : Req), Serves s who 0x0202 r → s.power.deep = false → s.serving.mode = 1 → s.serving.active = none →
    exec (.bundleSwap who) s = .next (refuse s r stWrongState (bundlePhase s))) ∧
  (∀ (s : State) (l : LoadOp), s.live → pcfUp s = true → s.serving.load = some l → l.replicating = none →
    (verifyBundle s l = none → ∃ t, exec .bundleLoadVerifyComplete s = .next t ∧ t.serving.load = none ∧
      t.serving.active = s.serving.active ∧ t.serving.staged = s.serving.staged ∧ t.mem = s.mem) ∧
    (∀ b, verifyBundle s l = some b → s.serving.active = none → ∃ t, exec .bundleLoadVerifyComplete s = .next t ∧
      t.serving.load = some { l with replicating := some b } ∧ t.serving.active = none ∧
      t = { s with serving := { s.serving with load := t.serving.load, holes := t.serving.holes } }) ∧
    (∀ b, verifyBundle s l = some b → s.serving.active ≠ none → ∃ t, exec .bundleLoadVerifyComplete s = .next t ∧
      t.serving.load = none ∧ t.serving.staged = some b ∧ t.serving.active = s.serving.active)) ∧
  (∀ (s : State) (l : LoadOp) (b : Bundle), s.live → pcfUp s = true → s.serving.load = some l → l.replicating = some b →
    (digestHolds s b = true → ∃ t, exec .bundleReplicationComplete s = .next t ∧ t.serving.load = none ∧ t.serving.active = some b ∧
      t.serving.halfA = some b ∧ t.serving.halfB = some b) ∧
    (digestHolds s b = false → ∃ t, exec .bundleReplicationComplete s = .next t ∧ t.serving.load = none ∧
      t.serving.active = s.serving.active)) ∧
  (∀ (s : State) (w : SwapOp), s.live → pcfUp s = true → s.serving.load = none → s.serving.swap = some w → w.written = false →
    w.stage = .loadA ∨ w.stage = .loadAll →
    (digestHolds s w.bundle = true → exec .bundleReplicationComplete s =
      .next { s with serving := { s.serving with swap := some { w with written := true } } }) ∧
    (digestHolds s w.bundle = false → ∃ t, exec .bundleReplicationComplete s = .next t ∧ t.serving.swap = none ∧
      t.serving.staged = none ∧ t.serving.active = s.serving.active ∧ t.serving.halfA = s.serving.halfA ∧
      t.serving.halfB = s.serving.halfB)) ∧
  (∀ (s : State) (w : SwapOp) (a : Bundle), s.live → pcfUp s = true → s.serving.swap = some w → s.serving.active = some a →
    (loadStage w.stage ≠ w.stage → s.serving.step = none → drainCount s a (draining s) = [] → ∃ t, exec .swapDrainEnd s = .next t ∧
      t.serving.swap = some { w with stage := loadStage w.stage, expired := false, written := false, loaded := false } ∧
      t = { s with serving := { s.serving with swap := t.serving.swap, holes := t.serving.holes } }) ∧
    (loadStage w.stage ≠ w.stage →
      exec .swapDrainExpiry s = .next { s with serving := { s.serving with swap := some { w with expired := true } } }) ∧
    (halfLoaded w = true → s.serving.step.isSome = true →
      exec .swapHalfReplicated s = .next { s with serving := { s.serving with swap := some { w with loaded := true } } }) ∧
    (w.stage = .loadA → w.written = true → s.serving.step = none → ∃ t, exec .swapHalfReplicated s = .next t ∧
      t.serving.halfA = some w.bundle ∧ t.serving.halfB = s.serving.halfB ∧ t.serving.active = some a ∧
      t.serving.swap = some { w with stage := .drainB, written := false, loaded := false, expired := false } ∧
      t.serving.transient = (w.bundle.repl == 1)) ∧
    (w.stage = .loadB ∨ (w.stage = .loadAll ∧ w.written = true) → s.serving.step = none → ∃ t, exec .swapHalfReplicated s = .next t ∧
      t.serving.active = some w.bundle ∧ t.serving.staged = none ∧ t.serving.swap = none ∧ t.serving.halfA = some w.bundle ∧
      t.serving.halfB = some w.bundle ∧ t.serving.transient = false))

/-- O23. SESSION_CREATE with a home, a free number, quota, a network that fits, room in the pool and in the admission queue creates an
active session of the issuer with cursors 0 on that home, keeps the entry's GEN, and answers OK with its number; every other session stays.
Where no home can be given it answers the status that placement gives and creates nothing. SESSION_END of a session that is neither a shadow
nor frozen ends it at once, keeping the entry's GEN, whatever turn or reservation it has; with MODE 0 and an open reservation the session is
ending instead, and so it is while a RESERVE's zero-fill runs (log entry 50). A shadow or a frozen session answers WRONG_STATE, and one that
is not the issuer's the status that its owner gives. (04 Serving mode: one bundle, many sessions, 05 Sessions, key-value pages and
attention) -/
def Obligations.SessionsAreCreatedAndEnded : Prop :=
  (∀ (s : State) (who : Issuer) (r : Req) (b : Bundle) (home n : Nat), Serves s who 0x0301 r → s.power.deep = false → s.serving.mode = 1 →
    s.twin.state ≠ 7 → admitBundle s = some b → placeHome s r.inst (field r.payload 2 1) = .ok home → freeNumber s = some n →
    (ownSessions s r.inst).length < sessionQuota s r.inst → networkFits s (b.nets.getD (field r.payload 0 1) {}) = true →
    ((b.nets.getD (field r.payload 0 1) {}).kvHeads = 0 ∨ 1 ≤ spareRows s home) → s.serving.admq.length < setting s idAdmqDepth →
    ∃ t, exec (.sessionCreate who) s = .next (okWith t r (leBytes 4 n ++ leBytes 1 home ++ zeros 3)) ∧
      (session t n).state = .active ∧ (session t n).owner = r.inst ∧ (session t n).home = home ∧ (session t n).c = 0 ∧
      (session t n).f = 0 ∧ (session t n).t = 0 ∧ (session t n).resv = .none ∧ (session t n).turn = none ∧ (session t n).rowMap = [] ∧
      (session t n).gen = (session s n).gen ∧ (session t n).maxTokens = field r.payload 4 4 ∧ (session t n).userTag = field r.payload 8 8 ∧
      (∀ m, m ≠ n → session t m = session s m) ∧ t.sess.pools = s.sess.pools ∧ t.serving = s.serving ∧ t.mem = s.mem) ∧
  (∀ (s : State) (who : Issuer) (r : Req) (d : Nat), Serves s who 0x0301 r → s.power.deep = false →
    (s.serving.mode ≠ 1 → exec (.sessionCreate who) s = .next (refuse s r stWrongState s.serving.mode)) ∧
    (s.serving.mode = 1 → s.twin.state = 7 → exec (.sessionCreate who) s = .next (refuse s r stWrongState 7)) ∧
    (∀ b, s.serving.mode = 1 → s.twin.state ≠ 7 → admitBundle s = some b → placeHome s r.inst (field r.payload 2 1) = .error (stWrongState, d) →
      exec (.sessionCreate who) s = .next (refuse s r stWrongState d))) ∧
  (∀ (s : State) (who : Issuer) (r : Req) (n : Nat) (x : Session), Serves s who 0x0302 r → s.power.deep = false →
    n = field r.payload 0 4 → ownedSession s r.inst n = .ok x →
    (x.state = .shadow ∨ x.state = .frozen → exec (.sessionEnd who) s = .next (refuse s r stWrongState (sessCode x.state))) ∧
    (x.state ≠ .shadow → x.state ≠ .frozen → field r.payload 4 1 = 0 →
      x.resv = .opened ∨ (x.state ≠ .waitPage ∧ ∃ p, x.resv = .filling p) →
      exec (.sessionEnd who) s = .next (okWith (setSession s n { x with state := .ending }) r [])) ∧
    (x.state ≠ .shadow → x.state ≠ .frozen →
      field r.payload 4 1 ≠ 0 ∨ x.resv = .none ∨ (∃ p, x.resv = .pending p) ∨ (x.state = .waitPage ∧ ∃ p, x.resv = .filling p) →
      ∃ t, exec (.sessionEnd who) s = .next (okWith t r []) ∧ (session t n).state = .free ∧ (session t n).gen = x.gen ∧
        (session t n).turn = none ∧ (session t n).rowMap = [])) ∧
  (∀ (s : State) (who : Issuer) (r : Req) (e : Nat × Nat), Serves s who 0x0302 r → s.power.deep = false →
    ownedSession s r.inst (field r.payload 0 4) = .error e → exec (.sessionEnd who) s = .next (refuse s r e.1 e.2))

/-- O24. In serving mode a started TURN on an own session with no open turn, whose prompt is in range and readable and whose output can be
written, opens a turn with that prompt and counts it; the session goes to the end of the admission queue, or with a freezing tenant's held
turns, and the command keeps running. With the queue full it ends with OVERLOADED, is counted, and no session changes; with an identifier at
or above a decoder's VOCAB it ends with BAD_REQUEST (log entry 49: only a decoder's prompt is checked). Out of serving mode, for a shadow, a
session that is not found, an open turn, a prompt too long, or a buffer that cannot be reached, it ends with the status that each has and
opens nothing. (04 Serving mode: one bundle, many sessions, 06 Engines, queues and command lists) -/
def Obligations.TurnsEnterTheAdmissionQueue : Prop :=
  (∀ (s s1 : State) (q : QueueNo) (i n : Nat) (c : Cmd) (bs : List Byte) (prompt : List Nat), s.live →
    startedCmd s q.val i 0x30 = some c → n = field c.bytes 8 4 →
    turnRange c = none → s.serving.mode = 1 → ownSession s (queue s q.val).owner n = true → (session s n).state ≠ .shadow →
    (session s n).turn = none → (session s n).c + field c.bytes 12 4 < (session s n).maxTokens →
    readBuf s (queue s q.val) c 16 (field c.bytes 16 8) (4 * field c.bytes 12 4) = (s1, .ok bs) →
    turnOutFault s1 (queue s q.val) c = none → prompt = (List.range (field c.bytes 12 4)).map (fun j => field bs (4 * j) 4) →
    ((session s n).net.kind ≠ 0 ∨ (∀ tok ∈ prompt, tok < (session s n).net.vocab) →
      (s.serving.admq.length < setting s idAdmqDepth →
        ∃ t u, exec (.turn q i) s = .next t ∧ (session t n).turn = some u ∧ u.queue = q.val ∧ u.index = i ∧
          u.prompt = prompt ∧ u.pos = 0 ∧ u.admitted = false ∧ u.outVA = field c.bytes 24 8 ∧ u.outMax = field c.bytes 32 4 ∧
          u.progressVA = field c.bytes 40 8 ∧ t.serving.cnt.turnsAdmitted = s.serving.cnt.turnsAdmitted + 1 ∧
          (∀ m, m ≠ n → session t m = session s m) ∧ cmdStage t q.val i = some .running ∧ t.mem = s1.mem ∧ t.hostMem = s.hostMem ∧
          ((tenant s (queue s q.val).owner).state ≠ .freezing →
            t.serving.admq = s.serving.admq ++ [n] ∧ u.order = s.serving.arrivals ∧ t.serving.arrivals = s.serving.arrivals + 1) ∧
          ((tenant s (queue s q.val).owner).state = .freezing → t.serving.admq = s.serving.admq ∧
            (tenant t (queue s q.val).owner).heldTurns = (tenant s (queue s q.val).owner).heldTurns ++ [n])) ∧
      (setting s idAdmqDepth ≤ s.serving.admq.length →
        ∃ t d, exec (.turn q i) s = .next t ∧ cmdStage t q.val i = some (.ended { status := stOverloaded, detail := d }) ∧
          t.serving.cnt.turnsOverloaded = s.serving.cnt.turnsOverloaded + 1 ∧ t.sess = s.sess ∧ t.mem = s1.mem)) ∧
    ((session s n).net.kind = 0 → (∃ tok ∈ prompt, (session s n).net.vocab ≤ tok) →
      exec (.turn q i) s = .next (endCmd s1 q.val i { status := stBadRequest, detail := 16 }))) ∧
  (∀ (s : State) (q : QueueNo) (i n : Nat) (c : Cmd), s.live → startedCmd s q.val i 0x30 = some c → n = field c.bytes 8 4 →
    (∀ e, turnRange c = some e → exec (.turn q i) s = .next (endCmd s q.val i e)) ∧
    (turnRange c = none → s.serving.mode ≠ 1 →
      exec (.turn q i) s = .next (endCmd s q.val i { status := stWrongState, detail := s.serving.mode })) ∧
    (turnRange c = none → s.serving.mode = 1 →
      (ownSession s (queue s q.val).owner n = false → exec (.turn q i) s = .next (endCmd s q.val i { status := stNotFound })) ∧
      (ownSession s (queue s q.val).owner n = true →
        ((session s n).state = .shadow →
          exec (.turn q i) s = .next (endCmd s q.val i { status := stWrongState, detail := sessCode .shadow })) ∧
        ((session s n).state ≠ .shadow → (session s n).turn ≠ none →
          exec (.turn q i) s = .next (endCmd s q.val i { status := stBusy })) ∧
        ((session s n).state ≠ .shadow → (session s n).turn = none → (session s n).maxTokens ≤ (session s n).c + field c.bytes 12 4 →
          exec (.turn q i) s = .next (endCmd s q.val i { status := stBadRequest, detail := 12 })) ∧
        (∀ s1 e, (session s n).state ≠ .shadow → (session s n).turn = none →
          (session s n).c + field c.bytes 12 4 < (session s n).maxTokens →
          readBuf s (queue s q.val) c 16 (field c.bytes 16 8) (4 * field c.bytes 12 4) = (s1, .error e) →
          exec (.turn q i) s = .next (endCmd s1 q.val i e)))))

/-- O25. With no session and nothing due, a step boundary ends the step in flight, counting it and its time, forms none, puts the IMMEDIATE
tunables that wait for it in force, and flips an epoch that every die has staged. With one admitted session whose network keeps no history,
the next step is stamped with the issuing epoch and holds one chunk: the prompt's first tokens, up to PREFILL_CHUNK, under a reservation
with the next GEN. Outside serving mode, before READY, while PCF restarts, in DEEP_IDLE and after an uncontained package error it changes
nothing. (03 Control firmware command reference, 04 Serving mode: one bundle, many sessions) -/
def Obligations.StepBoundaryFormsTheNextStep : Prop :=
  (∀ s : State, s.live → s.serving.mode ≠ 1 ∨ s.start.phase ≠ .ready ∨ pcfUp s = false ∨ s.power.deep = true ∨ s.err.fatal = true →
    exec .stepBoundary s = .next s) ∧
  (∀ s : State, s.live → s.serving.mode = 1 → s.start.phase = .ready → pcfUp s = true → s.power.deep = false → s.err.fatal = false →
    s.sess.table = [] → s.serving.retire = [] → s.serving.swap = none → s.twin.state ≠ 7 →
    ∃ t, exec .stepBoundary s = .next t ∧ t.serving.step = none ∧ t.settings.due = [] ∧
      t.serving.cnt.steps = s.serving.cnt.steps + b2n s.serving.step.isSome ∧
      (∀ st, s.serving.step = some st → t.serving.stepUsLast = (s.hubTime - st.start) / 25) ∧
      (allStaged s.settings.epoch = true → t.settings.epoch.phase = 2 ∧ t.settings.epoch.issuing = s.settings.epoch.target) ∧
      (allStaged s.settings.epoch = false → t.settings = { s.settings with run := t.settings.run, due := [] } ∧
        (s.settings.due = [] → t.settings = s.settings) ∧ (∀ p, s.settings.due = [p] → setting t p.1 = p.2)) ∧
      t.sess = s.sess ∧ t.mem = s.mem) ∧
  (∀ (s : State) (n : Nat) (x : Session) (u : Turn), s.live → s.serving.mode = 1 → s.start.phase = .ready → pcfUp s = true →
    s.power.deep = false → s.err.fatal = false → s.serving.step = none → s.serving.retire = [] → s.serving.swap = none → s.twin.state ≠ 7 →
    s.settings.epoch.phase = 0 → s.settings.due = [] → s.sess.table = [(n, x)] → s.serving.prefill = [] → s.serving.admq = [n] → x.home < 8 →
    dieInService s x.home = true → x.state = .active → x.resv = .none → x.net.kvHeads = 0 → mayStep s x = true → x.turn = some u →
    u.nextTok = none → u.admitted = false → u.pos = 0 → u.prompt ≠ [] → 0 < setting s idPrefillChunk →
    setting s idPrefillChunk ≤ setting s idStepTokens →
    ∃ t e, exec .stepBoundary s = .next t ∧ t.serving.step = some { epoch := s.settings.epoch.issuing, start := s.hubTime, entries := [e] } ∧
      e.session = n ∧ e.decode = false ∧ e.gen = x.gen + 1 ∧ e.tokens = u.prompt.take (setting s idPrefillChunk) ∧
      t.serving.admq = [] ∧ t.serving.prefill = [n] ∧ (session t n).resv = .opened ∧ (session t n).f = x.c + e.tokens.length)

/-- O26. A SETTING_SET of one IMMEDIATE setting that passes every check, without PERSIST, answers OK and puts its value in force, leaving
every other setting and the flash; in serving mode a serving tunable waits for the next step boundary instead. Of one ROLLING setting in
serving mode it answers TRANSITION and stages the value under the next epoch, keeping the value in force. One whose first entry has a fault
is BAD_REQUEST with the offset, and one that may not be written is DENIED. The end of a background erase leaves that block of the flash
erased and no other byte changed. While a change stages, EPOCH_DIE_STAGED lets the lowest die taking part that has not staged do so; outside
serving mode the last of them flips the epoch: the target issues, its values are in force, and the hub and every die taking part still hold
the old ones. EPOCH_RETIRE lets a die, or the hub, with no live work of the old epoch drop them, and the last one ends the change; with live
work nothing changes. No setting's stored value changes. (03 Control firmware command reference, 04 Serving mode: one bundle, many sessions,
19 Start-up and the settings image) -/
def Obligations.SettingsAndEpochs : Prop :=
  ((∀ (s : State) (who : Issuer) (r : Req) (id v : Nat) (f1 f2 f3 : Bool), Serves s who 0x0402 r → setEntries r.payload = [(id, v)] →
    (∀ o, entryFault s r 0 = some o → exec (.settingSet who f1 f2 f3) s =
      .next (answer s r { status := stBadRequest, detail := o, payload := setPayload s 0 0 })) ∧
    (∀ d, entryFault s r 0 = none → setBusy s [(id, v)] (field r.payload 2 1 = 1) = none → entryDenied s id = some d →
      exec (.settingSet who f1 f2 f3) s = .next (answer s r { status := stDenied, detail := d, payload := setPayload s 0 0 })) ∧
    (entryFault s r 0 = none → entryDenied s id = none → setBusy s [(id, v)] false = none → field r.payload 2 1 = 0 →
      (isImmediate id = true → ∃ t, exec (.settingSet who f1 f2 f3) s = .next (okWith t r (setPayload t 0 0xFFFF)) ∧
        (∀ k, k ≠ id → setting t k = setting s k) ∧ t.flash = s.flash ∧ t.settings.epoch = s.settings.epoch ∧ t.mem = s.mem ∧
        (s.serving.mode = 1 → boundaryTunable id = true → setting t id = setting s id ∧ t.settings.due = tput s.settings.due id v) ∧
        (s.serving.mode ≠ 1 ∨ boundaryTunable id = false → setting t id = v ∧ t.settings.due = s.settings.due)) ∧
      (isRolling id = true → s.serving.mode = 1 →
        ∃ t a, exec (.settingSet who f1 f2 f3) s = .next (answer t r a) ∧ a.status = stTransition ∧ t.settings.epoch.phase = 1 ∧
          t.settings.epoch.target = nextEpoch s.settings.epoch.issuing ∧ t.settings.epoch.issuing = s.settings.epoch.issuing ∧
          t.settings.epoch.staging = [(id, v)] ∧ (∀ k, setting t k = setting s k) ∧ t.flash = s.flash))) ∧
  (∀ (s : State) (a : Nat), s.live → s.flash.erasing = some a →
    ∃ t, exec .userLayerEraseComplete s = .next t ∧ t.flash.erasing = none ∧
      (∀ b, flashByte t b = if b / 65536 = a / 65536 then 0xFF else flashByte s b) ∧ t.settings = s.settings)) ∧
  ((∀ (s : State) (d : DieNo), s.live → s.start.pcfRunning = true → s.settings.epoch.phase = 1 →
    s.settings.epoch.part.getLsbD d.val = true → s.settings.epoch.staged.getLsbD d.val = false →
    (∀ e : DieNo, e.val < d.val → s.settings.epoch.part.getLsbD e.val = true → s.settings.epoch.staged.getLsbD e.val = true) →
    (s.serving.mode = 1 → exec .epochDieStaged s = .next { s with settings := { s.settings with
      epoch := { s.settings.epoch with staged := s.settings.epoch.staged ||| BitVec.ofNat 8 (2 ^ d.val) } } }) ∧
    (s.serving.mode ≠ 1 → (∀ e : DieNo, e ≠ d → s.settings.epoch.part.getLsbD e.val = true → s.settings.epoch.staged.getLsbD e.val = true) →
      ∃ t, exec .epochDieStaged s = .next t ∧ t.settings.epoch.phase = 2 ∧ t.settings.epoch.issuing = s.settings.epoch.target ∧
        t.settings.epoch.retiring.getLsbD 8 = true ∧
        (∀ e : DieNo, t.settings.epoch.retiring.getLsbD e.val = s.settings.epoch.part.getLsbD e.val) ∧
        (∀ p, s.settings.epoch.staging = [p] → setting t p.1 = p.2 ∧ ∀ k, k ≠ p.1 → setting t k = setting s k) ∧ t.flash = s.flash)) ∧
  (∀ (s : State) (d : HolderNo), s.live → s.settings.epoch.phase = 2 → s.settings.epoch.retiring.getLsbD d.val = true →
    (liveOn s (priorEpoch s.settings.epoch.issuing) d.val = true → exec (.epochRetire d) s = .next s) ∧
    (liveOn s (priorEpoch s.settings.epoch.issuing) d.val = false →
      ∃ t, exec (.epochRetire d) s = .next t ∧ t.settings.epoch.issuing = s.settings.epoch.issuing ∧
        (t.settings.epoch.phase = 0 ↔ s.settings.epoch.retiring = BitVec.ofNat 9 (2 ^ d.val)) ∧
        (t.settings.epoch.phase ≠ 0 → t.settings.epoch.retiring = s.settings.epoch.retiring &&& ~~~BitVec.ofNat 9 (2 ^ d.val)) ∧
        t.settings.run = s.settings.run ∧ t.flash = s.flash)))

/-- O27. A DISCOVER, CAPS_QUERY, QUEUE_QUERY, BUNDLE_QUERY, SESSION_QUERY, SETTING_GET, EPOCH_QUERY, TENANT_QUERY, LINK_QUERY, TWIN_QUERY,
ERR_READ or POWER_QUERY that is served, and whose object exists, is answered OK (EPOCH_QUERY with TRANSITION outside PHASE 0) with its
layout, whose first fields read as the rules say, and changes nothing else. A closed slot reads as zeros (log entry 34); a slot that the
issuer cannot have, a session by number or by USER_TAG or a VF that does not exist is answered NOT_FOUND, a setting that no chapter defines
BAD_REQUEST, and BUNDLE_QUERY outside serving mode WRONG_STATE. The package's power is a measurement, and so a free value (log entry 1). (03
Control firmware command reference) -/
def Obligations.QueriesReportState : Prop :=
  (∀ (s : State) (who : Issuer) (r : Req),
    (Serves s who 0x0001 r → exec (.discover who) s = .next (okWith s r (discoverBytes s (r.inst ≠ 0))) ∧
      field (discoverBytes s (r.inst ≠ 0)) 28 2 = 0x0304) ∧
    (Serves s who 0x0002 r → ∃ bs, exec (.capsQuery who) s = .next (okWith s r bs) ∧ field bs 0 2 = 0x0304 ∧
      field bs 4 1 = s.serving.mode % 256 ∧ (bs.drop 8).take 32 = opcodeMap ∧ field bs 52 4 = s.settings.epoch.issuing.toNat) ∧
    (∀ q, Serves s who 0x0103 r → slotQueue s r.inst (field r.payload 0 2) = some q →
      ∃ bs, exec (.queueQuery who) s = .next (okWith s r bs) ∧ field bs 0 1 = qCode (queue s q).state ∧
        field bs 4 4 = (queue s q).head % 2 ^ 32 ∧ field bs 8 4 = (queue s q).errors % 2 ^ 32 ∧ field bs 12 4 = (queue s q).epoch.toNat) ∧
    (Serves s who 0x0103 r → slotQueue s r.inst (field r.payload 0 2) = none →
      exec (.queueQuery who) s =
        .next (if closedSlot s r.inst (field r.payload 0 2) then okWith s r (zeros 16) else refuse s r stNotFound 0)) ∧
    (∀ a, Serves s who 0x0203 r → s.serving.mode = 1 → s.serving.active = some a →
      ∃ bs, exec (.bundleQuery who) s = .next (okWith s r bs) ∧ field bs 0 4 = a.handle % 2 ^ 32 ∧ field bs 8 1 = bundlePhase s % 256 ∧
        field bs 9 1 = a.repl % 256) ∧
    (Serves s who 0x0203 r → s.serving.mode = 1 → s.serving.active = none →
      ∃ bs, exec (.bundleQuery who) s = .next (okWith s r bs) ∧ field bs 0 4 = 0 ∧ field bs 8 1 = bundlePhase s % 256 ∧ bs.length = 48) ∧
    (Serves s who 0x0203 r → s.serving.mode ≠ 1 → exec (.bundleQuery who) s = .next (refuse s r stWrongState s.serving.mode)) ∧
    (∀ n x, Serves s who 0x0303 r → (n = field r.payload 0 4 ∧ n ≠ 0xFFFFFFFF) ∨
        (field r.payload 0 4 = 0xFFFFFFFF ∧ taggedSession s r.inst (field r.payload 8 8) = some n) → ownedSession s r.inst n = .ok x →
      ∃ bs, exec (.sessionQuery who) s = .next (okWith s r bs) ∧ field bs 0 1 = sessCode x.state ∧ field bs 4 4 = x.c % 2 ^ 32 ∧
        field bs 16 4 = n % 2 ^ 32) ∧
    (Serves s who 0x0303 r → field r.payload 0 4 = 0xFFFFFFFF → taggedSession s r.inst (field r.payload 8 8) = none →
      exec (.sessionQuery who) s = .next (refuse s r stNotFound 0)) ∧
    (∀ d, Serves s who 0x0401 r → settingDef (field r.payload 0 2) = some d →
      ∃ bs, exec (.settingGet who) s = .next (okWith s r bs) ∧ field bs 4 4 = s.settings.epoch.issuing.toNat ∧
        field bs 8 8 = setting s d.id % 2 ^ 64) ∧
    (s.live → pcfUp s = true → curReq s (issuerNo who) = some r → r.hdr.opcode = 0x0401 → heldByFreeze s r = false → firstChecks s r = none →
      s.err.fatal = false → settingDef (field r.payload 0 2) = none → exec (.settingGet who) s = .next (refuse s r stBadRequest 0)) ∧
    (Serves s who 0x0403 r → ∃ bs st, (st = if s.settings.epoch.phase = 0 then stOk else stTransition) ∧
      (∃ d, exec (.epochQuery who) s = .next (answer s r { status := st, detail := d, payload := bs })) ∧
      field bs 0 4 = s.settings.epoch.issuing.toNat ∧ field bs 8 1 = s.settings.epoch.phase % 256)) ∧
  (∀ (s : State) (who : Issuer) (r : Req),
    (∀ v, v = (if r.inst = 0 then field r.payload 0 1 else r.inst) → Serves s who 0x0503 r →
      (fnEnabled s v = true → ∃ bs, exec (.tenantQuery who) s = .next (okWith s r bs) ∧ field bs 0 1 = tenCode (tenant s v).state ∧
        field bs 1 1 = b2n (tenant s v).log.isSome ∧ bs.length = 40) ∧
      (fnEnabled s v = false → exec (.tenantQuery who) s = .next (refuse s r stNotFound 0))) ∧
    (Serves s who 0x0602 r → ∃ bs, exec (.linkQuery who) s = .next (okWith s r bs) ∧ bs.length = 24 ∧
      field bs 3 1 = (tget {} s.linkResults (16 * field r.payload 0 1 + field r.payload 1 1)).result % 256 ∧
      ((s.linkTests.any fun p => p.1 == 16 * field r.payload 0 1 + field r.payload 1 1) = true → field bs 0 1 = 4)) ∧
    (Serves s who 0x0603 r → field r.payload 0 1 = 4 →
      ∃ bs, exec (.twinQuery who) s = .next (okWith s r bs) ∧ field bs 0 1 = s.twin.state % 256 ∧ field bs 8 8 = s.twin.partner % 2 ^ 64) ∧
    (Serves s who 0x0702 r → ∃ bs, exec (.errRead who) s = .next (okWith s r bs) ∧
      field bs 4 2 = (((errLog s r.inst).recs.filter fun e => decide (field r.payload 0 4 ≤ e.index)).take (field r.payload 4 2)).length % 65536) ∧
    (Serves s who 0x0802 r → ∃ bs, exec (.powerQuery who) s = .next (okWith { s with free := s.free + 1 } r bs) ∧ field bs 0 1 = pkgState s ∧
      field bs 10 2 = min s.power.trips 0xFFFF))

/-- O28. A served EVENT_RING_SET with ENTRIES not 0 gives the issuer's instance that ring, its sequence starting at 1; with ENTRIES 0 it has
none. A served BLOCK_ACCESS opens the hub's window in memory mode, a C-die's in memory mode or when it is quarantined, and answers
WRONG_STATE otherwise; it closes any window. Nothing else changes. A QUEUE_OPEN whose ring and completion area are pinned, on an engine that
the mode and the die offer, with quota and a free context, opens the queue as asked with HEAD, TAIL and DONE 0 and answers its slot
(QSB.EPOCH until the first fetch is the issuing epoch, log entry 51); a ring or area that is not mapped is BAD_REQUEST, an engine that is
not offered WRONG_STATE, and no quota or context QUOTA. QUEUE_CLOSE of a queue with nothing left frees the context at once; of one with
commands left it is ACCEPTED, and the queue closes; a second close is WRONG_STATE, and a slot that is not open NOT_FOUND. When a closing
queue has drained, its context is free. (03 Control firmware command reference, 06 Engines, queues and command lists) -/
def Obligations.RingsWindowsAndQueues : Prop :=
  (∀ (s : State) (who : Issuer) (r : Req),
    (Serves s who 0x0003 r → field r.payload 8 4 ≠ 0 →
      exec (.eventRingSet who) s =
        .next (okWith { s with rings := tput s.rings r.inst { addr := field r.payload 0 8, entries := field r.payload 8 4, next := 1 } } r [])) ∧
    (Serves s who 0x0003 r → field r.payload 8 4 = 0 → ∃ t, exec (.eventRingSet who) s = .next (okWith t r []) ∧
      (∀ e ∈ t.rings, e.1 ≠ r.inst) ∧ t.mbxs = s.mbxs ∧ t.hostMem = s.hostMem) ∧
    (Serves s who 0x0701 r → field r.payload 0 1 = 1 → field r.payload 1 1 ≤ 8 →
      (s.serving.mode = 0 ∨ (field r.payload 1 1 ≠ 0 ∧ dieCond s (field r.payload 1 1 - 1) = .quarantined) →
        exec (.blockAccessOpen who) s =
          .next (okWith { s with windows := s.windows ||| BitVec.ofNat 9 (2 ^ field r.payload 1 1) } r [])) ∧
      (s.serving.mode ≠ 0 → field r.payload 1 1 = 0 →
        exec (.blockAccessOpen who) s = .next (refuse s r stWrongState s.serving.mode)) ∧
      (s.serving.mode ≠ 0 → field r.payload 1 1 ≠ 0 → dieCond s (field r.payload 1 1 - 1) ≠ .quarantined →
        exec (.blockAccessOpen who) s = .next (refuse s r stWrongState (dieCode (dieCond s (field r.payload 1 1 - 1)))))) ∧
    (Serves s who 0x0701 r → field r.payload 0 1 = 0 →
      exec (.blockAccessClose who) s =
        .next (okWith { s with windows := s.windows &&& ~~~BitVec.ofNat 9 (2 ^ field r.payload 1 1) } r []))) ∧
  ((∀ (s s0 : State) (who : Issuer) (r : Req) (n : QueueNo) (d : DieNo) (u : Fin 2) (e die : Nat), Serves s who 0x0101 r →
    s.power.deep = false → tagless s r.inst = false → e = field r.payload 0 1 →
    die = (if field r.payload 1 1 < 8 then field r.payload 1 1 else d.val) →
    s0 = noteRange (noteRange s 0 (field r.payload 24 2) (field r.payload 8 8) (64 * field r.payload 4 4)) 0 (field r.payload 24 2)
      (field r.payload 16 8) (64 + 32 * field r.payload 4 4) →
    (∀ off, pinQueue s0 r.payload = .error off → exec (.queueOpen who n d u) s = .next (refuse s0 r stBadRequest off)) ∧
    (∀ ring compl, pinQueue s0 r.payload = .ok (ring, compl) →
      (∀ st, openRefusal s0 e die = some st → exec (.queueOpen who n d u) s = .next (refuse s0 r stWrongState st)) ∧
      (openRefusal s0 e die = none →
        (queueQuota s0 r.inst ≤ (openQueues s0 r.inst).length ∨ engineContexts e ≤ engineQueues s0 e (engineInst e die u.val) →
          exec (.queueOpen who n d u) s = .next (refuse s0 r stQuota 0)) ∧
        (∀ sl, (openQueues s0 r.inst).length < queueQuota s0 r.inst → engineQueues s0 e (engineInst e die u.val) < engineContexts e →
          (s0.eng.queues.filter fun q => q.2.state != .closed).length < 1024 →
          (if r.inst = 0 then some n.val else freeSlot s0 r.inst) = some sl → (queue s0 n.val).state = .closed →
          ∃ t, exec (.queueOpen who n d u) s =
              .next (okWith t r (leBytes 2 sl ++ leBytes 2 n.val ++ leBytes 1 (engineInst e die u.val) ++ zeros 3)) ∧
            (queue t n.val).state = .opened ∧ (queue t n.val).owner = r.inst ∧ (queue t n.val).slot = sl ∧ (queue t n.val).engine = e ∧
            (queue t n.val).inst = engineInst e die u.val ∧ (queue t n.val).entries = field r.payload 4 4 ∧ (queue t n.val).head = 0 ∧
            (queue t n.val).tail = 0 ∧ (queue t n.val).done = 0 ∧ (queue t n.val).ring = ring ∧ (queue t n.val).compl = compl ∧
            (queue t n.val).priority = field r.payload 26 1 ∧ (queue t n.val).epoch = s0.settings.epoch.issuing)))) ∧
  (∀ (s : State) (who : Issuer) (r : Req) (n : QueueNo) (d : DieNo) (u : Fin 2), Serves s who 0x0101 r → s.power.deep = false →
    tagless s r.inst = true → exec (.queueOpen who n d u) s = .next (refuse s r stQuota 0)) ∧
  (∀ (s : State) (who : Issuer) (r : Req) (q : Nat) (x1 : Queue), Serves s who 0x0102 r → s.power.deep = false →
    slotQueue s r.inst (field r.payload 0 2) = some q →
    x1 = startClose (queue s q) (field r.payload 2 1 = 1 || (queue s q).state = .stopped) →
    ((queue s q).closeOp = none → queueDrained x1 = true →
      ∃ t, exec (.queueClose who) s = .next (okWith t r (leBytes 4 (queue s q).head)) ∧ (queue t q).state = .closed) ∧
    ((queue s q).closeOp = none → queueDrained x1 = false →
      ∃ t, exec (.queueClose who) s = .next (acceptedWith t r (leBytes 4 (queue s q).head)) ∧ (queue t q).state = .closing ∧
        (queue t q).closeOp = some r.op ∧ (queue t q).cmds = x1.cmds) ∧
    ((queue s q).closeOp ≠ none → exec (.queueClose who) s = .next (refuse s r stWrongState 2))) ∧
  (∀ (s : State) (who : Issuer) (r : Req), Serves s who 0x0102 r → s.power.deep = false → slotQueue s r.inst (field r.payload 0 2) = none →
    exec (.queueClose who) s = .next (refuse s r stNotFound 0)) ∧
  (∀ (s : State) (q : QueueNo) (op : OpId), s.live → (queue s q.val).closeOp = some op → queueDrained (queue s q.val) = true →
    ∃ t, exec (.queueCloseDrainComplete q) s = .next t ∧ (queue t q.val).state = .closed ∧ (queue t q.val).closeOp = none))

/-- O29. A full doorbell write of an open queue's slot whose value advances TAIL by no more than the free entries sets TAIL to it and
changes no other queue; a value further on leaves TAIL and sets DB_RANGE, and TAIL's own value changes nothing in the queue. A doorbell of a
slot with no open queue is a stray in every phase: it sets HUB_ERR.DB_STRAY's bit for the PF and enters a VF's own log. Behind a BAR2 access
that waits, a doorbell waits too. A queue that may fetch takes the 64 bytes at HEAD: HEAD goes up by one and a well-formed command whose
addresses translate waits at the end with the issuing epoch; a malformed one, or one whose addresses do not translate, stops the queue. The
start of the command that arbitration names sets STARTED one past it, and where no other queue of the instance is ready no other queue
changes. (02 Host attachment, register windows and mailboxes, 06 Engines, queues and command lists) -/
def Obligations.DoorbellsAndFetch : Prop :=
  ((∀ (s : State) (fn : FnNo) (slot q : Nat) (v : Word), s.live → s.power.held = [] → memSpaceOn s fn.val = true →
    slot < (if fn.val = 0 then 1024 else 64) → (tenant s fn.val).resetting = none → doorbellQueue s fn.val slot = some q →
    (v.toNat = (queue s q).tail → ∃ t, exec (.qdbTailWrite fn slot v 0xF) s = .next t ∧ t.eng = s.eng ∧ t.mem = s.mem ∧ t.regs = s.regs) ∧
    (v.toNat ≠ (queue s q).tail → (v.toNat + 2 ^ 32 - (queue s q).tail) % 2 ^ 32 ≤
        (queue s q).entries - ((queue s q).tail + 2 ^ 32 - (queue s q).head) % 2 ^ 32 →
      ∃ t, exec (.qdbTailWrite fn slot v 0xF) s = .next t ∧ queue t q = { queue s q with tail := v.toNat } ∧
        (∀ p, p ≠ q → queue t p = queue s p) ∧ t.mem = s.mem ∧ t.regs = s.regs) ∧
    (v.toNat ≠ (queue s q).tail → (queue s q).entries - ((queue s q).tail + 2 ^ 32 - (queue s q).head) % 2 ^ 32 <
        (v.toNat + 2 ^ 32 - (queue s q).tail) % 2 ^ 32 →
      ∃ t, exec (.qdbTailWrite fn slot v 0xF) s = .next t ∧ (queue t q).tail = (queue s q).tail ∧
        (queue t q).dbRange = true ∧ (queue t q).head = (queue s q).head)) ∧
  (∀ (s : State) (fn : FnNo) (slot : Nat) (v : Word) (be : BitVec 4), s.live → s.power.held = [] → memSpaceOn s fn.val = true →
    slot < (if fn.val = 0 then 1024 else 64) →
    (be ≠ 0xF → exec (.qdbTailWrite fn slot v be) s = .next (bar0Size s fn.val (doorbellAddr fn.val slot))) ∧
    (be = 0xF → (tenant s fn.val).resetting = none → doorbellQueue s fn.val slot = none →
      (fn.val ≠ 0 → exec (.qdbTailWrite fn slot v be) s =
        .next (logErr s fn.val { code := 0x1032, cls := 6, source := 6, inst := fn.val, arg := slot })) ∧
      (fn.val = 0 → ∃ t, exec (.qdbTailWrite fn slot v be) s = .next t ∧ (reg t hubErr).getLsbD 2 = true ∧ t.eng = s.eng ∧
        t.mem = s.mem))) ∧
  (∀ (s : State) (fn : FnNo) (slot : Nat) (v : Word) (be : BitVec 4), s.live → s.power.held ≠ [] →
    exec (.qdbTailWrite fn slot v be) s =
      .next { s with power := { s.power with held := s.power.held ++ [.tail fn.val slot v be] } })) ∧
  ((∀ (s s0 s1 : State) (q : QueueNo) (l : Loc) (bs : List Byte), s.live → canFetch (queue s q.val) = true →
    engineUp s (queue s q.val) = true → pinnedLoc (queue s q.val).ring ((queue s q.val).head % (queue s q.val).entries * 64) = some l →
    bs = locRead s l 64 → s0 = locTouch s l 64 → s1 = noteFields s0 (queue s q.val) bs (allFields bs) →
    (∀ xl, malformed (queue s q.val).engine bs = none → translateFields s1 (queue s q.val) bs (allFields bs) = .ok xl →
      ∃ t c, exec (.commandFetch q) s = .next (if ((queue s q.val).head + 1) % 2 ^ 32 = (queue s q.val).tail then writeQsb t q.val else t) ∧
        (queue t q.val).cmds = (queue s1 q.val).cmds ++ [c] ∧ c.index = (queue s q.val).head ∧ c.bytes = bs ∧ c.xl = xl ∧
        c.stage = .fetched ∧ c.epoch = s.settings.epoch.issuing ∧ (queue t q.val).head = ((queue s q.val).head + 1) % 2 ^ 32 ∧
        (∀ p, p ≠ q.val → queue t p = queue s1 p) ∧ t.mem = s1.mem) ∧
    (∀ off, malformed (queue s q.val).engine bs = some off →
      ∃ t, exec (.commandFetch q) s = .next t ∧ (queue t q.val).state = .stopped ∧ (queue t q.val).stopIndex = (queue s q.val).head) ∧
    (∀ e, malformed (queue s q.val).engine bs = none → translateFields s1 (queue s q.val) bs (allFields bs) = .error e →
      ∃ t, exec (.commandFetch q) s = .next t ∧ (queue t q.val).state = .stopped ∧ (queue t q.val).stopIndex = (queue s q.val).head)) ∧
  (∀ (s : State) (q : QueueNo) (c : Cmd), s.live → readyCmd (queue s q.val) = some c →
    arbitrate s (queue s q.val).engine (queue s q.val).inst = some q.val → copyFull s (queue s q.val).engine (queue s q.val).inst = false →
    genNow s (queue s q.val) c.bytes = (c.gen, c.namedGen) →
    ∃ t, exec (.commandStart q c.index) s = .next t ∧ cmdStage t q.val c.index = some .started ∧
      (queue t q.val).started = (c.index + 1) % 2 ^ 32 ∧ (queue t q.val).head = (queue s q.val).head ∧
      (queue t q.val).tail = (queue s q.val).tail ∧ (queue t q.val).passed = 0 ∧ t.mem = s.mem ∧ t.xlat = s.xlat ∧
      (readyQueues s (queue s q.val).engine (queue s q.val).inst = [(q.val, queue s q.val)] →
        ∀ p, p ≠ q.val → queue t p = queue s p)))

/-- O30. A command that has ended without an error, without counter, record, interrupt or HALT_ON_FAIL leaves its queue, DONE moves to the
oldest that remains, and nothing else changes. One that ended with an error record stops its queue at its index, with one more error, and no
command of the queue that had not started remains; a queue that has stopped keeps its STOP_INDEX. A started NOP ends OK, and a FENCE when it
is the oldest of its queue that has not completed; neither changes anything else. SIGNAL replaces the 8 bytes by its operation's result and
ends with the value before. A WAIT whose condition holds ends OK with DETAIL 0 and the value; one whose condition does not hold runs on, and
so at each poll of host memory; its time-out, where one is set, ends it with DETAIL 1 and the value last read. (06 Engines, queues and
command lists) -/
def Obligations.CommandsEnd : Prop :=
  ((∀ (s : State) (q : QueueNo) (i : Nat) (c : Cmd) (r : CmdRes), s.live → findCmd (queue s q.val) i = some c → c.stage = .ended r →
    r.error = false → cmdFlags c = 0 →
    ∃ t, exec (.commandComplete q i) s = .next t ∧ (queue t q.val).cmds = (queue s q.val).cmds.filter (fun d => d.index != i) ∧
      (queue t q.val).done = doneOf { queue s q.val with cmds := (queue s q.val).cmds.filter (fun d => d.index != i) } ∧
      (queue t q.val).state = (queue s q.val).state ∧ (∀ p, p ≠ q.val → queue t p = queue s p) ∧ t.mem = s.mem ∧ t.hostMem = s.hostMem ∧
      t.regs = s.regs) ∧
  (∀ (s : State) (q : QueueNo) (i : Nat) (c : Cmd) (r : CmdRes), s.live → findCmd (queue s q.val) i = some c → c.stage = .ended r →
    r.error = true → r.status ≠ stPoisoned → s.memWaits = [] → s.uc.waitq = [] → s.uc.msgs = [] → s.uc.txns = [] →
    ∃ t, exec (.commandComplete q i) s = .next t ∧ (queue t q.val).state = .stopped ∧
      (queue t q.val).errors = (queue s q.val).errors + 1 ∧
      ((queue s q.val).state ≠ .stopped → (queue t q.val).stopIndex = i ∧
        ∀ d ∈ (queue t q.val).cmds, d ∈ (queue s q.val).cmds ∧ d.index ≠ i ∧ d.stage ≠ .fetched) ∧
      ((queue s q.val).state = .stopped → (queue t q.val).stopIndex = (queue s q.val).stopIndex ∧
        ∀ d ∈ (queue t q.val).cmds, d ∈ (queue s q.val).cmds ∧ d.index ≠ i))) ∧
  ((∀ (s s1 : State) (q : QueueNo) (i : Nat) (l : List (Nat × List (Loc × Nat))) (c : Cmd),
    (Reached s q.val i 0x00 noRange l s1 c → exec (.nop q i) s = .next (endCmd s1 q.val i { status := stOk })) ∧
    (Reached s q.val i 0x01 noRange l s1 c →
      (isOldest (queue s1 q.val) i = true → exec (.fence q i) s = .next (endCmd s1 q.val i { status := stOk })) ∧
      (isOldest (queue s1 q.val) i = false → exec (.fence q i) s = .next s1)) ∧
    (∀ loc v, cmdLoc c 8 = some loc → locPoison s1 loc = none → v = leNat (locRead s1 loc 8) →
      (Reached s q.val i 0x03 noRange l s1 c →
        exec (.signal q i) s = .next (endCmd (locWrite s1 loc (leBytes 8 (
          if cmdOpflags c = 0 then field c.bytes 16 8
          else if cmdOpflags c = 1 then (v + field c.bytes 16 8) % 2 ^ 64
          else max v (field c.bytes 16 8)))) q.val i { status := stOk, result := v })) ∧
      (Reached s q.val i 0x02 waitRange l s1 c →
        (waitCond (cmdOpflags c) v (field c.bytes 16 8) = true →
          exec (.waitCmd q i) s = .next (endCmd (dropWait (locTouch s1 loc 8) (.cmd q.val i)) q.val i { status := stOk, result := v })) ∧
        (waitCond (cmdOpflags c) v (field c.bytes 16 8) = false →
          ∃ t w, exec (.waitCmd q i) s = .next t ∧ cmdStage t q.val i = some .running ∧ w ∈ t.memWaits ∧ w.who = .cmd q.val i ∧
            w.loc = loc ∧ w.cond = cmdOpflags c ∧ w.value = field c.bytes 16 8 ∧ w.seen = v ∧
            t.hostMem = s1.hostMem)))) ∧
  (∀ (s s1 : State) (q : QueueNo) (i fn a : Nat) (p : Option Nat) (l : List (Nat × List (Loc × Nat))) (c : Cmd),
    Reached s q.val i 0x03 noRange l s1 c → cmdLoc c 8 = some (.host fn a p) → (tenant s1 fn).log = none →
    ∃ t, exec (.signal q i) s = .next t ∧ leNat (mread t.hostMem a 8) =
        (if cmdOpflags c = 0 then field c.bytes 16 8
         else if cmdOpflags c = 1 then (leNat (mread s1.hostMem a 8) + field c.bytes 16 8) % 2 ^ 64
         else max (leNat (mread s1.hostMem a 8)) (field c.bytes 16 8)) ∧
      (∀ b, b < a ∨ a + 8 ≤ b → mget t.hostMem b = mget s1.hostMem b) ∧ t.mem = s1.mem ∧
      cmdStage t q.val i = some (.ended { status := stOk, result := leNat (mread s1.hostMem a 8) })) ∧
  (∀ (s : State) (q : QueueNo) (i : Nat) (c : Cmd), s.live →
    (startedCmd s q.val i 0x02 = some c → 16777215 < field c.bytes 24 4 →
      exec (.waitCmd q i) s = .next (endCmd s q.val i { status := stBadRequest, detail := 24 })) ∧
    (runningCmd s q.val i 0x02 = some c →
      (∀ w, waitOf s q.val i = some w → field c.bytes 24 4 ≠ 0 → exec (.waitTimeout q i) s =
        .next (endCmd (dropSusp (dropWait s (.cmd q.val i)) q.val i) q.val i { status := stOk, detail := 1, result := w.seen })) ∧
      (field c.bytes 24 4 = 0 → exec (.waitTimeout q i) s = .next s) ∧
      (∀ w fn a p v, waitOf s q.val i = some w → w.loc = .host fn a p → v = leNat (mread s.hostMem a 8) →
        (waitCond (cmdOpflags c) v (field c.bytes 16 8) = true →
          exec (.waitHostPoll q i) s = .next (endCmd (dropWait s (.cmd q.val i)) q.val i { status := stOk, result := v })) ∧
        (waitCond (cmdOpflags c) v (field c.bytes 16 8) = false →
          ∃ t u, exec (.waitHostPoll q i) s = .next t ∧ u ∈ t.memWaits ∧ u.who = .cmd q.val i ∧ u.seen = v ∧
            cmdStage t q.val i = some .running ∧ t.mem = s.mem ∧ t.hostMem = s.hostMem)))))

/-- O31. A started COPY whose source and destination lie in disjoint ranges of host memory leaves the destination holding the source's bytes
and every other byte of host and device memory as it was, and ends OK with the number of bytes; a FILL leaves its 8-byte pattern repeated.
Of any disjoint pieces without poison COPY writes the source's bytes, and with INVAL drops the destination's lines. A length out of range
ends with BAD_REQUEST. UC_INVAL invalidates the lines of its range and ends OK. A miss on the host window with ATS on suspends the command
with a Translation Request for its page, unless 8 commands of the instance are suspended already; any other miss ends it with PAGE_FAULT. A
Translation Completion that grants the page resumes the command and remembers the grant; one that does not is followed by a group of page
requests, where they are on and there is room. A successful PRI response asks again; another response or the PRI time-out ends the command
with PAGE_FAULT, as does a host read that fails, the field's offset in DETAIL and the address in RESULT. A thread's host read that succeeds
writes its register, and one that fails stops its launch. (06 Engines, queues and command lists, 13 Address spaces and translation) -/
def Obligations.CopyCommands : Prop :=
  ((∀ (s s1 : State) (q : QueueNo) (i : Nat) (c : Cmd) (l : List (Nat × List (Loc × Nat))) (f g a b n : Nat) (pa pb : Option Nat),
    Reached s q.val i 0x20 copyRange l s1 c → piecesOf l 8 = [(.host f a pa, n)] → piecesOf l 16 = [(.host g b pb, n)] →
    (a + n ≤ b ∨ b + n ≤ a) → (tenant s1 g).log = none →
    ∃ t, exec (.copy q i) s = .next t ∧ mread t.hostMem b n = mread s1.hostMem a n ∧
      (∀ k, k < b ∨ b + n ≤ k → mget t.hostMem k = mget s1.hostMem k) ∧ t.mem = s1.mem ∧ t.uc = s1.uc ∧
      cmdStage t q.val i = some (.ended { status := stOk, result := field c.bytes 24 8 * field c.bytes 32 4 })) ∧
  (∀ (s s0 s1 : State) (q : QueueNo) (i : Nat) (c : Cmd) (l : List (Nat × List (Loc × Nat))),
    Reached s q.val i 0x20 copyRange l s1 c → s0 = touchPieces s1 (piecesOf l 8) →
    (piecesPoison s0 (piecesOf l 8) = none → piecesMeet (piecesOf l 8) (piecesOf l 16) = false →
      ∃ s2, s2 = copyPut s0 (bit (cmdOpflags c) 1) (readPieces s0 (piecesOf l 8)) (piecesOf l 16) ∧
        exec (.copy q i) s = .next (endCmd (if bit (cmdOpflags c) 0 then copyInval s2 (piecesOf l 16) else s2) q.val i
          { status := stOk, result := field c.bytes 24 8 * field c.bytes 32 4 })) ∧
    (∀ d, piecesPoison s0 (piecesOf l 8) = some d →
      exec (.copy q i) s = .next (endCmd s0 q.val i { status := stPoisoned, result := d, error := true }))) ∧
  (∀ (s s1 : State) (q : QueueNo) (i : Nat) (c : Cmd) (l : List (Nat × List (Loc × Nat))) (g b n : Nat) (p : Option Nat),
    Reached s q.val i 0x21 copyRange l s1 c → piecesOf l 8 = [(.host g b p, n)] → n = field c.bytes 16 8 → (tenant s1 g).log = none →
    ∃ t, exec (.fill q i) s = .next t ∧ (∀ k, k < n → mget t.hostMem (b + k) = BitVec.ofNat 8 (field c.bytes 24 8 / 256 ^ (k % 8))) ∧
      (∀ k, k < b ∨ b + n ≤ k → mget t.hostMem k = mget s1.hostMem k) ∧ t.mem = s1.mem ∧ t.uc = s1.uc ∧
      cmdStage t q.val i = some (.ended { status := stOk })) ∧
  (∀ (s : State) (q : QueueNo) (i : Nat) (c : Cmd) (r : CmdRes), s.live → copyRange c = some r →
    (startedCmd s q.val i 0x20 = some c → exec (.copy q i) s = .next (endCmd s q.val i r)) ∧
    (startedCmd s q.val i 0x21 = some c → exec (.fill q i) s = .next (endCmd s q.val i r)) ∧
    (startedCmd s q.val i 0x22 = some c → exec (.ucInval q i) s = .next (endCmd s q.val i r))) ∧
  (∀ (s s1 : State) (q : QueueNo) (i : Nat) (c : Cmd) (l : List (Nat × List (Loc × Nat))), Reached s q.val i 0x22 copyRange l s1 c →
    exec (.ucInval q i) s = .next (endCmd (copyInval s1 (piecesOf l 8)) q.val i { status := stOk }) ∧
    (∀ a n, piecesOf l 8 = [(.dev a, n)] → copyInval s1 (piecesOf l 8) = invalRange s1 a n))) ∧
  ((∀ (s s0 : State) (q : QueueNo) (i va : Nat) (c : Cmd) (a : AddrField), s.live → findCmd (queue s q.val) i = some c → c.stage = .started →
    (cmdOpcode c = 0x02 → waitRange c = none) → (0x20 ≤ cmdOpcode c → cmdOpcode c ≤ 0x22 → copyRange c = none) →
    s0 = noteHeld s (queue s q.val) c → copyStop s0 (queue s0 q.val) c = .miss a va →
    (va / 2 ^ 48 = 1 → (pcieFn s0 (tagOwner s0 (queue s0 q.val).asid)).ats = true →
      (suspendedOn s0 (queue s0 q.val).inst < 8 →
        ∃ t p, exec (.copyFault q i) s = .next t ∧ t.xlat.susp = s0.xlat.susp ++ [p] ∧ p.queue = q.val ∧ p.index = i ∧ p.off = a.off ∧
          p.va = va ∧ p.w = a.w ∧ p.wait = .ats ∧ cmdStage t q.val i = some .running ∧ t.mem = s0.mem ∧ t.hostMem = s0.hostMem ∧
          t.out = s0.out ++ [.atsRequest (tagOwner s0 (queue s0 q.val).asid) (hostPasid s0 (queue s0 q.val).asid) (va % 2 ^ 48 / 4096)]) ∧
      (8 ≤ suspendedOn s0 (queue s0 q.val).inst → exec (.copyFault q i) s = .next s0)) ∧
    (va / 2 ^ 48 ≠ 1 ∨ (pcieFn s0 (tagOwner s0 (queue s0 q.val).asid)).ats = false →
      ∃ t, exec (.copyFault q i) s = .next t ∧
        cmdStage t q.val i = some (.ended { status := stPageFault, detail := a.off, result := va, error := true }))) ∧
  (∀ (s : State) (q : QueueNo) (i : Nat) (c : Cmd) (p : Suspended) (w : Bool), s.live → suspended s q.val i = some p →
    findCmd (queue s q.val) i = some c →
    (p.wait = .ats → (w = true ∨ p.w = false) → ∃ t, exec (.atsCompletion q i true w) s = .next t ∧ suspended t q.val i = none ∧
      cmdStage t q.val i = some .started ∧ (∃ g ∈ t.xlat.granted, g.fn = p.fn ∧ g.page = p.va % 2 ^ 48 / 4096 ∧ g.w = w) ∧
      t.mem = s.mem) ∧
    (p.wait = .ats → (pcieFn s p.fn).pri = true → tget 0 c.pri (p.va % 2 ^ 48 / 4096) < 4 →
      (priOpen s p.fn + (groupPages s p c).length ≤ priCap p.fn →
        ∃ t r, exec (.atsCompletion q i false w) s = .next t ∧ suspended t q.val i = some r ∧ r.wait = .pri ∧ r.pages = groupPages s p c ∧
          t.out = s.out ++ [.pageRequest p.fn (hostPasid s p.asid) (groupPages s p c)] ∧ t.mem = s.mem) ∧
      (priCap p.fn < priOpen s p.fn + (groupPages s p c).length →
        ∃ t r, exec (.atsCompletion q i false w) s = .next t ∧ suspended t q.val i = some r ∧ r.wait = .room ∧ t.out = s.out)) ∧
    (p.wait = .ats → (pcieFn s p.fn).pri = false ∨ 4 ≤ tget 0 c.pri (p.va % 2 ^ 48 / 4096) →
      ∃ t, exec (.atsCompletion q i false w) s = .next t ∧ suspended t q.val i = none ∧
        cmdStage t q.val i = some (.ended { status := stPageFault, detail := p.off, result := p.va, error := true })) ∧
    (p.wait = .pri → ∃ t r, exec (.priResponse q i true) s = .next t ∧ suspended t q.val i = some r ∧ r.wait = .ats ∧ r.va = p.va ∧
      t.mem = s.mem) ∧
    (p.wait = .pri → ∃ t, exec (.priResponse q i false) s = .next t ∧ exec (.priTimeout q i) s = .next t ∧ suspended t q.val i = none ∧
      cmdStage t q.val i = some (.ended { status := stPageFault, detail := p.off, result := p.va, error := true }))) ∧
  (∀ (s : State) (q : QueueNo) (i off va : Nat) (c : Cmd), s.live → findCmd (queue s q.val) i = some c → va / 2 ^ 48 = 1 →
    ((c.stage = .started ∨ c.stage = .running) ∧ readsField c off = true) ∨ (off = 56 ∧ counterDue c = true) →
    (∃ t, exec (.hostReadCompletion (.cmd q i off va) false) s = .next t ∧ suspended t q.val i = none ∧
      cmdStage t q.val i = some (.ended { status := stPageFault, detail := off, result := va, error := true })) ∧
    exec (.hostReadCompletion (.cmd q i off va) true) s = .next s) ∧
  (∀ (s : State) (k : CoreNo) (n fn addr : Nat) (p : Option Nat) (a : MemAcc), s.live →
    (coreAt s k.val).accs.find? (fun x => x.seq == n) = some a → a.host = some (.host fn addr p) →
    (∀ dst acq, a.op = .load dst acq → a.size = 4 →
      exec (.hostReadCompletion (.thread k n) true) s =
        .next (wrMany (dropAcc s k.val n) k.val a.slot a.lane dst (leNat (mread s.hostMem addr 4)) 1)) ∧
    (∃ t, exec (.hostReadCompletion (.thread k n) true) s = .next t ∧ (∀ x ∈ (coreAt t k.val).accs, x.seq ≠ n) ∧ t.mem = s.mem) ∧
    exec (.hostReadCompletion (.thread k n) false) s = .next (threadFault (dropAcc s k.val n) k.val a.slot a.va false)) ∧
  (∀ (s : State) (k : CoreNo) (slot : Fin 32) (u : Fin 64) (w : MemWait) (fn addr : Nat) (p : Option Nat), s.live →
    ldwaitOf s k.val slot.val u.val = some w → w.loc = .host fn addr p →
    exec (.hostReadCompletion (.wait k slot u) false) s = .next (threadFault (dropWait s w.who) k.val slot.val w.va false) ∧
    exec (.hostReadCompletion (.wait k slot u) true) s = .next s))

/-- O32. A walk that reaches a valid leaf caches it with the pointers that it met in place of older entries, reads its entries coherently,
and counts the walk; one that misses counts a bad entry. XLAT_INVAL of a permitted tag whose range, of 64 KiB pages or the whole paged
region, has no leaf in use raises the tag's generation, drops every cached translation of the range, and waits for those that hold one; it
ends OK when they have ended. A tag that the owner may not name, a length that is no multiple of 64 KiB, and a leaf in use are refused. An
ATS Invalidate Request withdraws the function's grants of the range and waits for the commands that hold one; at its end the Invalidation
Completion is sent. (13 Address spaces and translation) -/
def Obligations.InvalidationsDropTranslations : Prop :=
  (∀ (s s1 s2 : State) (d : DieNo) (asid va : Nat), s.live → va < 2 ^ 47 → asid < 4096 → s1 = readRoot s asid →
    s2 = (fullWalk s1 asid va).2.1.foldl (fun s a => touchRead s a 8) s1 →
    (∀ e, (fullWalk s1 asid va).1 = .leaf e → ∃ t, exec (.tableWalk d asid va) s = .next t ∧ e ∈ t.xlat.tlb ∧
      (∀ x ∈ s2.xlat.tlb, x.asid ≠ e.asid ∨ overlaps x.va x.size e.va e.size = false → x ∈ t.xlat.tlb) ∧
      (∀ x ∈ (fullWalk s1 asid va).2.2, x ∈ t.xlat.ptrs) ∧
      (reg t (dieReg d.val xltWalkCnt)).toNat = min ((reg s2 (dieReg d.val xltWalkCnt)).toNat + 1) (2 ^ 32 - 1) ∧ t.mem = s2.mem) ∧
    (∀ bad, (fullWalk s1 asid va).1 = .miss bad → ∃ t, exec (.tableWalk d asid va) s = .next t ∧ t.xlat.tlb = s2.xlat.tlb ∧
      (reg t (dieReg d.val xltBadPteCnt)).toNat =
        min ((reg s2 (dieReg d.val xltBadPteCnt)).toNat + b2n bad) (2 ^ 32 - 1) ∧ t.mem = s2.mem)) ∧
  (∀ (s : State) (q : QueueNo) (i asid lo n : Nat) (l : List (Nat × List (Loc × Nat))) (s1 : State) (c : Cmd),
    Reached s q.val i 0x23 (fun _ => none) l s1 c → asid = field c.bytes 8 2 →
    (lo, n) = (if field c.bytes 10 1 = 0 then (0, 2 ^ 47) else (field c.bytes 16 8, field c.bytes 24 8)) →
    (asidMayName s1 (queue s1 q.val).owner asid = false →
      exec (.xlatInval q i) s = .next (endCmd s1 q.val i { status := stBadRequest, detail := 8 })) ∧
    (asidMayName s1 (queue s1 q.val).owner asid = true →
      (n % 65536 ≠ 0 → exec (.xlatInval q i) s = .next (endCmd s1 q.val i { status := stBadRequest, detail := 24 })) ∧
      (n % 65536 = 0 → leafInUse s1 asid lo n = true → exec (.xlatInval q i) s = .next (endCmd s1 q.val i { status := stBusy })) ∧
      (n % 65536 = 0 → leafInUse s1 asid lo n = false →
        ∃ t w, exec (.xlatInval q i) s = .next t ∧ tagGen t asid = (tagGen s1 asid + 1) % 2 ^ 32 ∧
          (∀ e ∈ t.xlat.tlb, e ∈ s1.xlat.tlb) ∧
          (field c.bytes 10 1 = 0 → ∀ e ∈ t.xlat.tlb, e.asid ≠ asid) ∧
          (field c.bytes 10 1 ≠ 0 → (∀ e ∈ t.xlat.tlb, leafMeets asid lo n e = false) ∧
            (∀ e ∈ s1.xlat.tlb, leafMeets asid lo n e = false → e ∈ t.xlat.tlb)) ∧
          t.xlat.invals = s1.xlat.invals ++ [w] ∧ w.cmd = some (q.val, i) ∧ w.cmds = holders s1 asid lo n ∧
          w.accs = accessesIn s1 asid lo n ∧ cmdStage t q.val i = some .running ∧ t.mem = s1.mem))) ∧
  (∀ (s : State) (k : Nat) (w : InvalWait), s.live → s.xlat.invals[k]? = some w →
    (invalOver s w = false → exec (.xlatInvalWaitEnd k) s = .next s) ∧
    (∀ q i c, invalOver s w = true → w.cmd = some (q, i) → findCmd (queue s q) i = some c →
      ∃ t, exec (.xlatInvalWaitEnd k) s = .next t ∧ cmdStage t q i = some (.ended { status := stOk }) ∧
        t.xlat.invals = s.xlat.invals.eraseIdx k) ∧
    (invalOver s w = true → w.cmd = none → exec (.xlatInvalWaitEnd k) s = .next { s with
      xlat := { s.xlat with invals := s.xlat.invals.eraseIdx k }
      out := s.out ++ [.atsInvalDone w.fn] })) ∧
  (∀ (s : State) (fn : FnNo) (pasid : Option Nat) (addr n : Nat), s.live → fnEnabled s fn.val = true →
    (s.xlat.invals.filter fun w => w.cmd.isNone && w.fn == fn.val).length < 32 →
    ∃ t w, exec (.atsInvalidateRequest fn pasid addr n) s = .next t ∧ t.xlat.invals = s.xlat.invals ++ [w] ∧ w.cmd = none ∧ w.fn = fn.val ∧
      w.cmds = grantHolders s fn.val pasid addr n ∧
      (∀ g, g ∈ t.xlat.granted ↔ g ∈ s.xlat.granted ∧ ¬ (g.fn = fn.val ∧ g.pasid = pasid ∧ overlaps (g.page * 4096) 4096 addr n = true)) ∧
      t.mem = s.mem)

/-- O33. A request to populated space that its sender may reach joins its stack's queue, on the path that its use takes, while that path of
its pseudo-channel has room; a full path withholds credit, and a request to other space is counted. The scheduler performs the request that
it has chosen: a write stores its bytes in the sectors that it names and in no other, and heals the sectors that it covers whole; a clean
read changes no byte and gives the data with its poison marks; a sector found uncorrectable is poisoned. A request that is not the
scheduler's choice, or that a fill or self refresh holds, waits. A refresh closes the rows of its banks alone. A temperature readout, an
error-log readout, a patrol read and a retirement change no byte of device memory; a patrol read that is uncorrectable poisons its sector
and marks its page; a marked page goes on the retirement list while the list has room, and a full list sets HBM_ERR.RETIRE_FULL. The end of
a stack's zero-fill leaves every byte of the stack zero and without poison. (12 Stacked memory and the Skink path) -/
def Obligations.StackControllers : Prop :=
  ((∀ (s : State) (d : DieNo) (r : StackAsk), s.live → r.addr / 2 ^ 48 = 0 → r.addr / 2 ^ 36 % 8 = d.val →
    (populated s r.addr = true → (inReserve r.addr = false ∨ ofFirmware r.use = true) →
      (queuedOn (stackCtl s d.val) (onSkink r.use) (reqPc (askReq s r)) < (if onSkink r.use then 64 else 48) →
        ∃ t q, exec (.stackRequestAccept d r) s = .next t ∧ (stackCtl t d.val).q = (stackCtl s d.val).q ++ [q] ∧ q = askReq s r ∧
          q.skink = onSkink r.use ∧ q.line = r.addr / 128 ∧ t.mem = s.mem ∧ (∀ e, e ≠ d.val → stackCtl t e = stackCtl s e)) ∧
      ((if onSkink r.use then 64 else 48) ≤ queuedOn (stackCtl s d.val) (onSkink r.use) (reqPc (askReq s r)) →
        exec (.stackRequestAccept d r) s = .next s)) ∧
    ((populated s r.addr = false ∨ (inReserve r.addr = true ∧ ofFirmware r.use = false)) →
      exec (.stackRequestAccept d r) s = .next (noteUnpop s r.addr))) ∧
  (∀ (s : State) (d : DieNo) (k : Nat) (r : StackReq) (n : Fin 4), s.live → (stackCtl s d.val).q[k]? = some r →
    ((stackCtl s d.val).fill = true ∨ (stackCtl s d.val).selfRefresh = true ∨ heldBack s (stackCtl s d.val) k r = true →
      ∀ e, exec (.stackRequestServe d k ⟨e, n⟩) s = .next s) ∧
    ((stackCtl s d.val).fill = false → (stackCtl s d.val).selfRefresh = false →
      nextReq s (stackCtl s d.val) (reqPc r) = some k →
      (∀ off bs, r.write = some (off, bs) → off + bs.length ≤ 128 →
        ∃ t, exec (.stackRequestServe d k ⟨.clean, n⟩) s = .next t ∧
          (∀ a, mget t.mem a = if a / 128 = r.line ∧ bit r.mask (a % 128 / 32) = true ∧ off ≤ a % 128 ∧ a % 128 < off + bs.length
            then bs.getD (a % 128 - off) 0 else mget s.mem a) ∧
          (∀ j, j < 4 → bit r.mask j = true → off ≤ 32 * j → 32 * j + 32 ≤ off + bs.length → 4 * r.line + j ∉ t.stackPoison) ∧
          (stackCtl t d.val).q = (stackCtl s d.val).q.eraseIdx k) ∧
      (r.write = none →
        ∃ t, exec (.stackRequestServe d k ⟨.clean, n⟩) s = .next t ∧ t.mem = s.mem ∧ t.stackPoison = s.stackPoison ∧
          (∃ bs, t.out = s.out ++ [.stackData (r.line * 128) bs (codeMarks s r.line &&& r.mask)] ∧
            (r.mask = 15 → bs = mread s.mem (r.line * 128) 128)) ∧
          (stackCtl t d.val).q = (stackCtl s d.val).q.eraseIdx k) ∧
      (bit r.mask n.val = true → r.write = none →
        ∃ t, exec (.stackRequestServe d k ⟨.uncorrectable, n⟩) s = .next t ∧ 4 * r.line + n.val ∈ t.stackPoison ∧ t.mem = s.mem)))) ∧
  ((∀ (s : State) (d : DieNo), s.live →
    ((tget {} s.stackIds d.val).cond = .inService → (stackCtl s d.val).selfRefresh = false →
      ∃ t, exec (.refresh d) s = .next t ∧ (stackCtl t d.val).refreshes = (stackCtl s d.val).refreshes + 1 ∧
        (stackCtl t d.val).refSince = some s.hubTime ∧ (stackCtl t d.val).q = (stackCtl s d.val).q ∧ t.mem = s.mem ∧ t.regs = s.regs ∧
        ((stackCtl s d.val).refMode = 1 → (stackCtl t d.val).openRows = []) ∧
        ((stackCtl s d.val).refMode ≠ 1 → (stackCtl t d.val).refBank = ((stackCtl s d.val).refBank + 1) % 48 ∧
          ∀ k v, tget v (stackCtl t d.val).openRows k =
            if k / 64 < 64 ∧ k % 64 = (stackCtl t d.val).refBank / 3 * 4 + (stackCtl t d.val).refBank % 3 then v
            else tget v (stackCtl s d.val).openRows k)) ∧
    ((tget {} s.stackIds d.val).cond ≠ .inService ∨ (stackCtl s d.val).selfRefresh = true → exec (.refresh d) s = .next s) ∧
    (∀ c : BitVec 8, ∃ t, exec (.hbmTemperatureReadout d c) s = .next t ∧ (stackCtl t d.val).temp = c.toNat ∧
      (reg t (dieReg d.val hbmTemp)).toNat = c.toNat ∧ t.mem = s.mem) ∧
    (∀ n, 0 < n → ∃ t, exec (.ecsReadout d n) s = .next t ∧
      (reg t (dieReg d.val hbmCeCnt)).toNat = min ((reg s (dieReg d.val hbmCeCnt)).toNat + n) (2 ^ 32 - 1) ∧ t.mem = s.mem) ∧
    (∀ p rest, (stackCtl s d.val).marked = p :: rest →
      ((stackCtl s d.val).retired.length < 1024 →
        ∃ t, exec (.retirementListUpdate d) s = .next t ∧ (stackCtl t d.val).retired = (stackCtl s d.val).retired ++ [p] ∧
          (stackCtl t d.val).marked = rest ∧ (∀ r ∈ (pool t d.val).free, r ∈ (pool s d.val).free ∧ rowRetired t d.val r = false) ∧
          t.mem = s.mem) ∧
      (1024 ≤ (stackCtl s d.val).retired.length →
        ∃ t, exec (.retirementListUpdate d) s = .next t ∧ (stackCtl t d.val).retired = (stackCtl s d.val).retired ∧
          (stackCtl t d.val).marked = rest ∧ (reg t (dieReg d.val hbmErr)).getLsbD 4 = true ∧ t.mem = s.mem)) ∧
    ((stackCtl s d.val).fill = true →
      ∃ t, exec (.stackZeroFillComplete d) s = .next t ∧ (stackCtl t d.val).fill = false ∧
        (∀ a, d.val * 2 ^ 36 ≤ a → a < d.val * 2 ^ 36 + 0xC00000000 → mget t.mem a = 0 ∧ a / 32 ∉ t.stackPoison) ∧
        (knownLines s (d.val * 2 ^ 36) 0xC00000000 = [] →
          (∀ a, a < d.val * 2 ^ 36 ∨ d.val * 2 ^ 36 + 0xC00000000 ≤ a → mget t.mem a = mget s.mem a) ∧ t.uc = s.uc))) ∧
  (∀ (s : State) (d : DieNo) (a : Nat), s.live → a = d.val * 2 ^ 36 + (stackCtl s d.val).scrubAt →
    (setting s idHbmScrubHours = 0 → ∀ e, ∃ t, exec (.patrolScrubRead d a e) s = .next t ∧ (stackCtl t d.val).scrub = false ∧
      t.mem = s.mem) ∧
    (setting s idHbmScrubHours ≠ 0 → populated s a = true → (stackCtl s d.val).scrubAt < 0xC00000000 - 32 →
      (stackCtl s d.val).scrubAt % 32 = 0 → (stackCtl s d.val).fill = false →
      (stackCtl s d.val).selfRefresh = false → pcReqs (stackCtl s d.val) (pcOf (stackCtl s d.val).scrubAt) = [] →
      (∃ t, exec (.patrolScrubRead d a .clean) s = .next t ∧ t.mem = s.mem ∧ t.stackPoison = s.stackPoison ∧ t.err = s.err ∧
        (stackCtl t d.val).scrubAt = (stackCtl s d.val).scrubAt + 32) ∧
      (a / 32 ∉ s.stackPoison → (stackCtl s d.val).marked = [] → (stackCtl s d.val).retired = [] →
        ∃ t, exec (.patrolScrubRead d a .uncorrectable) s = .next t ∧ t.stackPoison = s.stackPoison ++ [a / 32] ∧
          (stackCtl t d.val).marked = [a - a % 65536] ∧ t.mem = s.mem))))

/-- O34. When FMA, DIV, SQRT, RCP, RSQRT, EXP2, LOG2, MIN, MAX, a comparison or a conversion issues for a set, it completes: each thread of
the set holds the result of its own operands, read before the write, in register d, its flags are raised on top of those it had, and it goes
on; no other register, flag, thread or unit changes. The operand layout in registers is the model's choice (log entry 23). (08 Number
formats and arithmetic) -/
def Obligations.FloatingPointRowsActPerThread : Prop :=
  ∀ (s : State) (i : Issue) (set : List Nat) (s1 : State) (f g : FpFmt) (rm : Rm) (k : FpCmp) (sat : Bool) (ti : IntTy) (d a b c : Nat)
    (v : Nat → FpFmt → Nat → FVal), v = (fun u h r => fdecode h (rdFp s i.core.val i.slot.val u r h)) →
    (Issues s i [d, a, b, c] set s1 → ∃ t, exec (.fma i f rm d a b c) s = .next t ∧
      RowDone s1 t i set d 1 fun u => fmaVal f rm (v u f a) (v u f b) (v u f c)) ∧
    (Issues s i [d, a, b] set s1 →
      (∃ t, exec (.fpDiv i f rm d a b) s = .next t ∧ RowDone s1 t i set d 1 fun u => fdivVal f rm (v u f a) (v u f b)) ∧
      (∃ t, exec (.fpMin i f d a b) s = .next t ∧ RowDone s1 t i set d 1 fun u =>
        minMaxVal f false (rdFp s i.core.val i.slot.val u a f) (rdFp s i.core.val i.slot.val u b f)) ∧
      (∃ t, exec (.fpMax i f d a b) s = .next t ∧ RowDone s1 t i set d 1 fun u =>
        minMaxVal f true (rdFp s i.core.val i.slot.val u a f) (rdFp s i.core.val i.slot.val u b f)) ∧
      (∃ t, exec (.fpCompare i f k d a b) s = .next t ∧ RowDone s1 t i set d 1 fun u =>
        (if (cmpVal k (v u f a) (v u f b)).1 then 1 else 0, (cmpVal k (v u f a) (v u f b)).2)) ∧
      (∃ t, exec (.scaledConvert i f g rm sat d a b) s = .next t ∧ RowDone s1 t i set d 1 fun u =>
        scaledConvVal f rm sat (v u g a) ((rd s i.core.val i.slot.val u b).toNat % 256))) ∧
    (Issues s i [d, a] set s1 →
      (∃ t, exec (.sqrt i f rm d a) s = .next t ∧ RowDone s1 t i set d 1 fun u => fsqrtVal f rm (v u f a)) ∧
      (∃ t, exec (.rcp i f rm d a) s = .next t ∧ RowDone s1 t i set d 1 fun u => frcpVal f rm (v u f a)) ∧
      (∃ t, exec (.rsqrt i f rm d a) s = .next t ∧ RowDone s1 t i set d 1 fun u => frsqrtVal f rm (v u f a)) ∧
      (∃ t, exec (.exp2 i f rm d a) s = .next t ∧ RowDone s1 t i set d 1 fun u => fexp2Val f rm (v u f a)) ∧
      (∃ t, exec (.log2 i f rm d a) s = .next t ∧ RowDone s1 t i set d 1 fun u => flog2Val f rm (v u f a)) ∧
      (∃ t, exec (.fpConvert i f g rm sat d a) s = .next t ∧ RowDone s1 t i set d 1 fun u => convVal f rm sat (v u g a) 0)) ∧
    (Issues s i (intRegs (intWidth ti == 64) d ++ [a]) set s1 →
      ∃ t, exec (.convertToInteger i ti g rm d a) s = .next t ∧
        RowDone s1 t i set d (if intWidth ti = 64 then 2 else 1) fun u => toIntVal ti rm (v u g a)) ∧
    (Issues s i (d :: intRegs (intWidth ti == 64) a) set s1 →
      ∃ t, exec (.convertFromInteger i f ti rm sat d a) s = .next t ∧ RowDone s1 t i set d 1 fun u =>
        fromIntVal f rm sat (ival (intSigned ti) (intWidth ti) (rdInt s i.core.val i.slot.val u a (intWidth ti == 64))))

/-- O35. On w-bit words, w 32 or 64, ADD, SUB, MUL, NEG and ABS give each thread of the set the exact result modulo 2^w in d, NEG and ABS of
the most negative value give it back, and MULHI gives the upper w bits of the exact signed or unsigned product; none raises a flag or
changes anything else. (R218) -/
def Obligations.IntegerArithmeticWraps : Prop :=
  ∀ (s : State) (i : Issue) (set : List Nat) (s1 : State) (wide sg : Bool) (d a b w n : Nat) (x y : Nat → Nat),
    w = (if wide then 64 else 32) → n = (if wide then 2 else 1) →
    x = (fun u => rdInt s i.core.val i.slot.val u a wide) → y = (fun u => rdInt s i.core.val i.slot.val u b wide) →
    (Issues s i (intRegs wide d ++ (intRegs wide a ++ intRegs wide b)) set s1 →
      (∃ t, exec (.intAdd i wide d a b) s = .next t ∧ RowDone s1 t i set d n fun u => ((x u + y u) % 2 ^ w, 0)) ∧
      (∃ t, exec (.intSub i wide d a b) s = .next t ∧ RowDone s1 t i set d n fun u => ((((x u : Int) - y u) % 2 ^ w).toNat, 0)) ∧
      (∃ t, exec (.intMul i wide d a b) s = .next t ∧ RowDone s1 t i set d n fun u => (x u * y u % 2 ^ w, 0)) ∧
      (∃ t, exec (.mulhi i wide sg d a b) s = .next t ∧
        RowDone s1 t i set d n fun u => (((ival sg w (x u) * ival sg w (y u) / 2 ^ w) % 2 ^ w).toNat, 0))) ∧
    (Issues s i (intRegs wide d ++ intRegs wide a) set s1 →
      (∃ t, exec (.intNeg i wide d a) s = .next t ∧ RowDone s1 t i set d n fun u => (((-(x u : Int)) % 2 ^ w).toNat, 0)) ∧
      (∃ t, exec (.intAbs i wide d a) s = .next t ∧ RowDone s1 t i set d n fun u => ((sval w (x u)).natAbs % 2 ^ w, 0))) ∧
    (∀ v : Nat, v = 2 ^ (w - 1) → ((-(v : Int)) % 2 ^ w).toNat = v ∧ (sval w v).natAbs % 2 ^ w = v)

/-- O36. The amount is the unsigned 32-bit value in register b for both widths. SHL, SHR and SAR by less than w give the product modulo 2^w,
the unsigned and the signed floor of the quotient; by w or more 0, 0 and the sign fill. ROL and ROR rotate by the amount modulo w. CLZ and
CTZ count zeros, w for 0. No flag is raised and nothing else changes. (R220) -/
def Obligations.ShiftsDoNotMaskTheirAmount : Prop :=
  ∀ (s : State) (i : Issue) (set : List Nat) (s1 : State) (wide : Bool) (d a b w n : Nat) (x m : Nat → Nat),
    w = (if wide then 64 else 32) → n = (if wide then 2 else 1) →
    x = (fun u => rdInt s i.core.val i.slot.val u a wide) → m = (fun u => (rd s i.core.val i.slot.val u b).toNat) →
    (Issues s i (intRegs wide d ++ (intRegs wide a ++ [b])) set s1 →
      (∃ t, exec (.shl i wide d a b) s = .next t ∧
        RowDone s1 t i set d n fun u => (if m u < w then x u * 2 ^ m u % 2 ^ w else 0, 0)) ∧
      (∃ t, exec (.shr i wide d a b) s = .next t ∧ RowDone s1 t i set d n fun u => (if m u < w then x u / 2 ^ m u else 0, 0)) ∧
      (∃ t, exec (.sar i wide d a b) s = .next t ∧ RowDone s1 t i set d n fun u =>
        (if m u < w then ((sval w (x u) / 2 ^ m u) % 2 ^ w).toNat else if sval w (x u) < 0 then 2 ^ w - 1 else 0, 0)) ∧
      (∃ t, exec (.rol i wide d a b) s = .next t ∧ RowDone s1 t i set d n fun u =>
        ((x u * 2 ^ (m u % w) + x u / 2 ^ (w - m u % w)) % 2 ^ w, 0)) ∧
      (∃ t, exec (.ror i wide d a b) s = .next t ∧ RowDone s1 t i set d n fun u =>
        ((x u * 2 ^ (w - m u % w) + x u / 2 ^ (m u % w)) % 2 ^ w, 0))) ∧
    (Issues s i (intRegs wide d ++ intRegs wide a) set s1 →
      (∃ (t : State) (z : Nat → Nat), exec (.clz i wide d a) s = .next t ∧ RowDone s1 t i set d n (fun u => (z u, 0)) ∧
        ∀ u, (x u = 0 → z u = w) ∧ (x u ≠ 0 → z u < w ∧ 2 ^ (w - 1 - z u) ≤ x u ∧ x u < 2 ^ (w - z u))) ∧
      (∃ (t : State) (z : Nat → Nat), exec (.ctz i wide d a) s = .next t ∧ RowDone s1 t i set d n (fun u => (z u, 0)) ∧
        ∀ u, (x u = 0 → z u = w) ∧ (x u ≠ 0 → z u < w ∧ x u % 2 ^ z u = 0 ∧ x u / 2 ^ z u % 2 = 1)))

/-- O37. DIV truncates toward zero, REM has the dividend's sign; division by zero gives all ones and the dividend, with IDZ; signed MIN by
-1 gives MIN with IOV, MAX under DIV.SAT, remainder 0 without a flag. ADD.SAT, SUB.SAT, MUL.SAT, NEG.SAT and ABS.SAT clamp the exact result
to the type's range and raise IOV exactly when they clamp. Nothing else changes. (R219, R221) -/
def Obligations.DivisionAndSaturation : Prop :=
  ∀ (s : State) (i : Issue) (set : List Nat) (s1 : State) (wide sg : Bool) (d a b w n : Nat) (x y : Nat → Int) (lo hi : Int)
    (cl : Int → Nat × Nat),
    w = (if wide then 64 else 32) → n = (if wide then 2 else 1) →
    x = (fun u => ival sg w (rdInt s i.core.val i.slot.val u a wide)) → y = (fun u => ival sg w (rdInt s i.core.val i.slot.val u b wide)) →
    lo = (if sg then -(2 ^ (w - 1)) else 0) → hi = (if sg then 2 ^ (w - 1) - 1 else 2 ^ w - 1) →
    cl = (fun v => ((max lo (min hi v) % 2 ^ w).toNat, if lo ≤ v ∧ v ≤ hi then 0 else 32)) →
    (Issues s i (intRegs wide d ++ (intRegs wide a ++ intRegs wide b)) set s1 →
      (∃ t, exec (.intDiv i wide sg d a b) s = .next t ∧ RowDone s1 t i set d n fun u =>
        if y u = 0 then (2 ^ w - 1, 64) else if sg = true ∧ x u = lo ∧ y u = -1 then (2 ^ (w - 1), 32)
        else (((x u).tdiv (y u) % 2 ^ w).toNat, 0)) ∧
      (∃ t, exec (.rem i wide sg d a b) s = .next t ∧ RowDone s1 t i set d n fun u =>
        if y u = 0 then ((x u % 2 ^ w).toNat, 64) else (((x u).tmod (y u) % 2 ^ w).toNat, 0)) ∧
      (∃ t, exec (.divSat i wide sg d a b) s = .next t ∧ RowDone s1 t i set d n fun u =>
        if y u = 0 then (2 ^ w - 1, 64) else if sg = true ∧ x u = lo ∧ y u = -1 then (2 ^ (w - 1) - 1, 32)
        else (((x u).tdiv (y u) % 2 ^ w).toNat, 0)) ∧
      (∃ t, exec (.addSat i wide sg d a b) s = .next t ∧ RowDone s1 t i set d n fun u => cl (x u + y u)) ∧
      (∃ t, exec (.subSat i wide sg d a b) s = .next t ∧ RowDone s1 t i set d n fun u => cl (x u - y u)) ∧
      (∃ t, exec (.mulSat i wide sg d a b) s = .next t ∧ RowDone s1 t i set d n fun u => cl (x u * y u))) ∧
    (Issues s i (intRegs wide d ++ intRegs wide a) set s1 →
      (∃ t, exec (.negSat i wide sg d a) s = .next t ∧ RowDone s1 t i set d n fun u => cl (-(x u))) ∧
      (∃ t, exec (.absSat i wide sg d a) s = .next t ∧ RowDone s1 t i set d n fun u => cl (x u).natAbs))

/-- O38. RDSR puts the special register's value into the destination of each thread of the set and raises no flag; SR_CYCLES counts the
core's cycles since the block's start, at least one more than at any earlier read. How many cycles pass between issues is a free value (log
entry 24). CLRFLAGS clears the mask's flags of each thread and no others, and changes no register. A QMX of one thread writes the block's
elements and its scale to local store, and raises the union of their flags. Device memory does not change. (07 Cores and thread groups, 08
Number formats and arithmetic) -/
def Obligations.SpecialRegistersFlagsAndQmx : Prop :=
  (∀ (s : State) (i : Issue) (sr : SpecialReg) (d : Nat) (set : List Nat) (s1 s2 : State) (b : Block) (l : Launch),
    Issues s i ((List.range (specialWords sr)).map (d + ·)) set s1 → launchOf s i.core.val i.slot.val = some (b, l) →
    s2 = (if sr = .cycles then passCycles s1 i.core.val else s1) →
    (∃ t, exec (.rdsr i sr d) s = .next t ∧ RowDone s2 t i set d (specialWords sr) fun u => (match sr with
      | .lane => u
      | .group => ((groupAt (coreAt s i.core.val) i.slot.val).map (·.index)).getD 0
      | .block => b.index
      | .nblocks => l.blocks
      | .core => i.core.val
      | .param => l.param
      | .flags => (threadOf s i.core.val i.slot.val u).flags
      | .cycles => ((coreAt s2 i.core.val).cycles - b.start) % 2 ^ 64, 0)) ∧
    (coreAt s i.core.val).cycles < (coreAt s2 i.core.val).cycles) ∧
  (∀ (s : State) (i : Issue) (m : BitVec 7) (set : List Nat) (s1 : State), Issues s i [] set s1 →
    ∃ t, exec (.clrflags i m) s = .next t ∧
      (∀ u ∈ set, threadOf t i.core.val i.slot.val u = { threadOf s1 i.core.val i.slot.val u with
        flags := (threadOf t i.core.val i.slot.val u).flags, pc := goesTo i u } ∧
        ∀ k, (threadOf t i.core.val i.slot.val u).flags.testBit k = ((threadOf s i.core.val i.slot.val u).flags.testBit k &&
          !m.toNat.testBit k)) ∧
      (∀ u, u ∉ set → threadOf t i.core.val i.slot.val u = threadOf s1 i.core.val i.slot.val u) ∧
      t = setCore s1 i.core.val { coreAt s1 i.core.val with groups := (coreAt t i.core.val).groups }) ∧
  (∀ (s : State) (i : Issue) (f : FpFmt) (rm : Rm) (src elems scale u : Nat) (s1 : State) (b : Block) (l : Launch) (n e x p : Nat)
    (vs : List FVal), Issues s i [src, elems, scale] [u] s1 → launchOf s i.core.val i.slot.val = some (b, l) → b.banks ≠ [] →
    n = (if f = .e2m1 then 16 else 32) → e = (rd s i.core.val i.slot.val u elems).toNat → x = (rd s i.core.val i.slot.val u scale).toNat →
    p = (rd s i.core.val i.slot.val u src).toNat → p % 16 = 0 → e % n = 0 → e + n ≤ 65536 → x < 65536 → (x < e ∨ e + n ≤ x) →
    vs = (List.range 32).map (fun k => fdecode .fp32 (field (lsGet s i.core.val i.slot.val p 128) (4 * k) 4)) →
    ∃ t, exec (.qmx i f rm src elems scale) s = .next t ∧
      lsGet t i.core.val i.slot.val e n = packElems f (qmxVal f rm vs).2.1 ∧
      lsGet t i.core.val i.slot.val x 1 = [BitVec.ofNat 8 (qmxVal f rm vs).1] ∧
      (threadOf t i.core.val i.slot.val u).flags = (threadOf s i.core.val i.slot.val u).flags ||| (qmxVal f rm vs).2.2 ∧
      (threadOf t i.core.val i.slot.val u).pc = goesTo i u ∧ t.mem = s.mem ∧ t.uc = s.uc)

/-- O39. When an instruction issues, it issues for the set that the core's scheduler selects: of the first context with a set to issue in
round-robin order after the one that issued last, its threads at one address, none of which has exited, waits or needs a register that is
still to come; the scheduler counts at most 16 issues of a set in a row and changes nothing but contexts and its cycle count. YIELD ends the
set's count and only moves its threads on. A SPLIT of a context with two sets, and an AUTO_SPLIT after 512 divergent issues, put the second
set into a context of its own, where there is room. A set that reaches a CONVERGE goes on past it when no other thread that the mask names
is away; while one is, the set waits at it. When every thread of the group that has not exited reaches a REPACK together, or a BAR that it
alone waits for with its loads returned, each goes on past the instruction. An EXIT ends the threads of its set and no other; that of the
last threads of a group frees its contexts. (07 Cores and thread groups) -/
def Obligations.IssueAndConvergence : Prop :=
  ((∀ (s : State) (i : Issue) (regs set : List Nat) (s1 : State), Issues s i regs set s1 →
    i.lead.val ∈ set ∧
    (∃ n k, (coreAt s1 i.core.val).ctxs.find? (fun p => p.1 == n) = some (n, k) ∧ k.slot = i.slot.val ∧
      (∀ u ∈ set, u ∈ k.threads ∧ (threadOf s i.core.val i.slot.val u).exited = false ∧ (threadOf s i.core.val i.slot.val u).wait = none ∧
        (threadOf s i.core.val i.slot.val u).pc = (threadOf s i.core.val i.slot.val i.lead.val).pc ∧
        ∀ r ∈ regs, regPending (coreAt s i.core.val) i.slot.val u r = false) ∧ 1 ≤ k.count ∧ k.count ≤ 16 ∧
      (∃ g x0 j, groupAt (coreAt s i.core.val) i.slot.val = some g ∧ x0 = repackAt (coreAt s i.core.val) i.slot.val g i.lead.val ∧ j < 64 ∧
        n = (x0.lastCtx + 1 + j) % 64 ∧ ctxSelects s i.core.val x0 i.stalled n = some (set, k.cur, k.count) ∧
        ∀ m, m < j → ctxSelects s i.core.val x0 i.stalled ((x0.lastCtx + 1 + m) % 64) = none) ∧
      s1 = setCore s i.core.val { coreAt s i.core.val with
        ctxs := (coreAt s1 i.core.val).ctxs, lastCtx := n, cycles := (coreAt s i.core.val).cycles + 1 })) ∧
  (∀ (s : State) (i : Issue) (set : List Nat) (s1 : State) (n : Nat) (k : Ctx), Issues s i [] set s1 →
    ctxOf (coreAt s1 i.core.val) i.slot.val i.lead.val = some (n, k) →
    ∃ t, exec (.yieldSet i) s = .next t ∧ ctxOf (coreAt t i.core.val) i.slot.val i.lead.val = some (n, { k with count := 16 }) ∧
      (∀ u ∈ set, threadOf t i.core.val i.slot.val u = { threadOf s i.core.val i.slot.val u with pc := goesTo i u }) ∧
      (∀ u, u ∉ set → threadOf t i.core.val i.slot.val u = threadOf s i.core.val i.slot.val u) ∧
      t = setCore s1 i.core.val { coreAt s1 i.core.val with groups := (coreAt t i.core.val).groups, ctxs := (coreAt t i.core.val).ctxs }) ∧
  (∀ (s : State) (i : Issue) (set A B : List Nat) (s1 : State) (n : Nat) (k : Ctx) (g : Group), Issues s i [] set s1 →
    (coreAt s1 i.core.val).ctxs = [(n, k)] → groupAt (coreAt (advancePc s1 i set) i.core.val) i.slot.val = some g →
    setsOf g k = [A, B] → (∀ u ∈ A ++ B, u < 64) →
    ∃ t, exec (.split i) s = .next t ∧ (coreAt t i.core.val).ctxs.length = 2 ∧
      (∀ p ∈ (coreAt t i.core.val).ctxs, p.2.slot = i.slot.val ∧
        ((p.1 = n ∧ ∀ u, u ∈ p.2.threads ↔ u ∈ k.threads ∧ u ∉ B) ∨ (p.1 ≠ n ∧ ∀ u, u ∈ p.2.threads ↔ u ∈ B))) ∧
      (∀ u ∈ set, threadOf t i.core.val i.slot.val u = { threadOf s i.core.val i.slot.val u with pc := goesTo i u }) ∧ t.mem = s.mem) ∧
  (∀ (s : State) (c : CoreNo) (n : Fin 64) (A B : List Nat) (k : Ctx) (g : Group), s.live → (coreAt s c.val).ctxs = [(n.val, k)] →
    groupAt (coreAt s c.val) k.slot = some g → setsOf g k = [A, B] → (∀ u ∈ A ++ B, u < 64) → 512 ≤ k.divergent →
    ∃ t, exec (.autoSplit c n) s = .next t ∧ (coreAt t c.val).ctxs.length = 2 ∧ (coreAt t c.val).groups = (coreAt s c.val).groups ∧
      (∀ p ∈ (coreAt t c.val).ctxs, p.2.slot = k.slot ∧
        ((p.1 = n.val ∧ p.2.divergent = 0 ∧ ∀ u, u ∈ p.2.threads ↔ u ∈ k.threads ∧ u ∉ B) ∨
          (p.1 ≠ n.val ∧ ∀ u, u ∈ p.2.threads ↔ u ∈ B))) ∧ t.mem = s.mem ∧ t.eng = s.eng)) ∧
  ((∀ (s : State) (i : Issue) (set : List Nat) (s1 : State) (g : Group) (b : Block) (l : Launch), Issues s i [] set s1 →
    groupAt (coreAt s i.core.val) i.slot.val = some g → launchOf s i.core.val i.slot.val = some (b, l) → b.slots = [i.slot.val] →
    (∀ u ∈ set, u < 64) → (∀ o, ((∃ mask, o = exec (.converge i mask) s ∧ ∀ v ∈ alive g, v ∉ set → mask.getLsbD v = false ∧ (thread g v).wait = none) ∨
        ((∀ u, u ∈ alive g ↔ u ∈ set) ∧ o = exec (.repack i) s) ∨
        ((∀ u, u ∈ alive g ↔ u ∈ set) ∧ (∀ u ∈ set, visibleAt s .b i.core.val i.slot.val u = true) ∧ o = exec (.barBlock i) s)) →
      ∃ t, o = .next t ∧
      (∀ u ∈ set, (threadOf t i.core.val i.slot.val u).pc = goesTo i u ∧ (threadOf t i.core.val i.slot.val u).wait = none ∧
        (threadOf t i.core.val i.slot.val u).regs = (threadOf s i.core.val i.slot.val u).regs ∧
        (threadOf t i.core.val i.slot.val u).flags = (threadOf s i.core.val i.slot.val u).flags) ∧
      (∀ u, u ∉ set → threadOf t i.core.val i.slot.val u = threadOf s i.core.val i.slot.val u) ∧
      t.mem = s.mem ∧ t.hostMem = s.hostMem ∧ t.uc = s.uc ∧ t.eng = s.eng)) ∧
  (∀ (s : State) (i : Issue) (mask : BitVec 64) (set : List Nat) (s1 : State) (g : Group) (v : Nat), Issues s i [] set s1 →
    groupAt (coreAt s i.core.val) i.slot.val = some g → v ∈ alive g → v ∉ set → mask.getLsbD v = true →
    (∀ u ∈ alive g, (thread g u).wait = none) →
    ∃ t, exec (.converge i mask) s = .next t ∧
      (∀ u ∈ set, threadOf t i.core.val i.slot.val u = { threadOf s i.core.val i.slot.val u with
        wait := some (.converge mask.toNat), resume := goesTo i u }) ∧
      (∀ u, u ∉ set → threadOf t i.core.val i.slot.val u = threadOf s i.core.val i.slot.val u)) ∧
  (∀ (s : State) (i : Issue) (set : List Nat) (s1 : State) (g : Group) (b : Block) (l : Launch), Issues s i [] set s1 →
    groupAt (coreAt s i.core.val) i.slot.val = some g → launchOf s i.core.val i.slot.val = some (b, l) → b.slots = [i.slot.val] →
    (∀ u ∈ alive g, (thread g u).wait = none) →
    ∃ t, exec (.exitThread i) s = .next t ∧
      (∀ u ∈ set, threadOf t i.core.val i.slot.val u = { threadOf s i.core.val i.slot.val u with exited := true }) ∧
      (∀ u, u ∉ set → threadOf t i.core.val i.slot.val u = threadOf s i.core.val i.slot.val u) ∧
      ((∀ u ∈ alive g, u ∈ set) → ∀ p ∈ (coreAt t i.core.val).ctxs, p.2.slot ≠ i.slot.val) ∧
      (coreAt t i.core.val).blocks = (coreAt s i.core.val).blocks ∧ t.mem = s.mem ∧ t.uc = s.uc ∧ t.eng = s.eng))

/-- O40. A LAUNCH whose fields are in range and some die of whose AFFINITY serves becomes a launch with its fields, block b on entry floor(b
x n / BLOCKS) of the n dies; with a field out of range it ends with BAD_REQUEST, with no die that serves with WRONG_STATE, and makes none.
BLOCK_START on an awake die starts the launch's next block on the chosen core, with every thread of every group at ENTRY, its registers
zero; a die that sleeps is woken first. A BLOCK_END of a block whose threads have all exited and whose matrix operations have completed
frees it and counts it; the launch's last ends its command with OK once nothing that its threads issued is outstanding, and until then the
command waits for that. A group of which a thread waits at a convergence point or barrier, at its watchdog's expiry, is recorded in
CORE_HANG_LAST and its launch is to stop with GROUP_HANG, unless a wait of it was released in that cycle. Once no block of a stopping launch
is resident and nothing that it issued is outstanding, HANG_STOP_COMPLETE stops its queue at its command. (06 Engines, queues and command
lists, 07 Cores and thread groups) -/
def Obligations.LaunchesRunBlocks : Prop :=
  ((∀ (s : State) (q : QueueNo) (i : Nat) (c : Cmd) (ds : List Nat) (aff : Nat), s.live → startedCmd s q.val i 0x10 = some c → launchRange c = none →
    aff = (if field c.bytes 31 1 = 0 then 2 ^ (queue s q.val).inst else field c.bytes 31 1) →
    ds = (List.range 8).filter (fun d => bit aff d && dieInService s d && !dieDraining s d) →
    (ds = [] → exec (.launch q i) s = .next (endCmd s q.val i { status := stWrongState })) ∧
    (ds ≠ [] → (bit (cmdOpflags c) 1 = false ∨ ds = (List.range 8).filter (bit aff)) →
    ∃ t l, exec (.launch q i) s = .next t ∧ launchAt t s.eng.nextLaunch = some l ∧ cmdStage t q.val i = some .running ∧
      l.queue = q.val ∧ l.index = i ∧ l.entry = field c.bytes 8 8 ∧ l.param = field c.bytes 16 8 ∧ l.blocks = field c.bytes 24 4 ∧
      l.groups = field c.bytes 28 1 ∧ l.granules = field c.bytes 29 1 ∧ l.lsConfig = field c.bytes 30 1 ∧ l.epoch = c.epoch ∧ l.ended = 0 ∧
      l.stopping = none ∧ (∀ m, m ≠ s.eng.nextLaunch → launchAt t m = launchAt s m) ∧ t.cores = s.cores ∧ t.mem = s.mem ∧
      (∀ b d, b < field c.bytes 24 4 → ds[b * ds.length / field c.bytes 24 4]? = some d →
        (tget (0, 0) l.next d).1 ≤ b ∧ b < (tget (0, 0) l.next d).2))) ∧
  (∀ (s : State) (q : QueueNo) (i : Nat) (c : Cmd) (r : CmdRes), s.live → startedCmd s q.val i 0x10 = some c → launchRange c = some r →
    exec (.launch q i) s = .next (endCmd s q.val i r) ∧ r.status = stBadRequest) ∧
  (∀ (s : State) (n : Nat) (d : DieNo) (l : Launch), s.live → launchAt s n = some l → nextLaunchOn s d.val = some n →
    (dieAwake s d.val = false → exec (.blockStart n d) s = .next (wakeDie s d.val)) ∧
    (dieAwake s d.val = true → chooseCore s d.val l = none → exec (.blockStart n d) s = .next s) ∧
    (∀ c, dieAwake s d.val = true → chooseCore s d.val l = some c → clusterRuns s c = true → (coreAt s c).l1 = [] → (coreAt s c).wbs = [] →
    ∃ t key b, exec (.blockStart n d) s = .next t ∧ (coreAt t c).blocks.find? (fun p => p.1 == key) = some (key, b) ∧ b.launch = n ∧
      b.index = (tget (0, 0) l.next d.val).1 ∧ b.slots.length = l.groups ∧ b.granules = l.granules ∧
      (∀ sl ∈ b.slots, ∃ g, groupAt (coreAt t c) sl = some g ∧ ∀ u, u < 64 → thread g u = { pc := l.entry }) ∧
      (∃ l', launchAt t n = some l' ∧ l' = { l with next := l'.next, passed := tdel l.passed d.val } ∧
        tget (0, 0) l'.next d.val = ((tget (0, 0) l.next d.val).1 + 1, (tget (0, 0) l.next d.val).2)) ∧
      (∀ e, e ≠ c → coreAt t e = coreAt s e) ∧ t.mem = s.mem ∧ t.uc = s.uc))) ∧
  ((∀ (s : State) (c : CoreNo) (key : Nat) (b : Block) (l : Launch), s.live → (coreAt s c.val).blocks.find? (fun p => p.1 == key) = some (key, b) →
    launchAt s b.launch = some l → l.stopping = none → blockBusy s c.val b = false →
    (∀ sl ∈ b.slots, ∀ g, groupAt (coreAt s c.val) sl = some g → alive g = []) →
    ∃ t, exec (.blockEnd c key) s = .next t ∧ (∀ p ∈ (coreAt t c.val).blocks, p.1 ≠ key) ∧
      (∀ sl ∈ b.slots, groupAt (coreAt t c.val) sl = none) ∧ (∀ e, e ≠ c.val → coreAt t e = coreAt s e) ∧ t.mem = s.mem ∧ t.uc = s.uc ∧
      (l.ended + 1 ≠ l.blocks ∨ lateOps (freeBlock s c.val key b) b.launch = true →
        launchAt t b.launch = some { l with ended := l.ended + 1 } ∧ t.eng.queues = s.eng.queues) ∧
      (l.ended + 1 = l.blocks → lateOps (freeBlock s c.val key b) b.launch = false → launchAt t b.launch = none ∧
        ∀ x, cmdStage s l.queue l.index = some x → cmdStage t l.queue l.index = some (.ended { status := stOk }))) ∧
  (∀ (s : State) (q : QueueNo) (i n : Nat) (c : Cmd) (l : Launch), s.live → findCmd (queue s q.val) i = some c → c.stage = .running →
    s.eng.launches.find? (fun p => p.2.queue == q.val && p.2.index == i) = some (n, l) → l.stopping = none → l.ended = l.blocks →
    (lateOps s n = true → exec (.commandComplete q i) s = .next s) ∧
    (lateOps s n = false → exec (.commandComplete q i) s = .next (completeCmd { s with eng := { s.eng with
      launches := tdel s.eng.launches n } } q.val c { status := stOk }))) ∧
  (∀ (s : State) (c : CoreNo) (slot : Fin 32) (g : Group) (b : Block) (l : Launch), s.live → groupAt (coreAt s c.val) slot.val = some g →
    launchOf s c.val slot.val = some (b, l) → l.stopping = none → g.hung = false →
    (∃ u ∈ alive g, (thread g u).wait ≠ none ∧ (thread g u).wait ≠ some .ldwait) →
    (g.freed = some s.hubTime → exec (.groupWatchdogExpiry c slot) s = .next s) ∧
    (g.freed ≠ some s.hubTime → ∃ t l', exec (.groupWatchdogExpiry c slot) s = .next t ∧ launchAt t b.launch = some l' ∧
      l' = { l with stopping := some { status := stGroupHang, detail := c.val, result := b.index + slot.val * 2 ^ 32, error := true } } ∧
      reg t (dieReg (c.val / 512) coreHangLast) = BitVec.ofNat 32 (2 ^ 31 + slot.val * 65536 + c.val) ∧
      groupAt (coreAt t c.val) slot.val = some { g with hung := true } ∧ (∀ e, e ≠ c.val → coreAt t e = coreAt s e) ∧ t.mem = s.mem)) ∧
  (∀ (s : State) (n : Nat) (l : Launch) (r : CmdRes) (c : Cmd), s.live → launchAt s n = some l → l.stopping = some r →
    (launchResident s n = true ∨ lateOps s n = true → exec (.hangStopComplete n) s = .next s) ∧
    (launchResident s n = false → lateOps s n = false → findCmd (queue s l.queue) l.index = some c →
      (tget {} s.tenants (queue s l.queue).owner).resetting = none → (queue s l.queue).state ≠ .stopped →
      s.memWaits = [] → s.uc.waitq = [] → s.uc.msgs = [] → s.uc.txns = [] →
      ∃ t, exec (.hangStopComplete n) s = .next t ∧ launchAt t n = none ∧ (queue t l.queue).state = .stopped ∧
        (queue t l.queue).stopIndex = l.index ∧ (queue t l.queue).errors = (queue s l.queue).errors + 1)))

/-- O41. When the whole of a group issues an MMAJ or MAPPEND together and the unit accepts it, one operation joins the unit's queue with the
registers of the group's threads, and the threads go on; an MMAJ of formats of different classes, and a MAPPEND of an integer tile, join
none and are counted in MTX_MALFORMED_CNT, and the threads go on. An MMAS or MAPPENDS adds one operation for each thread of its set, in
order. MFENCE.S moves on once no solo operation of its threads is left. MATRIX_OP_START moves the first entry of the queue into the unit
with its result, where it may start; for a solo INT8 operation in an idle unit row i, column j of D is C plus the sum of the 32 products,
modulo 2^32. MATRIX_OP_COMPLETE ends the oldest operation of its kind: a joint tile's released threads receive their fragments at d and no
other register changes, a solo operation's D lies in local store row by row, and an append of n rows sends n append writes at consecutive
positions. (09 Matrix units) -/
def Obligations.MatrixOperations : Prop :=
  ((∀ (s : State) (i : Issue) (set : List Nat) (s1 : State) (g : Group) (fa fb d a b c : Nat) (sa sb : Option Nat) (ch : Bool),
    groupAt (coreAt s i.core.val) i.slot.val = some g → ch = chainsOn (coreAt s i.core.val) i.slot.val c →
    Issues s i (regSpan a 4 ++ regSpan b 4 ++ (if ch then [] else regSpan c 16) ++ sa.toList ++ sb.toList) set s1 →
    (∀ u, u ∈ alive g ↔ u ∈ set) → mtxRoom (coreAt s i.core.val) = true →
    (∀ u ∈ set, tileFree (coreAt s i.core.val) i.slot.val u c d = true) →
    ∃ t, exec (.mmaj i fa fb d a b c sa sb) s = .next t ∧
      (∀ u ∈ set, (threadOf t i.core.val i.slot.val u).pc = goesTo i u ∧ (threadOf t i.core.val i.slot.val u).wait = none ∧
        (threadOf t i.core.val i.slot.val u).regs = (threadOf s i.core.val i.slot.val u).regs) ∧ t.mem = s.mem ∧ t.uc = s.uc ∧
      (mtxWellFormed fa fb = true → ∃ e af bf cf wa wb lanes, (coreAt t i.core.val).mtxQ = (coreAt s i.core.val).mtxQ ++ [e] ∧
        e.slot = i.slot.val ∧ e.op = .joint fa fb d c (sa.isSome && sb.isSome) af bf cf wa wb lanes ∧ (∀ u, u ∈ lanes ↔ u ∈ set) ∧
        (∀ u q, u ∈ set → q < 4 → (af.getD u []).getD q 0 = rd s i.core.val i.slot.val u (a + q) ∧
          (bf.getD u []).getD q 0 = rd s i.core.val i.slot.val u (b + q)) ∧
        (∀ u q, u < 64 → u ∉ set → q < 4 → (af.getD u []).getD q 0 = 0 ∧ (bf.getD u []).getD q 0 = 0) ∧
        (if ch then cf = [] else ∀ u q, u ∈ set → q < 16 → (cf.getD u []).getD q 0 = rd s i.core.val i.slot.val u (c + q)) ∧
        (∀ u r, u ∈ set → (sa = some r → wa.getD u 0 = rd s i.core.val i.slot.val u r) ∧
          (sb = some r → wb.getD u 0 = rd s i.core.val i.slot.val u r))) ∧
      (mtxWellFormed fa fb = false → (coreAt t i.core.val).mtxQ = (coreAt s i.core.val).mtxQ ∧
        reg t (dieReg (i.core.val / 512) mtxMalformedCnt) =
          reg (bump s (dieReg (i.core.val / 512) mtxMalformedCnt)) (dieReg (i.core.val / 512) mtxMalformedCnt))) ∧
  (∀ (s : State) (i : Issue) (set : List Nat) (s1 : State) (fa fb ad aa ab ac : Nat) (asa asb : Option Nat) (adr : Nat → Nat → Nat),
    Issues s i ([ad, aa, ab, ac] ++ asa.toList ++ asb.toList) set s1 → adr = (fun u r => alignDown (rd s i.core.val i.slot.val u r).toNat 64) →
    (mtxRoom (coreAt s i.core.val) = false → exec (.mmas i fa fb ad aa ab ac asa asb) s = .next s) ∧
    (mtxRoom (coreAt s i.core.val) = true →
      ∃ t, exec (.mmas i fa fb ad aa ab ac asa asb) s = .next t ∧
        (∀ u ∈ set, threadOf t i.core.val i.slot.val u = { threadOf s i.core.val i.slot.val u with pc := goesTo i u }) ∧ t.mem = s.mem ∧
        (mtxWellFormed fa fb = true → (coreAt t i.core.val).mtxQ ++ (coreAt t i.core.val).mtxFeed = (coreAt s i.core.val).mtxQ ++
          set.map (fun u => MtxEntry.mk i.slot.val (.solo fa fb (adr u ad) (adr u aa) (adr u ab) (adr u ac) (asa.map (adr u))
            (asb.map (adr u)) u) (coreAt s i.core.val).nextSeq [])) ∧
        (mtxWellFormed fa fb = false → (coreAt t i.core.val).mtxQ = (coreAt s i.core.val).mtxQ ∧
          reg t (dieReg (i.core.val / 512) mtxMalformedCnt) =
            reg (bump s (dieReg (i.core.val / 512) mtxMalformedCnt)) (dieReg (i.core.val / 512) mtxMalformedCnt)))) ∧
  (∀ (s : State) (i : Issue) (set : List Nat) (s1 : State), Issues s i [] set s1 →
    (∀ u ∈ set, soloOf (coreAt s i.core.val) i.slot.val u = false) →
    ∃ t, exec (.mfenceS i) s = .next t ∧
      (∀ u ∈ set, threadOf t i.core.val i.slot.val u = { threadOf s i.core.val i.slot.val u with pc := goesTo i u }) ∧
      (∀ u, u ∉ set → threadOf t i.core.val i.slot.val u = threadOf s i.core.val i.slot.val u) ∧
      t = setCore s1 i.core.val { coreAt s1 i.core.val with groups := (coreAt t i.core.val).groups }) ∧
  (∀ (s : State) (i : Issue) (set : List Nat) (s1 : State) (g : Group) (d desc lead : Nat) (rows : Fin 33),
    groupAt (coreAt s i.core.val) i.slot.val = some g → Issues s i (regSpan desc 4 ++ regSpan d 16) set s1 → alive g = set →
    set.head? = some lead → mtxRoom (coreAt s i.core.val) = true →
    (∀ u ∈ set, acquired s i.core.val i.slot.val u = true ∧ loadsDone s i.core.val i.slot.val u = true) →
    ∃ t, exec (.mappend i d desc rows) s = .next t ∧
      (∀ u ∈ set, (threadOf t i.core.val i.slot.val u).pc = goesTo i u ∧ (threadOf t i.core.val i.slot.val u).wait = none) ∧
      ((coreAt s i.core.val).intTiles.contains (i.slot.val, d) = false → ∃ e frag, (coreAt t i.core.val).mtxQ = (coreAt s i.core.val).mtxQ ++ [e] ∧
        e.slot = i.slot.val ∧ e.op = .append frag ((List.range 4).map fun q => rd s i.core.val i.slot.val lead (desc + q)) rows.val lead ∧
        ∀ u q, u ∈ set → q < 16 → (frag.getD u []).getD q 0 = rd s i.core.val i.slot.val u (d + q)) ∧
      ((coreAt s i.core.val).intTiles.contains (i.slot.val, d) = true → (coreAt t i.core.val).mtxQ = (coreAt s i.core.val).mtxQ ∧
        reg t (dieReg (i.core.val / 512) mtxMalformedCnt) =
          reg (bump s (dieReg (i.core.val / 512) mtxMalformedCnt)) (dieReg (i.core.val / 512) mtxMalformedCnt))) ∧
  (∀ (s : State) (i : Issue) (set : List Nat) (s1 : State) (ad desc : Nat) (rows : Fin 33), Issues s i (ad :: regSpan desc 4) set s1 →
    mtxRoom (coreAt s i.core.val) = true →
    (∀ u ∈ set, acquired s i.core.val i.slot.val u = true ∧ loadsDone s i.core.val i.slot.val u = true) →
    ∃ t, exec (.mappends i ad desc rows) s = .next t ∧
      (coreAt t i.core.val).mtxQ ++ (coreAt t i.core.val).mtxFeed = (coreAt s i.core.val).mtxQ ++ set.map (fun u =>
        MtxEntry.mk i.slot.val (.appendS (alignDown (rd s i.core.val i.slot.val u ad).toNat 64)
          ((List.range 4).map fun q => rd s i.core.val i.slot.val u (desc + q)) rows.val u) (coreAt s i.core.val).nextSeq []) ∧
      (∀ u ∈ set, (threadOf t i.core.val i.slot.val u).pc = goesTo i u) ∧ t.mem = s.mem)) ∧
  ((∀ (s : State) (c : CoreNo) (e : MtxEntry) (rest : List MtxEntry), s.live → (coreAt s c.val).mtxQ = e :: rest →
    (mayStart s c.val (coreAt s c.val).mtxRun e = false → exec (.matrixOpStart c) s = .next s) ∧
    ((coreAt s c.val).mtxRun = [] ∨ mayStart s c.val (coreAt s c.val).mtxRun e = true →
      ∃ t r, exec (.matrixOpStart c) s = .next t ∧ (coreAt t c.val).mtxRun = (coreAt s c.val).mtxRun ++ [{ e with result := r }] ∧
        t.mem = s.mem ∧ t.uc = s.uc ∧ (∀ d, d ≠ c.val → coreAt t d = coreAt s d) ∧
        (mtxKind e ≠ 2 → r.length = 1024) ∧
        ((∀ p ∈ (coreAt s c.val).groups, ∀ g, groupAt (coreAt s c.val) p.1 = some g → ∀ u ∈ alive g, (thread g u).wait = none) →
          (coreAt t c.val).mtxQ ++ (coreAt t c.val).mtxFeed = rest ++ (coreAt s c.val).mtxFeed ∧
          (coreAt t c.val).groups = (coreAt s c.val).groups) ∧
        ((coreAt s c.val).mtxRun = [] → ∀ ad aa ab ac th, e.op = .solo 5 5 ad aa ab ac none none th → ∀ i j, i < 32 → j < 32 →
          r.getD (32 * i + j) 0 = BitVec.ofInt 32 ((field (lsGet s c.val e.slot ac 4096) (4 * (32 * i + j)) 4 : Int) +
            ((List.range 32).map fun k => (BitVec.ofNat 8 (field (lsGet s c.val e.slot aa 1024) (32 * i + k) 1)).toInt *
              (BitVec.ofNat 8 (field (lsGet s c.val e.slot ab 1024) (32 * j + k) 1)).toInt).sum)))) ∧
  (∀ (s : State) (c : CoreNo) (n : Fin 4) (e : MtxEntry), s.live → (coreAt s c.val).mtxRun[n.val]? = some e →
    ((((coreAt s c.val).mtxRun.take n.val).any fun b => mtxKind b == mtxKind e) = true → exec (.matrixOpComplete ⟨c, n⟩) s = .next s) ∧
    ((((coreAt s c.val).mtxRun.take n.val).any fun b => mtxKind b == mtxKind e) = false →
    (∀ fa fb d cr sc af bf cf sa sb lanes, e.op = .joint fa fb d cr sc af bf cf sa sb lanes →
      ∃ t, exec (.matrixOpComplete ⟨c, n⟩) s = .next t ∧ (coreAt t c.val).mtxRun = (coreAt s c.val).mtxRun.eraseIdx n.val ∧
        (∀ u ∈ lanes, ∀ q, q < 16 → d + q < allocated s c.val e.slot →
          rd t c.val e.slot u (d + q) = e.result.getD (32 * (16 * (u / 32) + q) + u % 32) 0) ∧
        (∀ u r, u ∉ lanes ∨ r < d ∨ d + 16 ≤ r → rd t c.val e.slot u r = rd s c.val e.slot u r) ∧ t.mem = s.mem ∧ t.uc = s.uc ∧
        t.posted = s.posted) ∧
    (∀ fa fb ad aa ab ac asa asb th b l, e.op = .solo fa fb ad aa ab ac asa asb th → launchOf s c.val e.slot = some (b, l) →
      b.banks ≠ [] → ad + 4096 ≤ 65536 → e.result.length = 1024 →
      ∃ t, exec (.matrixOpComplete ⟨c, n⟩) s = .next t ∧ (coreAt t c.val).mtxRun = (coreAt s c.val).mtxRun.eraseIdx n.val ∧
        (∀ i j, i < 32 → j < 32 → BitVec.ofNat 32 (field (lsGet t c.val e.slot ad 4096) (128 * i + 4 * j) 4) = e.result.getD (32 * i + j) 0) ∧
        (∀ sl u r, rd t c.val sl u r = rd s c.val sl u r) ∧ t.mem = s.mem ∧ t.posted = s.posted) ∧
    (∀ desc rows lead b l, ((∃ frag, e.op = .append frag desc rows lead) ∨ (∃ ad, e.op = .appendS ad desc rows lead ∧ e.result ≠ [])) →
      launchOf s c.val e.slot = some (b, l) →
      ∃ t ps, exec (.matrixOpComplete ⟨c, n⟩) s = .next t ∧ (coreAt t c.val).mtxRun = (coreAt s c.val).mtxRun.eraseIdx n.val ∧
        t.posted = s.posted ++ ps ∧ ps.length = rows ∧
        (∀ k p, ps[k]? = some p → p.core = c.val ∧ p.slot = e.slot ∧ p.lane = lead ∧ ∃ tag ws, p.what = .append tag ws (launchTag s l) ∧
          tag.position = ((desc.getD 1 0).toNat + k) % 2 ^ 32 ∧ tag.session = (desc.getD 0 0).toNat % 2 ^ 14 ∧ tag.count = 32 ∧
          ws.length = 32) ∧ t.mem = s.mem))))

/-- O42. LD, LD.ACQ, ST, ST.REL, ATOM, RED, CINV, LDWAIT, SGATHER, MWRITE, LDL, STL and FENCE issue for their set once every thread of it
may, under the order rules of a thread; each thread's access acts in the order of the set, from the state that the one before it left, and
then the threads move on. An LD of which a thread's acquire is outstanding, and a FENCE of which an earlier access is not visible at its
scope, do not issue. FENCE does nothing else. (07 Cores and thread groups, 10 Memory ordering and visibility) -/
def Obligations.ThreadAccessesActInThreadOrder : Prop :=
  ∀ (s : State) (i : Issue) (set : List Nat) (s1 : State) (c sl : Nat), c = i.core.val → sl = i.slot.val →
    (∀ dst addr size, Issues s i (addr :: (addr + 1) :: regsFor dst size) set s1 →
      ((∃ u ∈ set, acquired s c sl u = false) → exec (.ld i dst addr size) s = .next s) ∧
      ((∀ u ∈ set, acquired s c sl u = true ∧
          ∀ l, placeOf s c sl (rd64 s c sl u addr) = some l → sameBytePending s c sl u l size = false) →
        exec (.ld i dst addr size) s = .next (advancePc (set.foldl (fun s u => loadThread s c sl u dst addr size false) s1) i set) ∧
        ∀ sc, exec (.ldAcq i sc dst addr size) s =
          .next (advancePc (set.foldl (fun s u => loadThread s c sl u dst addr size true) s1) i set))) ∧
    (∀ addr src size, Issues s i (addr :: (addr + 1) :: regsFor src size) set s1 →
      (∀ u ∈ set, allDone s c sl u = true ∨ (acquired s c sl u = true ∧ unitAppends (coreAt s c) sl u = [] ∧
        ∀ f a p, placeOf s c sl (rd64 s c sl u addr) ≠ some (.host f a p))) →
      (exec (.st i addr src size) s = .next (advancePc (set.foldl (fun s u => storeThread s c sl u addr src size none) s1) i set) ∧
        ∀ sc, exec (.stRel i sc addr src size) s =
          .next (advancePc (set.foldl (fun s u => storeThread s c sl u addr src size (some sc)) s1) i set))) ∧
    (∀ op ord sc dst addr src size, size ∈ atomSizes op →
      Issues s i (addr :: (addr + 1) :: (regsFor dst size ++ regsFor src (if op = .cas then 2 * size else size))) set s1 →
      (∀ u ∈ set, allDone s c sl u = true) →
      exec (.atom i op ord sc dst addr src size) s =
        .next (advancePc (set.foldl (fun s u => atomThread s c sl u op (ord == .acq || ord == .ar) dst addr src size) s1) i set)) ∧
    (∀ op f addr src n, redWf op f n = true → Issues s i (addr :: (addr + 1) :: regsFor src n) set s1 → (∀ u ∈ set, allDone s c sl u = true) →
      exec (.red i op f addr src n) s = .next (advancePc (set.foldl (fun s u => redThread s c sl u op f addr src n) s1) i set)) ∧
    (∀ addr, Issues s i [addr, addr + 1] set s1 → (∀ u ∈ set, allDone s c sl u = true) →
      exec (.cinv i addr) s = .next (advancePc (set.foldl (fun s u => cinvThread s c sl u addr) s1) i set)) ∧
    (∀ dst addr value, Issues s i (addr :: (addr + 1) :: value :: (value + 1) :: regsFor dst 8) set s1 →
      (∀ u ∈ set, acquired s c sl u = true ∧
        ∀ l, placeOf s c sl (rd64 s c sl u addr) = some l → sameBytePending s c sl u l 8 = false) →
      exec (.ldwait i dst addr value) s =
        .next (advancePc (set.foldl (fun s u => ldwaitThread s i c sl u dst addr value) s1) i set)) ∧
    (∀ dst desc, Issues s i ((List.range 8).map (dst + ·) ++ (List.range 4).map (desc + ·)) set s1 →
      (∀ u ∈ set, forwardableAll s c sl u = true) →
      exec (.sgather i dst desc) s = .next (advancePc (set.foldl (fun s u => gatherThread s c sl u dst desc) s1) i set)) ∧
    (∀ die addr dim u b l, Issues s i [addr] set s1 → set = [u] → acquired s c sl u = true → loadsDone s c sl u = true →
      launchOf s c sl = some (b, l) →
      ∃ t q, exec (.mwrite i die addr dim) s = .next t ∧ t.posted = s.posted ++ [Posted.mk c sl u q (.merge die (launchTag s l)
          (mergeRecord (lsGet s c sl (alignDown (rd s c sl u addr).toNat 16) (16 + 4 * dim)) dim))] ∧
        (threadOf t c sl u).pc = goesTo i u ∧ t.mem = s.mem) ∧
    (∀ dst addr size, Issues s i (addr :: regsFor dst size) set s1 → (∀ u ∈ set, acquired s c sl u = true) →
      ∃ t, exec (.ldl i dst addr size) s = .next t ∧ RowDone s1 t i set dst ((size + 3) / 4) fun u =>
        (leNat (lsGet s c sl (alignDown (rd s c sl u addr).toNat size) size), 0)) ∧
    (∀ addr src size u b l a, Issues s i (addr :: regsFor src size) set s1 → set = [u] → acquired s c sl u = true → loadsDone s c sl u = true →
      launchOf s c sl = some (b, l) → b.banks ≠ [] →
      a = (rd s c sl u addr).toNat → a % size = 0 → 0 < size → a + size ≤ 65536 →
      ∃ t, exec (.stl i addr src size) s = .next t ∧ lsGet t c sl a size = rdBytes s c sl u src size ∧
        (threadOf t c sl u).pc = goesTo i u ∧ (threadOf t c sl u).regs = (threadOf s c sl u).regs ∧ t.mem = s.mem ∧ t.uc = s.uc) ∧
    (∀ sc, Issues s i [] set s1 →
      ((∃ u ∈ set, visibleAt s sc c sl u = false) → exec (.threadFence i sc) s = .next s) ∧
      ((∀ u ∈ set, visibleAt s sc c sl u = true) → exec (.threadFence i sc) s = .next (advancePc s1 i set)))

/-- O43. A misaligned or untranslated address is to stop the launch with XLATE_FAULT, DETAIL 0xFFFE or 0xFFFF, and the VA. Past its
translation a load that hits the L1 puts the line's bytes, overlaid by the core's queued stores, into its registers; one that misses waits
and asks the home for the line with GETS, and one of host memory waits for the host. A store joins the core's store queue, in host memory it
is posted. An atomic on an owned line changes it at once and returns the old value. Unpopulated space reads zero and is counted. A queued
store that may be performed changes its bytes of a line that the core's L1 owns and leaves the queue; without the line, GETM asks the home
for it, GETM_FULL when the queued stores cover all of it, and the store stays. An LDWAIT on a value at least as large as asked ends at once
with it; else the thread waits; at its timeout the thread goes on with the last value that was read, and a poll of host memory reads it
again and ends the wait when the value is large enough. (10 Memory ordering and visibility, 11 Unified cache and coherence) -/
def Obligations.AccessesAndStoreQueues : Prop :=
  (∀ (s s0 : State) (c u addr size : Nat) (slot : Fin 32) (va : Nat), va = rd64 s c slot.val u addr →
    s0 = (if va % size = 0 then noteAim s c slot.val va else s) →
    (∀ b l w, launchOf s c slot.val = some (b, l) → l.stopping = none → va % size ≠ 0 →
      ∃ t, aim s c slot.val va size size w = .stop t ∧ t.mem = s.mem ∧ launchAt t b.launch = some { l with
        stopping := some { status := stXlateFault, detail := 0xFFFE, result := va, error := true } }) ∧
    (∀ b l w, launchOf s c slot.val = some (b, l) → l.stopping = none → va % size = 0 → xlate s (launchTag s l) va = .none →
      ∃ t, aim s c slot.val va size size w = .stop t ∧ t.mem = s.mem ∧ launchAt t b.launch = some { l with
        stopping := some { status := stXlateFault, detail := 0xFFFF, result := va, error := true } }) ∧
    (∀ a dst acq y t leaf, t = loadThread s c slot.val u dst addr size acq → aim s0 c slot.val va size size false = .dev a leaf →
      reachable s0 a = true → l1Line (coreAt s0 c) (lineOf a) = some y → y.poison = 0 →
      (∀ k, k < (size + 3) / 4 → dst + k < allocated s0 c slot.val → rd t c slot.val u (dst + k) =
        BitVec.ofNat 32 (leNat (forwarded (coreAt s0 c) slot.val u (coreAt s0 c).nextSeq a ((y.data.drop (a % 128)).take size)) /
          2 ^ (32 * k))) ∧
      (∀ r, r < dst ∨ dst + (size + 3) / 4 ≤ r → rd t c slot.val u r = rd s0 c slot.val u r) ∧ t.mem = s0.mem ∧ t.uc = s0.uc) ∧
    (∀ a dst acq t leaf, t = loadThread s c slot.val u dst addr size acq → aim s0 c slot.val va size size false = .dev a leaf →
      reachable s0 a = true → l1Line (coreAt s0 c) (lineOf a) = none →
      allForwarded (coreAt s0 c) slot.val u (coreAt s0 c).nextSeq a size = false →
      lineReq (coreAt s0 c) (lineOf a) = none → (∀ e ∈ (coreAt s0 c).accs, e.host = none → lineOf e.dpa ≠ lineOf a) →
      l1Used (coreAt s0 c) < l1Capacity (coreAt s0 c) →
      (coreAt t c).accs = (coreAt s0 c).accs ++ [MemAcc.mk slot.val u (coreAt s0 c).nextSeq a size (.load dst acq) none va leaf] ∧
        Sends t s0.uc.msgs [{ src := .core c, dst := .home, line := lineOf a, kind := .getS }] ∧
        (coreAt t c).groups = (coreAt s0 c).groups ∧ t.mem = s0.mem) ∧
    (∀ f a p dst acq, aim s0 c slot.val va size size false = .host f a p →
      loadThread s c slot.val u dst addr size acq =
        addAcc s0 c (MemAcc.mk slot.val u 0 va size (.load dst acq) (some (.host f a p)) va none)) ∧
    (∀ a src rel t leaf, t = storeThread s c slot.val u addr src size rel → aim s0 c slot.val va size size true = .dev a leaf →
      reachable s0 a = true → t = setCore s0 c { coreAt s0 c with nextSeq := (coreAt s0 c).nextSeq + 1, storeQ := (coreAt s0 c).storeQ ++ [QueuedStore.mk slot.val u (coreAt s0 c).nextSeq a (rdBytes s0 c slot.val u src size) rel va leaf] }) ∧
    (∀ a f p src rel, aim s0 c slot.val va size size true = .host f a p →
      storeThread s c slot.val u addr src size rel = hostWrite s0 f a (rdBytes s0 c slot.val u src size)) ∧
    (∀ a dst acq t leaf, t = loadThread s c slot.val u dst addr size acq → aim s0 c slot.val va size size false = .dev a leaf →
      reachable s0 a = false → (∀ k, k < (size + 3) / 4 → rd t c slot.val u (dst + k) = 0) ∧ t.mem = s0.mem ∧
        reg t (dieReg (a / 2 ^ 36 % 8) hbmUnpopCnt) =
          reg (bump s0 (dieReg (a / 2 ^ 36 % 8) hbmUnpopCnt)) (dieReg (a / 2 ^ 36 % 8) hbmUnpopCnt)) ∧
    (∀ a op acq dst src y t leaf, t = atomThread s c slot.val u op acq dst addr src size → 0 < size → va % size = 0 →
      aim s0 c slot.val va size size true = .dev a leaf → reachable s0 a = true →
      l1Line (coreAt s0 c) (lineOf a) = some y → y.m = true → y.poison = 0 → y.data.length = 128 → a % 128 + size ≤ 128 →
      (∃ z, l1Line (coreAt t c) (lineOf a) = some z ∧ (z.data.drop (a % 128)).take size = atomBytes op size
        ((y.data.drop (a % 128)).take size) (rdBytes s c slot.val u src (if op = .cas then 2 * size else size))) ∧
      (∀ k, k < (size + 3) / 4 → dst + k < allocated s0 c slot.val →
        rd t c slot.val u (dst + k) = BitVec.ofNat 32 (leNat ((y.data.drop (a % 128)).take size) / 2 ^ (32 * k))) ∧ t.mem = s0.mem)) ∧
  ((∀ (s : State) (c : CoreNo) (seq : Nat) (e : QueuedStore), s.live → (coreAt s c.val).storeQ.find? (fun f => f.seq == seq) = some e →
    (drainReady s c.val e = false → exec (.storeQueueDrain c seq) s = .next s) ∧
    (∀ y, drainReady s c.val e = true → l1Line (coreAt s c.val) (lineOf e.dpa) = some y → y.m = true →
      e.dpa % 128 + e.bytes.length ≤ 128 → y.data.length = 128 →
      ∃ t z, exec (.storeQueueDrain c seq) s = .next t ∧ (coreAt t c.val).storeQ = (coreAt s c.val).storeQ.filter (fun f => f.seq != seq) ∧
        l1Line (coreAt t c.val) (lineOf e.dpa) = some z ∧ (z.data.drop (e.dpa % 128)).take e.bytes.length = e.bytes ∧
        z.data.take (e.dpa % 128) = y.data.take (e.dpa % 128) ∧
        z.data.drop (e.dpa % 128 + e.bytes.length) = y.data.drop (e.dpa % 128 + e.bytes.length) ∧ t.mem = s.mem ∧ t.uc = s.uc) ∧
    (drainReady s c.val e = true → l1Line (coreAt s c.val) (lineOf e.dpa) = none → lineReq (coreAt s c.val) (lineOf e.dpa) = none →
      l1Used (coreAt s c.val) < l1Capacity (coreAt s c.val) →
      ∃ t, exec (.storeQueueDrain c seq) s = .next t ∧ (coreAt t c.val).storeQ = (coreAt s c.val).storeQ ∧
        Sends t s.uc.msgs [.mk (.core c.val) .home (lineOf e.dpa)
          (if coversLine s c.val (lineOf e.dpa) then .getMFull else .getM) none none])) ∧
  (∀ (s s0 s1 : State) (c sl u dst addr value va : Nat) (i : Issue) (t : State) (w : Waiter) (l : Loc) (leaf : Option TlbEntry),
    c = i.core.val → sl = i.slot.val → va = rd64 s c sl u addr → t = ldwaitThread s i c sl u dst addr value →
    s0 = (if va % 8 = 0 then noteAim s c sl va else s) → w = .thread c sl u dst →
    ((∃ a, aim s0 c sl va 8 8 false = .dev a leaf ∧ reachable s0 a = true ∧ poisonIn s0 a 8 = none ∧ l = .dev a ∧ s1 = touchRead s0 a 8) ∨
      (∃ f a p, aim s0 c sl va 8 8 false = .host f a p ∧ l = .host f a p ∧ leaf = none ∧ s1 = s0)) →
    (rd64 s c sl u value ≤ waitRead s1 w l →
      t.memWaits = s1.memWaits ∧ (dst + 1 < allocated s1 c sl → waitRead s1 w l < 2 ^ 64 → rd64 t c sl u dst = waitRead s1 w l)) ∧
    (waitRead s1 w l < rd64 s c sl u value →
      t.memWaits = s1.memWaits ++ [MemWait.mk w l 0 (rd64 s c sl u value) (waitRead s1 w l) va leaf] ∧
      ∀ g, groupAt (coreAt s1 c) sl = some g → (threadOf t c sl u).wait = some .ldwait)) ∧
  (∀ (s : State) (c : CoreNo) (slot : Fin 32) (u : Fin 64) (w : MemWait) (dst : Nat), s.live →
    ldwaitOf s c.val slot.val u.val = some w → w.who = .thread c.val slot.val u.val dst → dst + 1 < allocated s c.val slot.val →
    (∃ t, exec (.ldwaitTimeout c slot u) s = .next t ∧ (threadOf t c.val slot.val u.val).wait = none ∧
      rd64 t c.val slot.val u.val dst = w.seen % 2 ^ 64 ∧ (∀ m ∈ t.memWaits, m.who ≠ w.who) ∧ t.mem = s.mem) ∧
    (∀ f a p, w.loc = .host f a p →
      (w.value ≤ waitRead s w.who w.loc → ∃ t, exec (.ldwaitHostPoll c slot u) s = .next t ∧ (threadOf t c.val slot.val u.val).wait = none ∧
        rd64 t c.val slot.val u.val dst = waitRead s w.who w.loc % 2 ^ 64 ∧ (∀ m ∈ t.memWaits, m.who ≠ w.who) ∧ t.mem = s.mem) ∧
      (waitRead s w.who w.loc < w.value → exec (.ldwaitHostPoll c slot u) s = .next { s with
        memWaits := s.memWaits.map fun m => if m.who == w.who then { m with seen := waitRead s w.who w.loc } else m }))))

/-- O44. A GETS of an uncached line gets DATA with its bytes and makes the core a sharer; of an owned one it is forwarded to the owner. GETM
and GETM_FULL of an uncached line are granted, the directory names the owner; of a shared one every other sharer gets INV; of an owned one
FWD_M. The line's transaction opens; a request for a busy line waits. Far operations on an uncached line are performed at once, each with
its effect; decay and FLUSH act on the predictor. (10 Memory ordering and visibility, 11 Unified cache and coherence) -/
def Obligations.HomeServesRequests : Prop :=
  (∀ (s : State) (c : CoreNo) (l : Nat) (k : MsgKind) (b : Option (Nat × Nat × Nat)) (rest : List Msg) (m : Msg),
    m = Msg.mk (.core c.val) .home l k none b → Oldest s m rest → HomeFree s l →
    (k = .getS → dirEnt s l = none → ∃ t, exec (.gets c l) s = .next t ∧
      Sends t rest [{ src := .home, dst := .core c.val, line := l, kind := .data false 0 { bytes := ucBytes s l, poison := ucMarks s l } }] ∧
      dirSt t l = some (.s [c.val]) ∧ busy t l = true ∧ t.cores = s.cores) ∧
    (∀ e x, k = .getS → dirEnt s l = some e → e.st = .o x → x ≠ c.val → ∃ t, exec (.gets c l) s = .next t ∧
      Sends t rest [{ src := .home, dst := .core x, line := l, kind := .fwdS (.core c.val) }] ∧ dirSt t l = some (.s [x, c.val]) ∧
      busy t l = true ∧ t.mem = s.mem) ∧
    (k = .getM → dirEnt s l = none → ∃ t, exec (.getm c l) s = .next t ∧
      Sends t rest [{ src := .home, dst := .core c.val, line := l, kind := .data true 0 { bytes := ucBytes s l, poison := ucMarks s l } }] ∧
      dirSt t l = some (.o c.val) ∧ busy t l = true) ∧
    (∀ e x, k = .getM → dirEnt s l = some e → e.st = .s [x] → x ≠ c.val → ∃ t, exec (.getm c l) s = .next t ∧
      Sends t rest [{ src := .home, dst := .core x, line := l, kind := .inv (.core c.val) },
        { src := .home, dst := .core c.val, line := l, kind := .data true 1 { bytes := ucBytes s l, poison := ucMarks s l } }] ∧
      dirSt t l = some (.o c.val) ∧ busy t l = true) ∧
    (∀ e x, k = .getM → dirEnt s l = some e → e.st = .o x → ∃ t, exec (.getm c l) s = .next t ∧
      Sends t rest [{ src := .home, dst := .core x, line := l, kind := .fwdM (.core c.val) false }] ∧ dirSt t l = some (.o c.val) ∧
      busy t l = true) ∧
    (k = .getMFull → dirEnt s l = none → ∃ t, exec (.getmFull c l) s = .next t ∧
      Sends t rest [{ src := .home, dst := .core c.val, line := l, kind := .gnt 0 }] ∧ dirSt t l = some (.o c.val) ∧ busy t l = true ∧
      t.mem = s.mem) ∧
    (∀ seq off op operand n, k = .atom seq off op operand → dirEnt s l = none → setting s idAtomMode = 1 → s.memWaits = [] →
      n = (if op = .cas then operand.length / 2 else operand.length) → 0 < n → off + n ≤ 128 → ucMarks s l = 0 → (∀ x ∈ rest, x.line ≠ l) →
      ∃ t, exec (.atomMessage c l) s = .next t ∧
        Sends t rest [{ src := .home, dst := .core c.val, line := l, kind := .atomRes seq (((ucBytes s l).drop off).take n) }] ∧
        ((ucBytes t l).drop off).take n = atomBytes op n (((ucBytes s l).drop off).take n) operand ∧ busy t l = false) ∧
    (∀ seq off op f operand, k = .red seq off op f operand → dirEnt s l = none → s.memWaits = [] → operand ≠ [] →
      off + operand.length ≤ 128 → ucMarks s l = 0 → (∀ x ∈ rest, x.line ≠ l) → (∀ a ∈ (coreAt s c.val).accs, a.seq = seq) →
      redSize f * (operand.length / redSize f) = operand.length →
      ∃ t, exec (.redMessage c l) s = .next t ∧ t.uc.msgs = rest ∧ (coreAt t c.val).accs = [] ∧ busy t l = false ∧
        ((ucBytes t l).drop off).take operand.length =
          redBytes op f (operand.length / redSize f) (((ucBytes s l).drop off).take operand.length) operand)) ∧
  (∀ (s : State) (c : CoreNo) (l : Nat) (b : Option (Nat × Nat × Nat)) (rest : List Msg), s.live →
    Oldest s (.mk (.core c.val) .home l .getS none b) rest → reqRoom s l = true →
    s.power.deep = false → diePwr s (sliceOf l) ≠ .retention → busy s l = true →
    ∃ t, exec (.gets c l) s = .next t ∧ t.uc = { s.uc with
      msgs := rest, waitq := s.uc.waitq ++ [{ src := .core c.val, dst := .home, line := l, kind := .getS }] } ∧ t.cores = s.cores ∧
      t.mem = s.mem) ∧
  (∀ (s : State) (a : Nat) (bs : List Byte), HomeFree s (lineOf a) → reachable s a = true → dirEnt s (lineOf a) = none →
    s.memWaits = [] → bs ≠ [] → a % 128 + bs.length ≤ 128 →
    (∃ t, exec (.farWrite a bs) s = .next t ∧ ((ucBytes t (lineOf a)).drop (a % 128)).take bs.length = bs ∧
      (ucBytes t (lineOf a)).take (a % 128) = (ucBytes s (lineOf a)).take (a % 128) ∧
      (ucBytes t (lineOf a)).drop (a % 128 + bs.length) = (ucBytes s (lineOf a)).drop (a % 128 + bs.length) ∧ t.uc.msgs = s.uc.msgs) ∧
    (∃ t, exec (.coherentRead a bs.length) s = .next t ∧ t.mem = s.mem ∧ t.uc.lines = s.uc.lines ∧
      Sends t s.uc.msgs [{ src := .home, dst := .agent, line := lineOf a, kind := .data false 0 {
        bytes := ((ucBytes s (lineOf a)).drop (a % 128)).take bs.length
        poison := ucMarks s (lineOf a) &&& touched (a % 128) bs.length } }]) ∧
    (ucLine s (lineOf a) = none → waitingOn s (lineOf a) = [] → ∃ t, exec (.bypassWrite a bs) s = .next t ∧
      (∀ b, mget t.mem b = mget (mwrite s.mem a bs) b) ∧ t.uc.lines = s.uc.lines ∧ t.uc.msgs = s.uc.msgs)) ∧
  (∀ (s : State) (l : Nat), HomeFree s l → reachable s (lineAddr l) = true → dirEnt s l = none → waitingOn s l = [] →
    (s.uc.msgs.any fun m => m.line == l && m.dst == .home) = false →
    ∃ t, exec (.invalidation l) s = .next t ∧ ucLine t l = none ∧ stackLine t l = (match ucLine s l with
      | some x => pickSectors x.dirty x.data (stackLine s l)
      | none => stackLine s l) ∧ t.uc.msgs = s.uc.msgs) ∧
  (∀ s : State, s.live → ∃ t, exec .predictorDecay s = .next t ∧ t.mem = s.mem ∧ t.uc.lines = s.uc.lines ∧
    t.uc.pred = s.uc.pred.map fun p => (p.1, { p.2 with ctr := p.2.ctr - 1 })) ∧
  (∀ (s : State) (d : DieNo) (w : Word), s.live → memSpaceOn s 0 = true → s.windows.getLsbD (1 + d.val) = true → w.getLsbD 0 = true →
    ∃ t, exec (.ucPredFlush d w 0xF) s = .next t ∧ t.uc.lines = s.uc.lines ∧
      ∀ p, p ∈ t.uc.pred ↔ p ∈ s.uc.pred ∧ p.1 / 1024 ≠ d.val)

/-- O45. A core that owns a line answers FWD_S with DATA and a write-back and keeps a copy in S, FWD_M with the line and RECALL with a
write-back, dropping it, and INV with INV_ACK; without the line it answers NOLINE, under claim hold the message waits for the hold's end.
DATA or GNT installs the line and sends UNBLOCK once its INV_ACKs are in. ATOM_RES writes the old value. At the home WB merges dirty data
and UNBLOCK closes the transaction. (10 Memory ordering and visibility, 11 Unified cache and coherence) -/
def Obligations.CoresAnswerTheHome : Prop :=
  (∀ (s : State) (c : CoreNo) (l : Nat) (y : L1Line) (k : MsgKind) (b : Option (Nat × Nat × Nat)) (rest : List Msg), s.live →
    Oldest s (.mk .home (.core c.val) l k none b) rest → l1Line (coreAt s c.val) l = some y → y.hold = false →
    (∀ q, k = .fwdS (.core q) → y.m = true → ∃ t, exec (.fwdS c l) s = .next t ∧
      l1Line (coreAt t c.val) l = some { y with m := false, dirty := 0 } ∧ t.mem = s.mem ∧
      Sends t rest [{ src := .core c.val, dst := .core q, line := l, kind := .data false 0 (copyOf y false) },
        { src := .core c.val, dst := .home, line := l, kind := .wb true (copyOf y true) }]) ∧
    (∀ q, k = .fwdM (.core q) false → y.m = true → ∃ t, exec (.fwdM c l) s = .next t ∧ l1Line (coreAt t c.val) l = none ∧
      Sends t rest [{ src := .core c.val, dst := .core q, line := l, kind := .data true 0 (copyOf y true) }] ∧ t.mem = s.mem) ∧
    (k = .recallLine → y.m = true → ∃ t, exec (.recallLine c l) s = .next t ∧ l1Line (coreAt t c.val) l = none ∧
      Sends t rest [{ src := .core c.val, dst := .home, line := l, kind := .wb true (copyOf y true) }] ∧ t.mem = s.mem) ∧
    (∀ to_, k = .inv to_ → ∃ t, exec (.inv c l) s = .next t ∧ l1Line (coreAt t c.val) l = none ∧
      Sends t rest [{ src := .core c.val, dst := to_, line := l, kind := .invAck }] ∧ t.mem = s.mem)) ∧
  (∀ (s : State) (c : CoreNo) (l : Nat) (b : Option (Nat × Nat × Nat)) (rest : List Msg), s.live →
    Oldest s (.mk .home (.core c.val) l .recallLine none b) rest →
    (l1Line (coreAt s c.val) l = none → ∃ t, exec (.recallLine c l) s = .next t ∧ t.cores = s.cores ∧
      Sends t rest [{ src := .core c.val, dst := .home, line := l, kind := .noline }]) ∧
    (∀ y, l1Line (coreAt s c.val) l = some y → y.hold = true → ∃ t, exec (.recallLine c l) s = .next t ∧ t.uc.msgs = rest ∧
      l1Line (coreAt t c.val) l = some { y with
        deferred := y.deferred ++ [{ src := .home, dst := .core c.val, line := l, kind := .recallLine }] })) ∧
  (∀ (s : State) (c : CoreNo) (l : Nat) (y : L1Line), s.live → l1Line (coreAt s c.val) l = some y → y.hold = true → y.m = true →
    y.deferred = [{ src := .home, dst := .core c.val, line := l, kind := .recallLine }] →
    ∃ t, exec (.claimHoldEnd c l) s = .next t ∧ l1Line (coreAt t c.val) l = none ∧
      Sends t s.uc.msgs [{ src := .core c.val, dst := .home, line := l, kind := .wb true (copyOf y true) }]) ∧
  (∀ (s : State) (c : CoreNo) (l : Nat) (r : LineReq) (k : MsgKind) (src : Node) (b : Option (Nat × Nat × Nat)) (rest : List Msg)
    (un : Msg), s.live → un = { src := .core c.val, dst := .home, line := l, kind := .unblock } →
    Oldest s (.mk src (.core c.val) l k none b) rest → lineReq (coreAt s c.val) l = some r → r.kind = 0 → (coreAt s c.val).accs = [] →
    (∀ n m y, k = .data m n y → n ≤ r.acks → ∃ t, exec (.data (some c) l) s = .next t ∧ lineReq (coreAt t c.val) l = none ∧
      l1Line (coreAt t c.val) l = some (.mk l m y.dirty y.bytes y.poison (m && setting s idClaimHoldCyc != 0) []) ∧
      Sends t rest [un] ∧ t.mem = s.mem) ∧
    (∀ n m y, k = .data m n y → r.acks < n → ∃ t, exec (.data (some c) l) s = .next t ∧ (coreAt t c.val).l1 = (coreAt s c.val).l1 ∧
      lineReq (coreAt t c.val) l = some { r with expected := some n, grant := some (m, y) } ∧ t.uc.msgs = rest) ∧
    (∀ n, k = .gnt n → n ≤ r.acks → ∃ t y, exec (.gnt c l) s = .next t ∧ lineReq (coreAt t c.val) l = none ∧
      l1Line (coreAt t c.val) l = some y ∧ y.m = true ∧ Sends t rest [un] ∧
      ∀ z, l1Line (coreAt s c.val) l = some z → y.data = z.data ∧ y.dirty = z.dirty) ∧
    (∀ n m y, k = .invAck → r.expected = some n → r.grant = some (m, y) → r.acks + 1 = n → ∃ t z, exec (.invAck (some c) l) s = .next t ∧
      lineReq (coreAt t c.val) l = none ∧ l1Line (coreAt t c.val) l = some z ∧ z.data = y.bytes ∧ z.m = m ∧ Sends t rest [un])) ∧
  (∀ (s : State) (c : CoreNo) (l seq dst : Nat) (a : MemAcc) (old : List Byte) (b : Option (Nat × Nat × Nat)) (rest : List Msg), s.live →
    Oldest s (.mk .home (.core c.val) l (.atomRes seq old) none b) rest → (coreAt s c.val).accs = [a] → a.seq = seq →
    (∃ op operand acq, a.op = .atom op operand dst acq) →
    ∃ t, exec (.atomRes c l) s = .next t ∧ (coreAt t c.val).accs = [] ∧ lineReq (coreAt t c.val) l = none ∧ t.uc.msgs = rest ∧
      (∀ k, k < (a.size + 3) / 4 → dst + k < allocated s c.val a.slot →
        rd t c.val a.slot a.lane (dst + k) = BitVec.ofNat 32 (leNat old / 2 ^ (32 * k))) ∧ t.mem = s.mem) ∧
  (∀ (s : State) (c : CoreNo) (l : Nat) (b : Option (Nat × Nat × Nat)) (rest : List Msg), s.live →
    (Oldest s (.mk .home (.core c.val) l .wbDone none b) rest → ∃ t, exec (.wbDone c l) s = .next t ∧
      (coreAt t c.val).wbs = (coreAt s c.val).wbs.erase l ∧ t.uc.msgs = rest ∧ t.mem = s.mem) ∧
    (∀ y, Oldest s (.mk .home .agent l (.data false 0 y) none b) rest → ∃ t, exec (.data none l) s = .next t ∧
      t.uc = { s.uc with msgs := rest } ∧ t.cores = s.cores ∧ t.mem = s.mem)) ∧
  (∀ (s : State) (c : CoreNo) (l : Nat) (k : MsgKind) (b : Option (Nat × Nat × Nat)) (rest : List Msg), s.live → s.power.deep = false →
    diePwr s (sliceOf l) ≠ .retention → Oldest s (.mk (.core c.val) .home l k none b) rest → s.uc.waitq = [] →
    (∀ y, k = .wb false y → txnOf s l = none → dirSt s l = some (.o c.val) → y.dirty < 16 → y.dirty ≠ 0 → s.memWaits = [] →
      y.bytes.length = 128 → (∀ x, ucLine s l = some x → x.data.length = 128) →
      ∃ t, exec (.wb c l) s = .next t ∧ ucBytes t l = pickSectors y.dirty y.bytes (ucBytes s l) ∧ dirEnt t l = none ∧
        Sends t rest [{ src := .home, dst := .core c.val, line := l, kind := .wbDone }]) ∧
    (∀ x, k = .unblock → txnOf s l = some x → x.req.src = .core c.val → x.req.kind = .getM → x.owner = none →
      ∃ t, exec (.unblock c l) s = .next t ∧ busy t l = false ∧ t.uc.msgs = rest ∧ t.mem = s.mem ∧ t.cores = s.cores) ∧
    (∀ x, k = .noline → txnOf s l = some x → x.owner = some c.val → x.wb = false → x.solicited = false → x.req.kind = .getM →
      x.unblock = true →
      ∃ t, exec (.noline c l) s = .next t ∧ txnOf t l = some { x with noline := true } ∧ t.uc.msgs = rest ∧ t.mem = s.mem) ∧
    (∀ x, k = .invAck → txnOf s l = some x → 2 ≤ x.acks → (∃ off bs, x.req.kind = .farWrite off bs) →
      ∃ t, exec (.invAck none l) s = .next t ∧ txnOf t l = some { x with acks := x.acks - 1 } ∧ t.uc.msgs = rest ∧ t.mem = s.mem))

/-- O46. A round of a port that has nothing to send puts one good ACK_ONLY flit per enabled bundle on the wire, scrambled on its lanes, with
its ACK and SEQ; a waiting message leaves in a PAYLOAD flit that is held. The lanes that carry data give a flit back to the registers that
scrambled it. A PAYLOAD flit in order advances EXPECT and delivers its message; an earlier one is counted, a later one or one refused after
changed bits enters the gap state, EXPECT unchanged; changed bits that leave a flit good change nothing. An acknowledged flit is no longer
held. At the replay timer's expiry every held flit is due again, unless the timer was restarted in that cycle. A port asks to sleep once it
has been quiet long enough, answers SLEEP_REQ by that condition, sleeps when both ends have sent SLEEP_ACK, drops its request on SLEEP_NAK,
and is awake at once for LENOT_WAKE, its scramblers seeded. A lost lane or a retraining takes both ends out of traffic, the flits on the
wire lost; a retraining or lane test without failing lanes brings all 8 bundles up and seeds both ends, one that locks none is fatal.
MARK_DONE for the last class switches the pair to its new route. (14 Lenot die-to-die links; model's choices: log entry 41) -/
def Obligations.LenotLinks : Prop :=
  (∀ (s : State) (pn : PortNo) (k j : Nat), s.live → k = portKey pn.node.val pn.port.val → peerKey k = some j → (lntPort s k).state = 2 →
    ((lntPort s k).resend = [] → (lntPort s k).answer = none → (lntPort s k).asking = false → (lntPort s k).sentAck = false →
      ((lntPort s k).waiting = [] → ∃ t fs, exec (.lenotFlitRound pn []) s = .next t ∧ (lntPort t j).wire = (lntPort s j).wire ++ fs ∧
        fs.length = popcount8 (lntPort s k).bundles ∧ (lntPort t k).held = (lntPort s k).held ∧ (lntPort t k).next = (lntPort s k).next ∧
        (∀ f ∈ fs, ∃ g, f.lanes = toLanes (mapOf s j f.bundle) (laneRegisters (lntPort s k).tx f.bundle) g ∧ g.length = 256 ∧
          flitGood g = true ∧ bits (field g 0 8) 24 4 = 1 ∧
          bits (field g 0 8) 12 12 = ((lntPort s k).expect + 4095) % 4096 ∧ bits (field g 0 8) 0 12 = (lntPort s k).next % 4096)) ∧
      (∀ m, (lntPort s k).waiting = [{ msg := m, origin := none }] → (lntPort s k).held = [] → (∀ q, tget 0 (lntPort s k).used q = 0) →
        m.body.length ≤ 128 → 1 ≤ popcount8 (lntPort s k).bundles →
        ∃ t h, exec (.lenotFlitRound pn []) s = .next t ∧ (lntPort t k).held = [h] ∧ h.seq = (lntPort s k).next ∧ h.heads = 1 ∧
          h.payload.length = 240 ∧ h.payload.take (msgBytes m).length = msgBytes m ∧ (lntPort t k).waiting = [] ∧
          (lntPort t k).next = ((lntPort s k).next + 1) % 4096 ∧
          (lntPort t j).wire.length = (lntPort s j).wire.length + popcount8 (lntPort s k).bundles)) ∧
    (∀ f rest g c, (lntPort s k).wire = f :: rest → g = heard s k f → flitGood g = true → c = field g 0 8 → bit c 28 = false →
      (bits c 24 4 = 0 → c % 4096 = (lntPort s k).expect → bits c 29 15 = 1 →
        ∀ m, readMsg ((g.drop 8).take 240) 15 = some m → m.dst.val = pn.node.val → m.type = 0xA0 →
        ∃ t, exec (.lenotPayloadFlit pn) s = .next t ∧ (lntPort t k).expect = ((lntPort s k).expect + 1) % 4096 ∧
          (lntPort t k).gap = false ∧ (lntPort t k).wire = rest ∧ t.lnt.inbox = s.lnt.inbox ++ [(pn.node.val, m)]) ∧
      (bits c 24 4 = 0 → 1 ≤ ((lntPort s k).expect + 4096 - c % 4096) % 4096 → ((lntPort s k).expect + 4096 - c % 4096) % 4096 ≤ 2048 →
        ∃ t, exec (.lenotPayloadFlit pn) s = .next t ∧ (lntPort t k).expect = (lntPort s k).expect ∧ (lntPort t k).gap = (lntPort s k).gap ∧
          (lntPort t k).wire = rest ∧ t.lnt.inbox = s.lnt.inbox) ∧
      (bits c 24 4 = 0 → 2048 < ((lntPort s k).expect + 4096 - c % 4096) % 4096 →
        ∃ t, exec (.lenotPayloadFlit pn) s = .next t ∧ (lntPort t k).expect = (lntPort s k).expect ∧ (lntPort t k).gap = true ∧
          (lntPort t k).wire = rest ∧ t.lnt.inbox = s.lnt.inbox) ∧
      (bits c 24 4 = 1 → ∀ h hs, (lntPort s k).held = h :: hs → h.seq = bits c 12 12 →
        ∃ t, exec (.lenotAckOnlyFlit pn) s = .next t ∧ (lntPort t k).held = hs ∧ (lntPort t k).expect = (lntPort s k).expect ∧
          (lntPort t k).wire = rest ∧ t.mem = s.mem)) ∧
    (∀ f rest (bs : List (Fin 2048)) g, (lntPort s k).wire = f :: rest → g = bs.foldl (fun g b => flipBit g b.val) (heard s k f) →
      (flitRefused g = true → ∃ t, exec (.corruptedFlit pn bs) s = .next t ∧ lntPort t k = { passWire (lntPort s k) with gap := true } ∧
        t.mem = s.mem) ∧
      (flitRefused g = false → exec (.corruptedFlit pn bs) s = .next s)) ∧
    (∀ h hs n, (lntPort s k).held = h :: hs → n = (if (lntPort s k).lastOldest = some h.seq then (lntPort s k).consec + 1 else 1) →
      n < setting s idLntRetrainReplays → (lntPort s k).restarted ≠ some s.hubTime →
      ∃ t, exec (.lenotReplayTimerExpiry pn) s = .next t ∧ lntPort t k = { lntPort s k with
        resend := (lntPort s k).held.map (·.seq), lastOldest := some h.seq, consec := n, age := 0, restarted := some s.hubTime }) ∧
    ((lntPort s k).restarted = some s.hubTime → exec (.lenotReplayTimerExpiry pn) s = .next s)) ∧
  ((∀ (m : LaneMap) (ws : List (BitVec 23)) (g : List Byte), (usedLanes m).length = 16 → g.length = 256 → ofLanes m ws (toLanes m ws g) = g)) ∧
  ((∀ (s : State) (pn : PortNo) (k j : Nat), s.live → k = portKey pn.node.val pn.port.val → peerKey k = some j →
    (∀ f rest g c, (lntPort s k).state = 2 → (lntPort s k).wire = f :: rest → g = heard s k f → flitGood g = true → c = field g 0 8 →
      bit c 28 = false →
      (bits c 24 4 = 2 → (lntPort s k).asking = false → (lntPort s k).sentAck = false → (lntPort s k).held = [] →
        ∃ t, exec (.lenotSleepReq pn) s = .next t ∧ (lntPort t k).answer = some (quietPort s (lntPort s k)) ∧ (lntPort t k).state = 2) ∧
      (bits c 24 4 = 3 → (lntPort s k).sentAck = true → (lntPort s j).sentAck = true →
        ∃ t, exec (.lenotSleepAck pn) s = .next t ∧ (lntPort t k).state = 3 ∧ (lntPort t j).state = 3 ∧ (lntPort t k).wire = []) ∧
      (bits c 24 4 = 4 → ∃ t, exec (.lenotSleepNak pn) s = .next t ∧ (lntPort t k).asking = false ∧ (lntPort t k).state = 2)) ∧
    ((lntPort s k).state = 2 → (lntPort s k).waiting = [] → (lntPort s k).held = [] → setting s idLntSleepIdle ≠ 0 →
      idleSince s (lntPort s k).busyAt = true → idleSince s (lntPort s k).endedAt = true →
      exec (.lenotSleepIdleExpiry pn) s = .next (setLntPort s k { lntPort s k with asking := true })) ∧
    ((lntPort s k).state = 3 → ∃ t, exec (.lenotWake pn) s = .next t ∧
      lntPort t k = { lntPort s k with state := 2, rx := seeds k, tx := seeds j } ∧
      lntPort t j = { lntPort s j with state := 2, rx := seeds j, tx := seeds k } ∧ t.mem = s.mem) ∧
    (((lntPort s k).state = 2 ∨ (lntPort s k).state = 3) → ∃ t, exec (.lenotRetrain pn) s = .next t ∧
      (∀ b lane, bit (lntPort s k).bundles b.val = true → exec (.laneLockLoss pn b lane) s = .next t) ∧
      ∀ q, (q = k ∨ q = j) → lntPort t q = { lntPort s q with state := 1, wire := [], asking := false, answer := none, sentAck := false }) ∧
    ((lntPort s k).state = 1 → s.start.phase ≠ .dies → (lntPort s k).bundles = 255 → (lntPort s k).held = [] → (lntPort s j).held = [] →
      (∃ t, exec (.lenotRetrainComplete pn [] [] true) s = .next t ∧ (lntPort t k).state = 2 ∧ (lntPort t j).state = 2 ∧
        (lntPort t k).bundles = 255 ∧ (lntPort t j).bundles = 255 ∧ (lntPort t k).tx = (lntPort t j).rx ∧
        (lntPort t j).tx = (lntPort t k).rx) ∧
      (s.err.fatal = false → ∃ t, exec (.lenotRetrainComplete pn [] [] false) s = .next t ∧ (lntPort t k).state = 5 ∧
        (lntPort t j).state = 5 ∧ t.err.fatal = true ∧ t.err.fatalCode = 0x1013))) ∧
  (∀ (s : State) (l : Fin 12), s.live → s.start.phase = .dies → (lntPort s (linkPorts l.val).1).state ≤ 1 →
    ∃ t, exec (.lenotLaneTestComplete l [] []) s = .next t ∧ ∀ k, (k = (linkPorts l.val).1 ∨ k = (linkPorts l.val).2) →
      (lntPort t k).state = 2 ∧ (lntPort t k).bundles = 255 ∧ (lntPort t k).next = 0 ∧ (lntPort t k).expect = 0 ∧
      (lntPort t k).rx = seeds k ∧ (lntPort t k).version = (if 8 ≤ l.val ∧ s.fuse.variant = .h2 then 2 else 3)) ∧
  (∀ (s : State) (src dst : Fin 9) (cls : Fin 6) (c : LntChange), s.live → s.lnt.changes = [c] → c.src = src.val → c.dst = dst.val →
    (cls.val ∈ c.marks → inNetwork s src.val dst.val cls.val = false →
      ∃ t, exec (.mark src dst cls) s = .next t ∧ t.lnt.routes = s.lnt.routes ∧ t.lnt.ports = s.lnt.ports ∧
        t.lnt.changes = [{ c with marks := c.marks.filter (· != cls.val), dones := c.dones ++ [cls.val] }]) ∧
    (c.marks = [] → c.dones = [cls.val] → c.held = [] →
      ∃ t, exec (.markDone src dst cls) s = .next t ∧ t.lnt.changes = [] ∧ routeOf t src.val dst.val = some c.route ∧
        t.lnt.ports = s.lnt.ports) ∧
    (∀ d, c.marks = [] → c.dones = [cls.val, d] → d ≠ cls.val → ∃ t, exec (.markDone src dst cls) s = .next t ∧
      t.lnt.changes = [{ c with dones := [d] }] ∧ t.lnt.routes = s.lnt.routes)) ∧
  (∀ (s : State) (n : Fin 9) (m : LntMsg) (rest : List (Nat × LntMsg)) (l p : Nat), s.live → s.lnt.inbox = (n.val, m) :: rest →
    s.lnt.changes = [] → lntNext s n.val m.dst.val m.src.val = some (l, p) →
    ∃ t w, exec (.registerAccessMessage n) s = .next t ∧ t.lnt.inbox = rest ∧
      (lntPort t (portKey n.val p)).waiting = (lntPort s (portKey n.val p)).waiting ++ [w] ∧ w.msg.type = 0xA1 ∧ w.msg.txn = m.txn ∧
      w.msg.addr = m.addr ∧ w.msg.src = m.dst ∧ w.msg.dst = m.src ∧ w.msg.body = [] ∧ w.origin = none) ∧
  (∀ (s : State) (pn : PortNo) (w : Word) (a : Nat), s.live → memSpaceOn s 0 = true → a = lntReg pn.node.val pn.port.val lntPatCtrlOff →
    (peerKey (portKey pn.node.val pn.port.val)).isSome = true →
    (windowOpen s a = true → bits w.toNat 31 1 = 0 → 1 ≤ bits w.toNat 26 4 → bits w.toNat 26 4 ≤ 4 →
      ∃ t, exec (.lntPatCtrlWrite pn w 0xF) s = .next t ∧ (reg t a).toNat = bits w.toNat 26 4 * 2 ^ 26 + w.toNat % 2 ^ 26 ∧
        (∀ b, b ≠ a → reg t b = reg s b)) ∧
    (windowOpen s a = false → ∃ t, exec (.lntPatCtrlWrite pn w 0xF) s = .next t ∧ reg t a = reg s a ∧ (reg t hubErr).getLsbD 1 = true)))

/-- O47. The symbols of a codeword on two or four lanes give it back to the registers that scrambled them. A usable PAYLOAD frame in order
advances EXPECT and delivers the message that it carries for this package; an earlier one is counted and a later one, or a frame with a
non-zero syndrome or a bad CRC, enters the gap state with EXPECT unchanged; so does a reserved KIND, whose header is used. ACK_ONLY releases
the frames it acknowledges. A port that has been idle long enough answers SLEEP_REQ with SLEEP_ACK, another with SLEEP_NAK; it sleeps on
SLEEP_ACK after its own, or after answering it, and drops its request on SLEEP_NAK. The replay timer sends every held frame again, unless it
was restarted in that cycle. (15 Hawser package links and the torus; model's choices: log entry 42) -/
def Obligations.HawserFramesCarryMessages : Prop :=
  (∀ (n : Nat) (ws : List (BitVec 31)) (w : List Byte), n = 2 ∨ n = 4 → w.length = 1536 → ofLine n ws (toLine n ws w) = w) ∧
  (∀ (s : State) (p : HwNo) (x : HwsPort), s.live → x = hwsPort s p.val → x.state = 2 → x.waiting = [] →
    (∀ (f : HwsLine) (w : List Byte) (h : Nat), w = hwsHeard x f → syndromeZero w = true → frameGood w = true → h = field w 0 8 →
      bit h 27 = false → bit h 28 = false →
      (bits h 24 3 = 0 → h % 4096 = x.expect → ∀ m : HwsMsg, (w.drop 8).take (hwsMsgBytes m).length = hwsMsgBytes m →
        field w (9 + (hwsMsgBytes m).length) 1 = 0 → hwsTypeOk m.cls m.type = true → m.src < 1024 → m.route < 8 → m.dst = ownPkg s →
        inTorus s m.dst = true → m.txn < 2 ^ 24 → m.addr < 2 ^ 48 → m.data.length ≤ 256 →
        ∃ t, exec (.hwsPayloadFrame p f) s = .next t ∧ (hwsPort t p.val).expect = (x.expect + 1) % 4096 ∧ (hwsPort t p.val).gap = false ∧
          t.hws.inbox = s.hws.inbox ++ [(p.val, m)] ∧ t.out.length = s.out.length + 1 ∧ t.mem = s.mem) ∧
      (bits h 24 3 = 0 → 1 ≤ (x.expect + 4096 - h % 4096) % 4096 → (x.expect + 4096 - h % 4096) % 4096 ≤ 2048 →
        ∃ t, exec (.hwsPayloadFrame p f) s = .next t ∧ (hwsPort t p.val).expect = x.expect ∧ (hwsPort t p.val).gap = x.gap ∧
          t.hws.inbox = s.hws.inbox) ∧
      (bits h 24 3 = 0 → 2048 < (x.expect + 4096 - h % 4096) % 4096 →
        ∃ t, exec (.hwsPayloadFrame p f) s = .next t ∧ (hwsPort t p.val).expect = x.expect ∧ (hwsPort t p.val).gap = true ∧
          t.hws.inbox = s.hws.inbox) ∧
      (bits h 24 3 = 1 → ∀ g hs, x.held = g :: hs → g.1 = bits h 12 12 →
        ∃ t, exec (.hwsAckOnlyFrame p f) s = .next t ∧ (hwsPort t p.val).held = hs ∧ (hwsPort t p.val).expect = x.expect ∧
          t.out = s.out ∧ t.mem = s.mem) ∧
      (bits h 24 3 = 2 → x.asking = false → x.held = [] →
        ∃ t, exec (.hwsSleepReq p f) s = .next t ∧ (hwsPort t p.val).sentAck = (hwsIdleSince s x.busyAt || x.sentAck) ∧
          (hwsPort t p.val).state = 2 ∧ t.out.length = s.out.length + 1) ∧
      (bits h 24 3 = 3 → x.sentAck = true →
        ∃ t, exec (.hwsSleepAck p f) s = .next t ∧ (hwsPort t p.val).state = 3 ∧ (hwsPort t p.val).sentAck = false ∧ t.out = s.out) ∧
      (bits h 24 3 = 3 → x.sentAck = false → x.asking = true → x.held = [] →
        ∃ t, exec (.hwsSleepAck p f) s = .next t ∧ (hwsPort t p.val).state = 3 ∧ (hwsPort t p.val).asking = false ∧
          t.out.length = s.out.length + 1) ∧
      (bits h 24 3 = 4 →
        ∃ t, exec (.hwsSleepNak p f) s = .next t ∧ (hwsPort t p.val).asking = false ∧ (hwsPort t p.val).state = 2 ∧ t.out = s.out) ∧
      (5 ≤ bits h 24 3 → ∃ t, exec (.discardedFrame p f) s = .next t ∧ (hwsPort t p.val).expect = x.expect ∧ (hwsPort t p.val).gap = true ∧
        (hwsPort t p.val).bad = x.bad + 1 ∧ t.hws.inbox = s.hws.inbox)) ∧
    (∀ (f : HwsLine) (w : List Byte), w = hwsHeard x f →
      (syndromeZero w = false ∨ frameGood w = false → ∃ t, exec (.discardedFrame p f) s = .next t ∧ t.mem = s.mem ∧
        t.hws.inbox = s.hws.inbox ∧
        hwsPort t p.val = { passRx x with gap := true, bad := x.bad + 1, rburst := x.rburst || decide (8 ≤ x.bad + 1) }) ∧
      (syndromeZero w = true → frameGood w = true → bits (field w 0 8) 24 3 < 5 → exec (.discardedFrame p f) s = .next s)) ∧
    (∀ g hs n, x.held = g :: hs → n = (if x.lastOldest = some g.1 then x.consec + 1 else 1) → n < setting s idHwsRetrainReplays →
      x.restarted ≠ some s.hubTime →
      ∃ t, exec (.hwsReplayTimerExpiry p) s = .next t ∧ (hwsPort t p.val).held = x.held ∧ (hwsPort t p.val).consec = n ∧
        (hwsPort t p.val).lastOldest = some g.1 ∧ t.out.length = s.out.length + x.held.length) ∧
    (x.restarted = some s.hubTime → exec (.hwsReplayTimerExpiry p) s = .next s))

/-- O48. A port idle long enough asks to sleep; a sleeping one wakes on signal or for a message, with a burst on each lane in service; it
sends another burst at each timeout and trains from T0 after four. A lane's gain moves by at most one step toward its estimate, freezes at a
delimiter seen on every lane, where the scramblers start from their seeds, and resumes rounded. A frame loss retrains a port, the retry
timer trains one that is out of service. Training of a port whose peer is the expected one leaves it in service with the trained rate, width
and seeds; a retraining keeps the rate and what it holds; a wrong peer or no configuration leaves it out of service. An RWRITE waits for the
earlier ones of its queue to its destination; one to this package writes what its windows accept and ends; one to another that no route
reaches ends UNREACHABLE. WDATA is performed and counted in its transaction, or wakes its die; bytes outside the windows are discarded and
counted; CLOSE ends a transaction whose pieces are in, or is kept. WDONE ends its command with its status; the end-to-end timer ends it
UNREACHABLE with DETAIL 1; RFENCE ends once no earlier RWRITE to its package is left. A PCF report updates the fabric map. (10 Memory
ordering and visibility, 15 Hawser package links and the torus; model's choices: log entry 42) -/
def Obligations.HawserPortsAndRemoteWrites : Prop :=
  ((∀ (s : State) (p : HwNo) (x : HwsPort), s.live → x = hwsPort s p.val →
    (x.state = 2 → x.waiting = [] → x.held = [] → setting s idHwsSleepIdle ≠ 0 → hwsIdleSince s x.busyAt = true →
      hwsIdleSince s x.endedAt = true →
      ∃ t, exec (.hwsSleepIdleExpiry p) s = .next t ∧ (hwsPort t p.val).asking = true ∧ (hwsPort t p.val).state = 2 ∧
        t.out.length = s.out.length + 1) ∧
    (x.state = 3 → x.waiting = [] →
      ∃ t, exec (.signalDetect p) s = .next t ∧ t.out = s.out ++ [.hwsBurst p.val (List.replicate (hwsWidth x) burstSyms)] ∧
        hwsPort t p.val = { x with state := 2, waking := true, bursts := 0, burstAcq := true, tx := x.seeds }) ∧
    (x.state = 2 → exec (.signalDetect p) s = .next (setHwsPort s p.val { x with burstAcq := true })) ∧
    (x.state = 3 → x.waiting ≠ [] → ∃ t, exec (.hwsWake p) s = .next t ∧ (hwsPort t p.val).state = 2 ∧ (hwsPort t p.val).waking = true ∧
      ∃ os, t.out = s.out ++ Out.hwsBurst p.val (List.replicate (hwsWidth x) burstSyms) :: os) ∧
    (x.state = 2 → x.burstAcq = true ∨ (x.frozen = true ∧ x.good = false ∧ 4 ≤ x.bad) → ∃ t, exec (.burstAcquisitionFailure p) s = .next t ∧
      hwsPort t p.val = { x with burstAcq := true, rburst := true, frozen := false } ∧ t.mem = s.mem) ∧
    (x.state = 2 → x.waking = true → x.bursts < 4 → exec (.wakeBurstTimeout p) s =
      .next (sendBurst (setHwsPort s p.val { x with bursts := x.bursts + 1 }) p.val)) ∧
    (x.state = 2 → x.waking = true → 4 ≤ x.bursts → ∃ t, exec (.wakeBurstTimeout p) s = .next t ∧ hwsPort t p.val =
      { x with state := 1, asking := false, sentAck := false, waking := false, bursts := 0, burstAcq := false, full := true, peer := none }) ∧
    (x.state = 2 → ∃ t, exec (.hwsFrameLossTimeout p) s = .next t ∧ hwsPort t p.val =
      { x with state := 1, asking := false, sentAck := false, waking := false, bursts := 0, burstAcq := false }) ∧
    (x.state = 5 → ∃ t, exec (.hwsRetrainRetryTimer p) s = .next t ∧ hwsPort t p.val = { x with state := 1, trained := false, peer := none }) ∧
    (x.state = 2 → x.frozen = false → bit (reg s (hwsReg p.val hwsGainCtrlOff)).toNat 31 = false → ∀ want : List Nat,
      ∃ t, exec (.gainUpdate p want) s = .next t ∧ t = setHwsPort s p.val { x with gain := (hwsPort t p.val).gain } ∧
        ∀ l, l < 4 → x.gain.getD l 0 ≤ 480 → (hwsPort t p.val).gain.getD l 0 ≤ 480 ∧
          (hwsPort t p.val).gain.getD l 0 ≤ x.gain.getD l 0 + 8 ∧ x.gain.getD l 0 ≤ (hwsPort t p.val).gain.getD l 0 + 8) ∧
    (∀ (seen : List Word) (gs : List Nat), x.state = 2 → x.burstAcq = true ∨ x.rburst = true ∨ x.waking = true →
      ((seen.take (hwsWidth x)).all delimiterSeen = true → exec (.startOfBurstDelimiter p ⟨seen, gs⟩) s = .next (setHwsPort s p.val { x with
        burstAcq := false, rburst := false, frozen := true, bad := 0, good := false, rx := x.peerSeeds,
        gain := (List.range 4).map fun l => min 480 (gs.getD l 0) })) ∧
      ((seen.take (hwsWidth x)).all delimiterSeen = false → exec (.startOfBurstDelimiter p ⟨seen, gs⟩) s = .next s)) ∧
    (x.frozen = true → ∃ t, exec (.gainHandover p) s = .next t ∧ (hwsPort t p.val).frozen = false ∧
      ∀ l, l < 4 → (hwsPort t p.val).gain.getD l 0 % 8 = 0 ∧ (hwsPort t p.val).gain.getD l 0 ≤ x.gain.getD l 0 + 4 ∧
        x.gain.getD l 0 ≤ (hwsPort t p.val).gain.getD l 0 + 4)) ∧
  (∀ (s : State) (p : HwNo) (x : HwsPort), s.live → x = hwsPort s p.val → x.state = 1 →
    (∀ w : BitVec 128, x.trained = false ∨ x.full = true → peerExpected s p.val w.toNat = true →
      p.val < 6 ∨ (bits w.toNat 80 8 = variantCode s ∧ wordRefusal s w.toNat = none) →
      exec (.capabilityWord p w) s = .next (setHwsPort s p.val { x with peer := some w.toNat })) ∧
    (∀ w : BitVec 128, x.trained = false ∨ x.full = true → peerExpected s p.val w.toNat = false →
      ∃ t, exec (.capabilityWord p w) s = .next t ∧ (hwsPort t p.val).state = 5 ∧ (reg t (hwsReg p.val hwsErrOff)).getLsbD 8 = true ∧
        (p.val < 6 → (ownPkg s, p.val) ∈ t.hws.down)) ∧
    (∀ v (seeds : List (BitVec 31)), x.trained = false → x.peer = some v → x.waiting = [] →
      ∃ t, exec (.hwsTrainingComplete p ⟨some (false, 2), seeds⟩) s = .next t ∧ (hwsPort t p.val).state = 2 ∧
        (hwsPort t p.val).rate = 1 ∧ (hwsPort t p.val).width = 3 ∧ (hwsPort t p.val).trained = true ∧ (hwsPort t p.val).expect = 0 ∧
        (hwsPort t p.val).rx = seeds ∧
        (p.val < 6 → (hwsPort t p.val).tx = (List.range 4).map (Config.hwsSeed p.val) ∧ (ownPkg s, p.val) ∉ t.hws.down)) ∧
    (∀ (fast : Bool) (w : Fin 3) (seeds : List (BitVec 31)), x.trained = true → x.full = false → x.waiting = [] → x.width = 3 →
      ∃ t, exec (.hwsTrainingComplete p ⟨some (fast, w), seeds⟩) s = .next t ∧ (hwsPort t p.val).state = 2 ∧
        (hwsPort t p.val).rate = x.rate ∧ (hwsPort t p.val).width = w.val + 1 ∧ (hwsPort t p.val).expect = x.expect ∧
        (p.val < 6 → (hwsPort t p.val).held = x.held ∧ (ownPkg s, p.val) ∉ t.hws.down)) ∧
    (∀ (seeds : List (BitVec 31)), x.trained = false → ∃ t, exec (.hwsTrainingComplete p ⟨none, seeds⟩) s = .next t ∧
      (hwsPort t p.val).state = 5 ∧ (hwsPort t p.val).held = [] ∧ (p.val < 6 → (ownPkg s, p.val) ∈ t.hws.down)))) ∧
  ((∀ (s u : State) (q : QueueNo) (i : Nat) (c : Cmd) (r : Except CmdRes (List Byte)), s.live → startedCmd s q.val i 0x40 = some c →
    rwriteBehind (queue s q.val) i c = false →
    (∀ off, rwriteBad s c = some off → exec (.rwrite q i) s = .next (endCmd s q.val i { status := stBadRequest, detail := off })) ∧
    (rwriteBad s c = none → readBuf s (queue s q.val) c 8 (field c.bytes 8 8) (field c.bytes 24 4) = (u, r) →
      (∀ e, r = .error e → exec (.rwrite q i) s = .next (endCmd u q.val i e)) ∧
      (∀ bs, r = .ok bs →
        (field c.bytes 16 8 / 2 ^ 48 = ownPkg u → field c.bytes 32 8 = 0 →
          (∀ k, k < bs.length → inboundOk u (ownPkg u) (field c.bytes 16 8 % 2 ^ 48 + k) = true) →
          exec (.rwrite q i) s = .next (endCmd (homeWrite u (field c.bytes 16 8 % 2 ^ 48) bs) q.val i { status := stOk, result := bs.length })) ∧
        (field c.bytes 16 8 / 2 ^ 48 ≠ ownPkg u → pairUp s = false → routeTo u (field c.bytes 16 8 / 2 ^ 48) = none →
          exec (.rwrite q i) s = .next (endCmd u q.val i { status := stUnreachable })) ∧
        (∀ d, field c.bytes 16 8 / 2 ^ 48 ≠ ownPkg u → pairUp s = false → routeTo u (field c.bytes 16 8 / 2 ^ 48) = some d →
          u.hws.outTxns = [] → ∃ t o, exec (.rwrite q i) s = .next t ∧ t.hws.outTxns = [o] ∧ o.queue = q.val ∧ o.index = i ∧
            o.dst = field c.bytes 16 8 / 2 ^ 48 ∧ cmdStage t q.val i = some .running ∧ t.mem = u.mem)))) ∧
  (∀ (s : State) (q : QueueNo) (i : Nat) (c : Cmd), s.live → startedCmd s q.val i 0x40 = some c →
    rwriteBehind (queue s q.val) i c = true → exec (.rwrite q i) s = .next s) ∧
  (∀ (s : State) (p : Nat) (m : HwsMsg), s.live → s.power.entering = false →
    (inboxMsg s 0 1 = some (p, m) → dieAwake s (msgDie m) = false → exec .wdata s = .next (wakeDie s (msgDie m))) ∧
    (inboxMsg s 0 1 = some (p, m) → dieAwake s (msgDie m) = true → s.hws.inTxns = [] →
      ((∀ k, k < m.data.length → inboundOk s m.src (m.addr + k) = true) → exec .wdata s =
        .next (putInTxn (homeWrite (dropInbox s (p, m)) m.addr m.data)
          { src := m.src, txn := m.txn, pieces := 1, bytes := m.data.length })) ∧
      ((∀ k, k < m.data.length → inboundOk s m.src (m.addr + k) = false) → m.data ≠ [] → ∃ t, exec .wdata s = .next t ∧ t.mem = s.mem ∧
        t.uc = s.uc ∧ t.hws.inTxns = [{ src := m.src, txn := m.txn, pieces := 1, denied := true }])) ∧
    (inboxMsg s 0 2 = some (p, m) → s.power.deep = false → s.hws.inTxns = [] → field m.data 0 4 ≠ 0 →
      exec .close s = .next (putInTxn (dropInbox s (p, m)) { src := m.src, txn := m.txn, close := some (m.addr, field m.data 0 4) }))) ∧
  (∀ (s : State) (p : Nat) (m : HwsMsg) (t : InTxn), s.live → s.power.deep = false → s.power.entering = false →
    inboxMsg s 0 2 = some (p, m) → s.hws.inTxns = [t] → t.src = m.src → t.txn = m.txn → t.pieces = field m.data 0 4 → m.addr = 0 →
    pairUp s = false → routeTo s m.src = none →
    ∃ u, exec .close s = .next u ∧ u.hws.inTxns = [] ∧ u.hws.inbox = s.hws.inbox.erase (p, m) ∧ u.mem = s.mem) ∧
  (∀ (s : State) (p : Nat) (m : HwsMsg) (o : OutTxn) (c : Cmd), s.live → inboxMsg s 1 1 = some (p, m) → s.hws.outTxns = [o] →
    o.txn = m.txn → o.dst = m.src → findCmd (queue s o.queue) o.index = some c → m.addr % 2 ^ 16 ≠ stRemoteDenied →
    ∃ t, exec .wdone s = .next t ∧ t.hws.outTxns = [] ∧ t.hws.inbox = s.hws.inbox.erase (p, m) ∧
      cmdStage t o.queue o.index = some (.ended { status := m.addr % 2 ^ 16, result := m.addr / 2 ^ 16 % 2 ^ 32 }) ∧ t.mem = s.mem) ∧
  (∀ (s : State) (q : QueueNo) (i : Nat) (o : OutTxn) (c : Cmd), s.live → s.hws.outTxns = [o] → o.queue = q.val → o.index = i →
    findCmd (queue s q.val) i = some c →
    ∃ t, exec (.e2eTimerExpiry q i) s = .next t ∧ t.hws.outTxns = [] ∧
      cmdStage t q.val i = some (.ended { status := stUnreachable, detail := 1 }) ∧ t.mem = s.mem) ∧
  (∀ (s : State) (src txn : Nat), s.live → ∃ t, exec (.inboundTxnTimeout src txn) s = .next t ∧ t.mem = s.mem ∧
    ∀ u, u ∈ t.hws.inTxns ↔ u ∈ s.hws.inTxns ∧ ¬(u.src = src ∧ u.txn = txn)) ∧
  (∀ (s : State) (q : QueueNo) (i : Nat) (c : Cmd), s.live → startedCmd s q.val i 0x41 = some c →
    (inTorus s (field c.bytes 8 2) = false → exec (.rfence q i) s = .next (endCmd s q.val i { status := stBadRequest, detail := 8 })) ∧
    (inTorus s (field c.bytes 8 2) = true →
      (((queue s q.val).cmds.takeWhile fun d => d.index != i).all (fun d => cmdOpcode d ≠ 0x40) = true →
        exec (.rfence q i) s = .next (endCmd s q.val i { status := stOk })) ∧
      (∀ d ds, (queue s q.val).cmds = d :: ds → d.index ≠ i → cmdOpcode d = 0x40 → field d.bytes 16 8 / 2 ^ 48 = field c.bytes 8 2 →
        exec (.rfence q i) s = .next s))) ∧
  (∀ (s : State) (m : Nat × HwsMsg) (pkg : Nat) (d : Fin 6), s.live → inboxMsg s 3 1 = some m →
    (∃ t, exec (.pcfMessage [(pkg, d, true)]) s = .next t ∧ (pkg, d.val) ∉ t.hws.down ∧ t.hws.inbox = s.hws.inbox.erase m) ∧
    (∃ t, exec (.pcfMessage [(pkg, d, false)]) s = .next t ∧ (pkg, d.val) ∈ t.hws.down ∧ t.hws.inbox = s.hws.inbox.erase m)))

/-- O49. A live heartbeat is noted with its time and takes a SUSPECT package back to PAIRED; a stale one is not counted as live. A partner
dead for TWIN_DEAD_MS leaves a paired package SUSPECT and a forming one where it started. A FENCE of this pair's other side is accepted, and
the package is FENCED, unless it is side 0 and suspects or promotes itself; another pair's is counted. FENCE_ACK, or no refusal in time,
leads to PROMOTING. The sessions of a fenced package become shadows. A live heartbeat on the Cleat bus alone leaves a pair LINK_LOST, one of
a detached partner leaves it SOLO, and one of the same cycle comes before the expiry. (16 Twin pairs, failover and in-service repair;
model's choice: log entry 43) -/
def Obligations.TwinHeartbeatsAndFences : Prop :=
  (∀ (s : State) (chan : Nat) (m : HwsMsg), s.live → inboxMsg s 2 0 = some (chan, m) → chan < 8 → bits m.addr 32 8 ≠ 8 → s.twin.state = 4 →
    ((∀ h ∈ s.twin.heard, h.1 ≠ chan ∨ h.2 ≠ m.addr % 2 ^ 32) → ∃ t, exec .hb s = .next t ∧ t.twin.state = 2 ∧
      tget 0 t.twin.heardAt chan = s.hubTime ∧ tget 0 t.twin.heard chan = m.addr % 2 ^ 32 ∧ t.hws.inbox = s.hws.inbox.erase (chan, m)) ∧
    ((chan, m.addr % 2 ^ 32) ∈ s.twin.heard → ∃ t, exec .hb s = .next t ∧ t.twin.state = 4 ∧ t.twin.heardAt = s.twin.heardAt)) ∧
  (∀ (s : State) (chan : Nat) (m : HwsMsg), s.live → inboxMsg s 2 0 = some (chan, m) → s.twin.state = 2 →
    (chan = 8 → portsOut s = true → bits m.addr 32 8 ≠ 8 → (∀ h ∈ s.twin.heard, h.1 ≠ chan ∨ h.2 ≠ m.addr % 2 ^ 32) →
      ∃ t, exec .hb s = .next t ∧ t.twin.state = 3 ∧ tget 0 t.twin.heardAt 8 = s.hubTime) ∧
    (chan < 8 → bits m.addr 32 8 = 8 → shadowSessions s = [] → ∃ t, exec .hb s = .next t ∧ t.twin.state = 6)) ∧
  (∀ s : State, s.live →
    (heardNow s = true → exec .twinDeadTimeout s = .next s) ∧
    (s.start.phase ≠ .reset → s.start.phase ≠ .rom → ∃ t, exec .heartbeatTick s = .next t ∧ t.twin = { s.twin with hbSeq := s.twin.hbSeq + 1 } ∧
      t.mem = s.mem) ∧
    (s.start.pcfRunning = true → s.err.fatal = false → exec .liveIncrement s = .next (setTwin s { s.twin with live := s.twin.live + 1 })) ∧
    (heardNow s = false → (s.twin.state = 2 ∨ s.twin.state = 3) → ∃ t, exec .twinDeadTimeout s = .next t ∧ t.twin.state = 4 ∧
      t.twin.refused = false ∧ t.power.scp = true) ∧
    (∀ a, heardNow s = false → s.twin.state = 1 → s.twin.act = some a →
      ∃ t, exec .twinDeadTimeout s = .next t ∧ t.twin.state = a.prev ∧ t.twin.act = none) ∧
    (s.twin.state = 4 → ∃ t, exec .fenceResendTick s = .next t ∧ t.twin = s.twin ∧ t.mem = s.mem) ∧
    (s.twin.state = 4 → s.twin.refused = false → ∃ t, exec .fenceAnswerTimeout s = .next t ∧ t.twin = { s.twin with state := 5 }) ∧
    (s.twin.refused = true → exec .fenceAnswerTimeout s = .next s)) ∧
  (∀ (s : State) (chan : Nat) (m : HwsMsg), s.live → inboxMsg s 2 1 = some (chan, m) →
    (identWritten s = true → m.addr % 2 ^ 32 = ownPair s → bits m.addr 32 8 ≠ ownSide s →
      (ownSide s ≠ 0 ∨ (s.twin.state ≠ 4 ∧ s.twin.state ≠ 5) → ∃ t, exec .twinFence s = .next t ∧ t.twin.state = 9 ∧ t.twin.fenced = true ∧
        t.power.scp = true) ∧
      (ownSide s = 0 → (s.twin.state = 4 ∨ s.twin.state = 5) → ∃ t, exec .twinFence s = .next t ∧ t.twin = s.twin)) ∧
    (identWritten s = true → m.addr % 2 ^ 32 = ownPair s → bits m.addr 32 8 = ownSide s →
      exec .twinFence s = .next (dropInbox s (chan, m))) ∧
    (identWritten s = false ∨ m.addr % 2 ^ 32 ≠ ownPair s → exec .twinFence s = .next (bump (dropInbox s (chan, m)) twnFenceBadCnt))) ∧
  (∀ (s : State) (chan : Nat) (m : HwsMsg), s.live → s.twin.state = 4 → m.addr % 2 ^ 32 = ownPair s → bits m.addr 32 8 ≠ ownSide s →
    (inboxMsg s 2 2 = some (chan, m) → ∃ t, exec .fenceAck s = .next t ∧ t.twin = { s.twin with state := 5 }) ∧
    (inboxMsg s 2 3 = some (chan, m) → ∃ t, exec .fenceNak s = .next t ∧ t.twin = { s.twin with refused := true })) ∧
  (∀ (s : State) (n : Nat), s.live → s.twin.fenced = true → s.start.pcfRunning = true → mirroredSessions s = [n] → s.twin.act = none →
    s.twin.detach = none → ∃ t, exec .fencedSessionCleanup s = .next t ∧ (session t n).state = .shadow ∧ (session t n).shOpen = false ∧
      (session t n).m = 0 ∧ (session t n).a = 0 ∧ t.twin = s.twin)

/-- O50. A served PAIR of an unpaired package, or ATTACH of a solo, detached or fenced one, with no action outstanding and no refusing
capability word, is ACCEPTED and stays outstanding until the partner's PAIR_REQ; a compatible one begins the pair, and it is PAIRED when
SYNC_DONE has been sent and received. The wait ends with the action withdrawn. A DETACH of a PAIRED package is ACCEPTED and it is DETACHING;
other states are refused. With no session left it is DETACHED. While paired, SH_OPEN of a free number makes it a shadow with the message's
fields, and of one in use is refused; SH_DATA writes its bytes into the shadow's rows; SH_COMMIT sets C, F and T; SH_END frees it. SH_ACK
sets the mirrored session's A, SH_NAK stops its mirroring. HANDOVER, PROMOTE_REQ and a promoting package make a shadow whose bundle is held,
or outside serving mode, an active session of its owner. With no shadow left a promoting package is SOLO. Outside a pair the messages are
discarded. (03 Control firmware command reference, 16 Twin pairs, failover and in-service repair; model's choices: log entry 43) -/
def Obligations.TwinPairsAndShadows : Prop :=
  ((∀ (s : State) (who : Issuer) (r : Req), Serves s who 0x0603 r →
    (field r.payload 0 1 = 1 → s.twin.state = 0 → s.twin.act = none → peerWord s = none → s.twin.peerReq = none →
      ∃ t, exec (.twinPair who) s = .next t ∧ t.twin.state = 0 ∧
        t.twin.act = some { op := r.op, attach := false, partner := field r.payload 8 8, prev := 0 }) ∧
    (field r.payload 0 1 = 1 → s.twin.state ≠ 0 → exec (.twinPair who) s = .next (refuse s r stWrongState s.twin.state)) ∧
    (field r.payload 0 1 = 3 → (s.twin.state = 6 ∨ s.twin.state = 8 ∨ s.twin.state = 9) → s.twin.act = none → peerWord s = none →
      s.twin.peerReq = none → ∃ t, exec (.twinAttach who) s = .next t ∧ t.twin.state = s.twin.state ∧
        t.twin.act = some { op := r.op, attach := true, partner := field r.payload 8 8, prev := s.twin.state }) ∧
    (∀ w e, field r.payload 0 1 = 1 → s.twin.state = 0 → s.twin.act = none → peerWord s = some w → wordRefusal s w = some e →
      exec (.twinPair who) s = .next (refuse s r e.1 e.2)) ∧
    (field r.payload 0 1 = 2 → s.twin.state = 2 → s.serving.mode = 1 →
      ∃ t, exec (.twinDetach who) s = .next t ∧ t.twin.state = 7 ∧ t.twin.detach = some r.op) ∧
    (field r.payload 0 1 = 2 → s.twin.state ≠ 2 → exec (.twinDetach who) s = .next (refuse s r stWrongState s.twin.state))) ∧
  (∀ (s : State) (chan : Nat) (m : HwsMsg), s.live → inboxMsg s 2 4 = some (chan, m) →
    (s.twin.act = none → ∃ t, exec .pairReq s = .next t ∧ t.twin = { s.twin with peerReq := t.twin.peerReq } ∧ t.twin.peerReq.isSome = true) ∧
    (∀ a, s.twin.act = some a → s.twin.state ≠ 1 → a.partner = 0 → field m.data 0 1 ≠ variantCode s →
      ∃ t, exec .pairReq s = .next t ∧ t.twin.act = none ∧ t.twin.state = s.twin.state) ∧
    (∀ a, s.twin.act = some a → s.twin.state ≠ 1 → a.partner = 0 ∨ a.partner = field m.data 8 8 → field m.data 0 1 = variantCode s →
      identWritten s = true → m.addr % 2 ^ 32 = ownPair s → bits m.addr 32 8 ≠ ownSide s → bits m.addr 32 8 ≠ 0xFF →
      field m.data 1 1 = s.serving.mode → field m.data 2 1 = setting s idKvRowPages → s.sess.table = [] → s.twin.syncRcvd = false →
      s.twin.syncSent = false →
      ∃ t, exec .pairReq s = .next t ∧ t.twin.state = 1 ∧ t.twin.partner = field m.data 8 8 ∧ t.twin.fenced = false ∧ t.twin.act = some a)) ∧
  (∀ (s : State) (chan : Nat) (m : HwsMsg) (a : TwinAct), s.live → inboxMsg s 2 12 = some (chan, m) → s.twin.state = 1 →
    s.twin.fenced = false → s.twin.syncSent = true → s.twin.act = some a →
    ∃ t, exec .syncDone s = .next t ∧ t.twin.state = 2 ∧ t.twin.act = none) ∧
  (∀ (s : State) (a : TwinAct), s.live → s.twin.act = some a → s.twin.state ≠ 1 →
    ∃ t, exec .twinPairWaitTimeout s = .next t ∧ t.twin.act = none ∧ t.twin.state = s.twin.state) ∧
  (∀ (s : State) (op : OpId), s.live → s.twin.state = 7 → s.twin.detach = some op → liveSessions s = [] →
    ∃ t, exec .detachDrainExpiry s = .next t ∧ t.twin.state = 8 ∧ t.twin.detach = none)) ∧
  ((∀ (s : State) (chan n : Nat) (m : HwsMsg), s.live → paired s = true → n = m.addr % 2 ^ 16 → n < 16384 →
    (inboxMsg s 2 5 = some (chan, m) → (session s n).state = .free → ∃ t x, exec .shOpen s = .next t ∧ session t n = x ∧ x.state = .shadow ∧
      x.owner = bits m.addr 16 8 ∧ x.network = bits m.addr 24 8 ∧ x.home = bits m.addr 32 8 % 8 ∧ x.sflags = bits m.addr 40 8 ∧
      x.maxTokens = field m.data 0 4 ∧ x.userTag = field m.data 8 8 ∧ x.c = 0 ∧ x.rowMap = [] ∧
      (∀ k, k ≠ n → session t k = session s k) ∧ t.mem = s.mem) ∧
    (inboxMsg s 2 5 = some (chan, m) → (session s n).state ≠ .free → s.twin.state ≠ 1 →
      ∃ t, exec .shOpen s = .next t ∧ t.sess = s.sess ∧ t.twin = s.twin ∧ t.mem = s.mem) ∧
    (∀ b a, inboxMsg s 2 6 = some (chan, m) → (session s n).state = .shadow → m.data = [b] →
      (session s n).rowMap.any (fun r => r.1 == m.addr / 2 ^ 16 % 2 ^ 32 / kvSpan (session s n).net) = true →
      posByte s (session s n) (m.txn % 256) (m.addr / 2 ^ 16 % 2 ^ 32) (m.txn / 256 % 256 * 256) = some a →
      exec .shData s = .next (homeWrite (dropInbox s (chan, m)) a [b])) ∧
    (inboxMsg s 2 7 = some (chan, m) → (session s n).state = .shadow → ∃ t, exec .shCommit s = .next t ∧ session t n = { session s n with
      c := m.addr / 2 ^ 16 % 2 ^ 32, f := m.addr / 2 ^ 16 % 2 ^ 32, t := m.addr / 2 ^ 16 % 2 ^ 32 } ∧ t.mem = s.mem) ∧
    (inboxMsg s 2 8 = some (chan, m) → (session s n).state = .shadow →
      ∃ t, exec .shEnd s = .next t ∧ (session t n).state = .free) ∧
    (inboxMsg s 2 13 = some (chan, m) → isMirrored (session s n) = true → s.twin.state ≠ 1 → ∃ t, exec .shAck s = .next t ∧
      session t n = { session s n with a := m.addr / 2 ^ 16 % 2 ^ 32 } ∧ t.twin = s.twin) ∧
    (inboxMsg s 2 9 = some (chan, m) → isMirrored (session s n) = true → (session s n).mirrorLost = false → s.twin.state ≠ 1 →
      ∃ t, exec .shNak s = .next t ∧ session t n = { session s n with mirrorLost := true } ∧ t.twin = s.twin) ∧
    (∀ b, (session s n).state = .shadow → (session s n).owner = 0 → (session s n).rowMap = [] →
      halfBundle s (decide ((session s n).home < 4)) (session s n).bundleDigest = some b →
      (∀ t, (inboxMsg s 2 10 = some (chan, m) ∧ exec .handover s = .next t) ∨ (inboxMsg s 2 11 = some (chan, m) ∧ exec .promoteReq s = .next t) →
        (session t n).state = .active ∧ (session t n).owner = 0 ∧ (session t n).resv = .none ∧ (session t n).bundle = b.handle) ∧
      (∃ t, exec .handover s = .next t) ∧ (∃ t, exec .promoteReq s = .next t))) ∧
  (∀ s : State, s.live → s.twin.state = 5 →
    (shadowSessions s = [] → ∃ t, exec .promoteShadow s = .next t ∧ t.twin = { s.twin with state := 6 } ∧ t.sess = s.sess) ∧
    (∀ n, shadowSessions s = [n] → (session s n).owner = 0 → (session s n).rowMap = [] → s.serving.mode ≠ 1 →
      ∃ t, exec .promoteShadow s = .next t ∧ (session t n).state = .active)) ∧
  (∀ (s : State) (pm : Nat × HwsMsg) (ty : Nat), s.live → paired s = false → 5 ≤ ty → inboxMsg s 2 ty = some pm →
    (ty = 5 → exec .shOpen s = .next (dropInbox s pm)) ∧ (ty = 6 → exec .shData s = .next (dropInbox s pm)) ∧
    (ty = 7 → exec .shCommit s = .next (dropInbox s pm)) ∧ (ty = 8 → exec .shEnd s = .next (dropInbox s pm)) ∧
    (ty = 9 → exec .shNak s = .next (dropInbox s pm)) ∧ (ty = 10 → exec .handover s = .next (dropInbox s pm)) ∧
    (ty = 11 → exec .promoteReq s = .next (dropInbox s pm)) ∧ (ty = 12 → exec .syncDone s = .next (dropInbox s pm)) ∧
    (ty = 13 → exec .shAck s = .next (dropInbox s pm))))

/-- O51. TENANT_CONFIG of a VF that is not enabled is refused with WRONG_STATE. For an enabled VF that is unconfigured or running, with no
operation and no reset, a configuration that can be placed is answered with its tags: where no range grows it is in force at once and the
tenant runs; where one grows the command is ACCEPTED, and the end of the zero-fill puts the quotas in force. (03 Control firmware command
reference, 17 Tenants, virtual functions and migration) -/
def Obligations.TenantsAreConfigured : Prop :=
  (∀ (s : State) (who : Issuer) (r : Req) (v : Nat), Serves s who 0x0501 r → s.power.deep = false → v = field r.payload 0 1 →
    (fnEnabled s v = false → exec (.tenantConfig who) s = .next (refuse s r stWrongState 0)) ∧
    (∀ c, fnEnabled s v = true → (tenant s v).state = .unconfigured ∨ (tenant s v).state = .running → (tenant s v).op = none →
      (tenant s v).resetting = none → planCfg s v r.payload = .ok c →
      (fillsRange (tenant s v).cfg c = false → ∃ t, exec (.tenantConfig who) s =
          .next (okWith t r (leBytes 2 c.asidBase ++ leBytes 2 c.asidCount)) ∧ (tenant t v).cfg = c ∧ (tenant t v).state = .running) ∧
      (fillsRange (tenant s v).cfg c = true → ∃ t, exec (.tenantConfig who) s =
          .next (acceptedWith t r (leBytes 2 c.asidBase ++ leBytes 2 c.asidCount)) ∧
        (tenant t v).op = some { op := some r.op, cfg := some c }))) ∧
  (∀ (s : State) (fn : FnNo) (o : TenantOp) (op : OpId) (c : TenantCfg), s.live → pcfUp s = true → (tenant s fn.val).op = some o →
    o.op = some op → o.cfg = some c →
    ∃ t, exec (.rangeZeroFillComplete fn) s = .next t ∧ (tenant t fn.val).cfg = c ∧ (tenant t fn.val).op = none ∧
      ((tenant s fn.val).state = .unconfigured → (tenant t fn.val).state = .running) ∧
      ((∀ st, (pool s st).wait = []) → t.mem = s.mem ∧ t.sess = s.sess))

/-- O52. FREEZE of a running tenant without an operation is ACCEPTED: the tenant is freezing and its turns leave the admission queue. Once
its commands have ended it is frozen, and so is its session; a launch still running at the limit is stopped with DEVICE_ERROR. THAW makes a
frozen tenant run and, outside serving mode, its frozen sessions active. The dirty log starts on a configured tenant and stops. (03 Control
firmware command reference, 17 Tenants, virtual functions and migration) -/
def Obligations.TenantsFreezeAndThaw : Prop :=
  (∀ (s : State) (who : Issuer) (r : Req) (v : Nat), Serves s who 0x0502 r → v = field r.payload 0 1 →
    (field r.payload 1 1 = 1 → (tenant s v).state = .running → (tenant s v).op = none → (tenant s v).resetting = none →
      ∃ t, exec (.freeze who) s = .next (acceptedWith t r (zeros 8)) ∧ (tenant t v).state = .freezing ∧
        (tenant t v).op = some { op := some r.op } ∧ (∀ n ∈ t.serving.admq, n ∈ s.serving.admq ∧ (session s n).owner ≠ v) ∧
        (∀ n ∈ s.serving.admq, (session s n).owner ≠ v → n ∈ t.serving.admq) ∧ t.mem = s.mem ∧ t.sess = s.sess) ∧
    (field r.payload 1 1 = 2 → (tenant s v).state = .frozen → (tenant s v).op = none → (tenant s v).resetting = none →
      ∃ t, exec (.thaw who) s = .next t ∧ (tenant t v).state = .running ∧ (tenant t v).heldTurns = [] ∧
        (s.serving.mode ≠ 1 → (tenant s v).heldTurns = [] → t.mem = s.mem ∧
          ∀ n, session t n = if n ∈ tenantSessions s v ∧ (session s n).state = .frozen then { session s n with state := .active }
            else session s n)) ∧
    (field r.payload 1 1 = 5 → (tenant s v).state ≠ .unconfigured → (tenant s v).log = none → exec (.startDirtyLog who) s = .next
      (okWith (setTenant s v { tenant s v with log := some (field r.payload 8 8, field r.payload 24 8, field r.payload 32 8) }) r (zeros 8))) ∧
    (field r.payload 1 1 = 6 →
      exec (.stopDirtyLog who) s = .next (okWith (setTenant s v { tenant s v with log := none }) r (zeros 8)))) ∧
  (∀ (s : State) (fn : FnNo) (o : TenantOp) (op : OpId), s.live → (tenant s fn.val).state = .freezing →
    (pcfUp s = true → (tenant s fn.val).op = some o → o.op = some op → tenantDrained s fn.val = true → tenantInStep s fn.val = false →
      ∃ t, exec (.freezeQuiesceComplete fn) s = .next t ∧ (tenant t fn.val).state = .frozen ∧
        (∀ n, tenantSessions s fn.val = [n] → (session s n).state = .active → (session s n).resv = .none → isMirrored (session s n) = false →
          session t n = { session s n with state := .frozen })) ∧
    (∀ p, tenantLaunches s fn.val = [p] → ∃ t x d, exec (.freezeLimitExpiry fn) s = .next t ∧ tget x t.eng.launches p.1 =
        { p.2 with stopping := some { status := stDeviceError, detail := d, error := true } } ∧ t.mem = s.mem ∧ t.sess = s.sess) ∧
    (tenantLaunches s fn.val = [] → exec (.freezeLimitExpiry fn) s = .next s))

/-- O53. SAVE of a frozen tenant into a buffer that is too small is refused with QUOTA and BLOB_BYTES; else it is ACCEPTED, and its end
leaves the blob in host memory and the tenant frozen. RESTORE is ACCEPTED; with no whole blob, or one that does not fit the package, its end
gives the tenant its earlier state and changes no session or memory; a blob whose configuration and sessions can be placed leaves the tenant
running. (03 Control firmware command reference, 17 Tenants, virtual functions and migration) -/
def Obligations.TenantsAreSavedAndRestored : Prop :=
  (∀ (s : State) (who : Issuer) (r : Req) (v : Nat), Serves s who 0x0502 r → s.power.deep = false → v = field r.payload 0 1 →
    (tenant s v).op = none → (tenant s v).resetting = none →
    (field r.payload 1 1 = 3 → (tenant s v).state = .frozen →
      (field r.payload 16 8 < (blobOf s v).length →
        exec (.save who) s = .next (answer s r { status := stQuota, payload := leBytes 8 (blobOf s v).length })) ∧
      ((blobOf s v).length ≤ field r.payload 16 8 →
        ∃ t, exec (.save who) s = .next (acceptedWith t r (leBytes 8 (blobOf s v).length)) ∧ (tenant t v).state = .saving ∧
          (tenant t v).op = some { op := some r.op, bufAddr := field r.payload 8 8, bufBytes := field r.payload 16 8, blob := blobOf s v } ∧
          t.mem = s.mem ∧ t.sess = s.sess)) ∧
    (field r.payload 1 1 = 4 → fnEnabled s v = true → (tenant s v).state = .frozen ∨ (tenant s v).state = .unconfigured →
      ∃ t, exec (.restore who) s = .next (acceptedWith t r (zeros 8)) ∧ (tenant t v).state = .restoring ∧
        (tenant t v).op = some { op := some r.op, bufAddr := field r.payload 8 8, bufBytes := field r.payload 16 8,
                                 prior := (tenant s v).state } ∧ t.mem = s.mem ∧ t.sess = s.sess)) ∧
  (∀ (s : State) (fn : FnNo) (o : TenantOp) (op : OpId), s.live → pcfUp s = true → (tenant s fn.val).op = some o → o.op = some op →
    ((tenant s fn.val).state = .saving →
      ∃ t, exec (.saveComplete fn) s = .next t ∧ (tenant t fn.val).state = .frozen ∧ (tenant t fn.val).op = none ∧ t.mem = s.mem ∧
        (s.rings = [] → mread t.hostMem o.bufAddr o.blob.length = o.blob ∧ ((tenant s 0).log = none → ∀ a, a < o.bufAddr ∨ o.bufAddr + o.blob.length ≤ a →
          mget t.hostMem a = mget s.hostMem a))) ∧
    ((tenant s fn.val).state = .restoring →
      ((∀ x, readBlob s o.bufAddr o.bufBytes = some x → blobFits s x.1 x.2 = false) →
        ∃ t, exec (.restoreComplete fn) s = .next t ∧ (tenant t fn.val).state = o.prior ∧ (tenant t fn.val).op = none ∧ t.mem = s.mem ∧
          t.sess = s.sess) ∧
      (∀ h l p c s1 s3, readBlob s o.bufAddr o.bufBytes = some (h, l) → blobFits s h l = true → s1 = discardTenant s fn.val →
        p = (((secsOf l 1).headD { type := 1, index := 0, bytes := [] }).bytes.drop 16).take 44 →
        ((layoutOf s1 { who := 0, seq := 0, hdr := { opcode := 0x0501, length := 44 }, payload := p }).find? fun f =>
          f.off ≠ 0 && !f.ok (field p f.off f.size)) = none → planCfg s1 fn.val p = .ok c →
        restoreSessions ((List.range 8).foldl (fun s st => zeroFill s (tget 0 c.base st) (tget 0 c.len st))
          (setTenCfg (placeCfg s1 fn.val c) fn.val c)) fn.val (secsOf l 3) = .ok s3 →
        ∃ t, exec (.restoreComplete fn) s = .next t ∧ (tenant t fn.val).state = .running)))

/-- O54. A reset of an enabled VF takes its mailbox to IDLE with nothing outstanding and FW_READY 0, keeping SEQ, ends an operation other
than a configuration, and marks the tenant. A launch that runs past the limit is stopped. Once every started command has ended, the reset's
end leaves no open queue and no ring; FW_READY returns; a VF whose VF Enable was cleared is unconfigured with no quota. (02 Host attachment,
register windows and mailboxes, 17 Tenants, virtual functions and migration) -/
def Obligations.VfsAreReset : Prop :=
  (∀ (s : State) (fn : FnNo), s.live → fn.val ≠ 0 → s.start.hubReady = true → fnEnabled s fn.val = true → (tenant s fn.val).resetting = none →
    ∃ t, exec (.vfFunctionLevelReset fn) s = .next t ∧ (tenant t fn.val).resetting = some .running ∧ (mbx t fn.val).state = .idle ∧
      (mbx t fn.val).outstanding = none ∧ (mbx t fn.val).fwReady = false ∧ (mbx t fn.val).seq = (mbx s fn.val).seq ∧
      (∀ o, (tenant s fn.val).op = some o → (tenant t fn.val).op = if o.cfg.isSome then some o else none) ∧
      (∀ n, n ≠ fn.val → mbx t n = mbx s n) ∧ t.mem = s.mem ∧ t.sess = s.sess) ∧
  (∀ (s : State) (fn : FnNo) (target : TenState), s.live → (tenant s fn.val).resetting = some target →
    (∀ p, tenantLaunches s fn.val = [p] → exec (.flrLaunchTimeout fn) s =
      .next (setLaunch s p.1 { p.2 with stopping := some { status := stDeviceError, error := true } })) ∧
    (resetDrained s fn.val = true → s.start.pcfRunning = true →
      (target = .unconfigured → ∀ p ∈ s.tenants, p.1 < fn.val → p.2.resetting ≠ some .unconfigured) →
      ∃ t, exec (.vfResetComplete fn) s = .next t ∧ (tenant t fn.val).resetting = none ∧ openQueues t fn.val = [] ∧
        t.rings.all (fun p => p.1 != fn.val) = true ∧ (mbx t fn.val).fwReady = vfReady s fn.val ∧
        (target = .unconfigured → (tenant t fn.val).state = .unconfigured ∧ (tenant t fn.val).cfg = {})))

/-- O55. An enabled receiver discards a character with a bad stop bit or parity and sets its error flag. A matching address character
unmutes it and is held; a data character outside a frame enters the receive FIFO, or is dropped and counted when that is full; a muted
receiver drops it. A break sets its flag. A gap discards what is held or under way and sets ENV, unless a character completed in the same
cycle. A receiver that does not hear the bus is unchanged. (20 Cleat management port; model's choices: log entry 54) -/
def Obligations.CleatReceivesCharacters : Prop :=
  (∀ (s : State) (c : BitVec 9) (f p : Bool), s.live →
    (hears s = false → exec (.cleatCharacter c f p) s = .next s ∧ exec .cleatBreak s = .next s) ∧
    (hears s = true →
      exec (.cleatCharacter c true p) s = .next (cleatError (lineHeard s) 0) ∧
      exec .cleatBreak s = .next (cleatError (lineHeard s) 2) ∧
      (bits (reg s cleatFmt).toNat 2 2 ≠ 0 → exec (.cleatCharacter c false true) s = .next (cleatError (lineHeard s) 1)) ∧
      (nineBit s = true → 256 ≤ c.toNat → addrMatch s (c.toNat % 256) = true →
        ∃ t, exec (.cleatCharacter c false false) s = .next t ∧ t.cleat.hold = [c.toNat] ∧ cleatBit t 2 = false ∧
          t.cleat.rx = s.cleat.rx ∧ t.cleat.into = 0 ∧ t.mem = s.mem) ∧
      (c.toNat < 256 → cleatBit s 2 = true →
        exec (.cleatCharacter c false false) s =
          .next (setCleat s { s.cleat with lineBusy := true, waitCts := false, heardAt := some s.hubTime })) ∧
      (c.toNat < 256 → cleatBit s 2 = false → s.cleat.hold = [] → s.cleat.into = 0 →
        (s.cleat.rx.length < 64 → ∃ t, exec (.cleatCharacter c false false) s = .next t ∧ t.cleat.rx = s.cleat.rx ++ [c.toNat] ∧
          t.cleat.tx = s.cleat.tx ∧ t.regs = s.regs ∧ t.mem = s.mem) ∧
        (64 ≤ s.cleat.rx.length → ∃ t, exec (.cleatCharacter c false false) s = .next t ∧ t.cleat.rx = s.cleat.rx ∧
          (reg t cleatErr).getLsbD 5 = true ∧ (reg t cleatDropCnt).toNat = min ((reg s cleatDropCnt).toNat + 1) (2 ^ 32 - 1))))) ∧
  (∀ s : State, s.live → s.cleat.heardAt = some s.hubTime → exec .cleatGapExpiry s = .next s) ∧
  (∀ s : State, s.live → s.cleat.heardAt ≠ some s.hubTime →
    (s.cleat.hold ≠ [] → exec .cleatGapExpiry s = .next (envError (setCleat s { s.cleat with hold := [] }))) ∧
    (s.cleat.hold = [] → s.cleat.into = 2 →
      exec .cleatGapExpiry s = .next (envError (setCleat s { s.cleat with twinAsm := [], into := 3 }))) ∧
    (s.cleat.hold = [] → s.cleat.into = 1 → ∃ t, exec .cleatGapExpiry s = .next t ∧ t.cleat.into = 0 ∧ t.cleat.rx = s.cleat.rx ∧
      (reg t cleatErr).getLsbD 3 = true) ∧
    (s.cleat.hold = [] → s.cleat.into = 0 → exec .cleatGapExpiry s = .next s)) ∧
  (∀ (s : State) (low : Bool), s.live → ballsTaken s = false → low = false ∨ s.cleat.waitCts = false →
    exec (.cleatCtsChange low) s = .next (setCleat s { s.cleat with ctsLow := low }))

/-- O56. A complete request that was answered before is answered again alike; a second one of a source that is being served is answered
BUSY; one that passes the checks is served. A claim of the own address by another node is answered. A frame with the node's own SRC locks
the port and is flagged. A good twin frame of the peer reaches the twin unit, and a bad one, or one of another node or type, sets ENV. In
8-bit format, with a duplicate address or under test a request is dropped. (20 Cleat management port; model's choices: log entry 54) -/
def Obligations.CleatFramesReachPcf : Prop :=
  (∀ (s : State) (q : CleatReq) (rest : List CleatReq), s.live → pcfUp s = true → s.cleat.reqs = q :: rest → busMute s = true →
    exec .cleatRequest s = .next (setCleat s { s.cleat with reqs := rest })) ∧
  (∀ (s : State) (q : CleatReq) (rest : List CleatReq), s.live → pcfUp s = true → s.cleat.reqs = q :: rest → busMute s = false →
    (∀ k, s.cleat.kept.find? (fun k => k.src == q.src && k.seq == q.seq) = some k →
      exec .cleatRequest s = .next (cleatRespond (setCleat s { s.cleat with reqs := rest }) q.src q.seq q.broadcast k.bytes)) ∧
    (s.cleat.kept.find? (fun k => k.src == q.src && k.seq == q.seq) = none →
      (∀ x, s.cleat.running.find? (fun x => x.src == q.src) = some x → x.seq ≠ q.seq →
        exec .cleatRequest s = .next (busAnswer (setCleat s { s.cleat with reqs := rest }) q
          { status := stBusy, detail := (frameHdr x.bytes).opcode })) ∧
      (s.cleat.running.find? (fun x => x.src == q.src) = none → preCheck (setCleat s { s.cleat with reqs := rest }) (busReq q) = none →
        exec .cleatRequest s = .next (setCleat s { s.cleat with reqs := rest, running := s.cleat.running ++ [q] })))) ∧
  (∀ (s : State) (f : CleatFrame) (rest : List CleatFrame), s.live → pcfUp s = true → s.cleat.frames = f :: rest →
    (f.type = 4 → f.src ≠ cleatOwn s → f.dst ≠ cleatOwn s → exec .claim s = .next (setCleat s { s.cleat with frames := rest })) ∧
    (f.type = 4 → f.src ≠ cleatOwn s → f.dst = cleatOwn s → exec .claim s =
      .next (cleatSend (setCleat s { s.cleat with frames := rest }) [cleatChars (cleatOwn s) (cleatOwn s) 5 f.seq 128 []])) ∧
    (f.type ≠ 4 → f.src ≠ cleatOwn s → exec .claimReply s = .next (setCleat s { s.cleat with frames := rest })) ∧
    (f.src = cleatOwn s → ∃ t, (if f.type = 4 then exec .claim s else exec .claimReply s) = .next t ∧ t.cleat.dupLock = true ∧
      t.cleat.frames = rest ∧ t.cleat.twinOut = [] ∧ (reg t cleatErr).getLsbD 7 = true ∧ t.mem = s.mem)) ∧
  (∀ (s : State) (cs : List Nat) (rest : List (List Nat)), s.live → s.cleat.twinIn = cs :: rest →
    (busFrameGood cs = false → exec .cleatTwinFrame s = .next (envError (setCleat s { s.cleat with twinIn := rest }))) ∧
    (busFrameGood cs = true → (parseFrame cs).src ≠ cleatOwn s → busMute s = true →
      exec .cleatTwinFrame s = .next (bump (setCleat s { s.cleat with twinIn := rest }) cleatFrameCnt)) ∧
    (busFrameGood cs = true → (parseFrame cs).src ≠ cleatOwn s → busMute s = false →
      (parseFrame cs).src ≠ cleatPeer s ∨ cleatPeer s = 0xFF ∨ 3 < field (parseFrame cs).payload 0 1 →
      exec .cleatTwinFrame s = .next (envError (bump (setCleat s { s.cleat with twinIn := rest }) cleatFrameCnt))) ∧
    (busFrameGood cs = true → (parseFrame cs).src ≠ cleatOwn s → (parseFrame cs).src = cleatPeer s → cleatPeer s ≠ 0xFF → busMute s = false →
      field (parseFrame cs).payload 0 1 ≤ 3 →
      ∃ t m, exec .cleatTwinFrame s = .next t ∧ t.hws.inbox = s.hws.inbox ++ [(8, m)] ∧ m.type = field (parseFrame cs).payload 0 1 ∧
        m.txn = (parseFrame cs).seq ∧ m.addr % 2 ^ 32 = field (parseFrame cs).payload 1 4 ∧ t.cleat.twinIn = rest ∧
        (reg t cleatFrameCnt).toNat = min ((reg s cleatFrameCnt).toNat + 1) (2 ^ 32 - 1)))

/-- O57. With the window open a full-width host write of CLEAT_TX_DATA puts the character at the end of the transmit FIFO, and SEND releases
what it holds; with the window closed HUB_ERR reports it and the FIFO stays. PCF writes the next character of its frame, or starts the next
frame, and releases it. A host read of CLEAT_RX_DATA answers and removes the oldest character; a PCF read removes it. When the line is free,
an enabled transmitter sends the next frame: the released characters up to the next address character, else a twin frame. A frame sent whole
leaves the port; a collision counts an attempt, and the eighth drops the frame. With CTS_EN and CLEAT_CTS_N high the frame waits, and goes
when it falls. With LOOP set nothing is driven. A partial host write is flagged and changes no FIFO; a value without SEND releases nothing.
(02 Host attachment, register windows and mailboxes, 20 Cleat management port; model's choices: log entry 54) -/
def Obligations.CleatFifosAndFrames : Prop :=
  ((∀ (s : State) (w : Word), s.live → memSpaceOn s 0 = true →
    (windowOpen s 0x480020 = false → exec (.cleatTxDataWrite (some (w, 0xF))) s = .next (hubError s 1 0x480020)) ∧
    (windowOpen s 0x480020 = true → s.cleat.tx.length < 63 →
      exec (.cleatTxDataWrite (some (w, 0xF))) s = .next (setCleat s { s.cleat with tx := s.cleat.tx ++ [w.toNat % 512] })) ∧
    (windowOpen s 0x480020 = true → 64 ≤ s.cleat.tx.length → exec (.cleatTxDataWrite (some (w, 0xF))) s = .next (cleatError s 6)) ∧
    (windowOpen s 0x480020 = true → s.cleat.tx.length = 63 → s.cleat.released = 0 →
      ∃ t, exec (.cleatTxDataWrite (some (w, 0xF))) s = .next t ∧ t.cleat.tx = [] ∧ (reg t cleatErr).getLsbD 6 = true ∧
        (reg t cleatDropCnt).toNat = min ((reg s cleatDropCnt).toNat + 64) (2 ^ 32 - 1)) ∧
    (∀ be : BitVec 4, be ≠ 0xF → windowOpen s 0x480020 = true →
      exec (.cleatTxDataWrite (some (w, be))) s = .next (bar0Size s 0 0x480020)) ∧
    (windowOpen s cleatCtrl = true → ∃ t, exec (.cleatSend (some (w, 0xF))) s = .next t ∧ t.mem = s.mem ∧
      t.cleat = if w.getLsbD 4 then { s.cleat with released := s.cleat.tx.length } else s.cleat) ∧
    (windowOpen s cleatCtrl = false → exec (.cleatSend (some (w, 0xF))) s = .next (hubError s 1 cleatCtrl))) ∧
  (∀ s : State, s.live → pcfUp s = true →
    (s.cleat.writing = [] → exec (.cleatSend none) s = .next (setCleat s { s.cleat with released := s.cleat.tx.length })) ∧
    (nineBit s = true → testing s 3 0 = false → s.cleat.tx.length < 63 →
      (∀ v rest, s.cleat.writing = v :: rest →
        exec (.cleatTxDataWrite none) s = .next (setCleat s { s.cleat with tx := s.cleat.tx ++ [v], writing := rest })) ∧
      (∀ v vs fs, s.cleat.writing = [] → s.cleat.tx.length = s.cleat.released → s.cleat.sends = (v :: vs) :: fs →
        exec (.cleatTxDataWrite none) s =
          .next (setCleat s { s.cleat with tx := s.cleat.tx ++ [v], writing := vs, sends := fs })) ∧
      (∀ n ns, s.cleat.writing = [] → s.cleat.tx.length = s.cleat.released → s.cleat.sends = [] → s.err.notices = n :: ns →
        s.cleat.dupLock = false → setting s idCleatNoticeDest ≠ 0xFF →
        ∃ t, exec (.cleatTxDataWrite none) s = .next t ∧ t.cleat.tx = s.cleat.tx ++ [256 + setting s idCleatNoticeDest % 256] ∧
          t.err.notices = ns)) ∧
    (∀ v rest, s.cleat.rx = v :: rest → ∃ t, exec (.cleatRxDataRead none) s = .next t ∧ t.cleat.rx = rest ∧ t.out = s.out)) ∧
  (∀ (s : State) (v : Nat) (rest : List Nat) (be : BitVec 4), s.live → memSpaceOn s 0 = true → s.cleat.rx = v :: rest →
    ∃ t, exec (.cleatRxDataRead (some be)) s = .next t ∧ t.out = s.out ++ [.completion 0 (readBytes (2 ^ 31 + v) be) false] ∧
      t.cleat.rx = (if windowOpen s 0x48001C then rest else v :: rest) ∧ t.mem = s.mem)) ∧
  (∀ (s : State) (b : Bool), s.live → maySend s = false →
    exec (.cleatTransmitStart b) s = .next (setCleat s { s.cleat with lineBusy := false })) ∧
  (∀ (s : State), s.live → maySend s = true →
    (∀ b, (reg s cleatFlow).getLsbD 31 = true → s.cleat.ctsLow = false →
      exec (.cleatTransmitStart b) s = .next (setCleat s { s.cleat with lineBusy := false, waitCts := (nextTx s).isSome })) ∧
    (∀ cs twin, nextTx s = some (cs, twin) → cleatBit s 5 = false → (reg s cleatFlow).getLsbD 31 = false ∨ s.cleat.ctsLow = true →
      (∃ t, exec (.cleatTransmitStart false) s = .next t ∧ t.out = s.out ++ [.cleatFrame cs] ∧ t.cleat.attempts = 0 ∧
        t.cleat.tx = (if twin then s.cleat.tx else s.cleat.tx.drop cs.length) ∧
        t.cleat.twinOut = (if twin then s.cleat.twinOut.drop 1 else s.cleat.twinOut) ∧ t.cleat.rx = s.cleat.rx ∧ t.regs = s.regs ∧
        t.mem = s.mem) ∧
      (∃ t, exec (.cleatTransmitStart true) s = .next t ∧ t.out = s.out ∧ (reg t cleatErr).getLsbD 4 = true ∧
        (s.cleat.attempts < 7 → t.cleat.attempts = s.cleat.attempts + 1 ∧ t.cleat.tx = s.cleat.tx ∧ t.cleat.twinOut = s.cleat.twinOut) ∧
        (7 ≤ s.cleat.attempts → t.cleat.attempts = 0 ∧ t.cleat.tx = (if twin then s.cleat.tx else s.cleat.tx.drop cs.length)))) ∧
    (∀ b, cleatBit s 5 = true → ∃ t, exec (.cleatTransmitStart b) s = .next t ∧ t.out = s.out) ∧
    (∀ cs twin, nextTx s = some (cs, twin) → cleatBit s 5 = false → s.cleat.waitCts = true → (reg s cleatFlow).getLsbD 31 = true →
      ballsTaken s = false →
      ∃ t, exec (.cleatCtsChange true) s = .next t ∧ t.out = s.out ++ [.cleatFrame cs] ∧ t.cleat.waitCts = false))

/-- O58. At package reset the start is in phase RESET with PCF stopped and the hub not answering, HUB_TIME reads 0, every mailbox is idle
with SEQ 0 and FW_READY 0, every block window is closed, no session, queue, ring or tenant is in use, memory is empty and no command waits.
(02 Host attachment, register windows and mailboxes, 12 Stacked memory and the Skink path, 17 Tenants, virtual functions and migration, 19
Start-up and the settings image) -/
def Obligations.ResetLeavesPhaseReset : Prop :=
  State.reset.live ∧ State.reset.start.phase = .reset ∧ State.reset.start.pcfRunning = false ∧ State.reset.start.hubReady = false ∧
  State.reset.hubTime = 0 ∧ State.reset.windows = 0 ∧ State.reset.pending = [] ∧ State.reset.mem = [] ∧ State.reset.rings = [] ∧
  (∀ n, (mbx State.reset n).state = .idle ∧ (mbx State.reset n).seq = 0 ∧ (mbx State.reset n).fwReady = false ∧
    (mbx State.reset n).held = []) ∧
  (∀ n, (session State.reset n).state = .free) ∧ (∀ q, (queue State.reset q).state = .closed) ∧
  (∀ v, (tenant State.reset v).state = .unconfigured) ∧ State.reset.memoryWf

/-- O59. In every state every command has a next state: the block never faults and refuses nothing, and so no step of it stops. A step on an
empty queue is the always-on cycle of log entry 4, a choice of the model. (95 What each step holds) -/
def Obligations.EveryCommandIsAnswered : Prop :=
  (∀ (c : Sys2Proof.Instr) (s : State), Answers (exec c s)) ∧ (∀ s : State, Answers (step s)) ∧
  (∀ s : State, s.pending = [] → step s = .next (idle s))

/-- O60. If the bytes listed for device memory and for host memory stand at strictly rising addresses, and none of them is the value that an
unlisted byte reads, every step keeps both so, whatever the command and the state. (10 Memory ordering and visibility, 11 Unified cache and
coherence) -/
def Obligations.MemoryKeepsItsForm : Prop :=
  ∀ s t : State, s.memoryWf → step s = .next t → t.memoryWf

end
end

