-- ==== Sys2Proof/Laws/Memory.lean ====
section
/-!
SUPPORT. Sparse tables and memories: what a read gives after a write, and that every operation keeps the canonical form.
-/

namespace Sys2Proof.Machine

/-! ### Tables -/

theorem tget_tput_same {α : Type} (d : α) (t : Tab α) (n : Nat) (x : α) : tget d (tput t n x) n = x := by
  induction t with
  | nil => simp [tput, tget]
  | cons p t ih =>
    obtain ⟨k, v⟩ := p
    simp only [tput]
    split
    · simp [tget]
    · split
      · simp [tget]
      · rw [tget, if_neg (by omega), ih]

theorem tget_tput_other {α : Type} (d : α) (t : Tab α) (n m : Nat) (x : α) (h : m ≠ n) : tget d (tput t n x) m = tget d t m := by
  induction t with
  | nil => simp [tput, tget, Ne.symm h]
  | cons p t ih =>
    obtain ⟨k, v⟩ := p
    simp only [tput]
    split
    · simp [tget, Ne.symm h]
    · split
      · subst_vars; simp [tget, Ne.symm h]
      · simp only [tget, ih]

/-- Every key of a table is above `k`. -/
def tabove {α : Type} (k : Nat) (t : Tab α) : Bool := t.all fun p => k < p.1

theorem tsorted_cons {α : Type} (k : Nat) (v : α) (t : Tab α) : tsorted ((k, v) :: t) = (tabove k t && tsorted t) := by
  induction t generalizing k v with
  | nil => simp [tsorted, tabove]
  | cons p t ih =>
    obtain ⟨k', v'⟩ := p
    simp only [tsorted, tabove, List.all_cons]
    rw [ih k' v']
    by_cases h : k < k'
    · simp only [h, decide_true, Bool.true_and]
      by_cases h2 : tabove k' t = true
      · have : (t.all fun p => decide (k < p.1)) = true := by
          rw [List.all_eq_true]
          intro x hx
          have := List.all_eq_true.mp h2 x hx
          simp only [decide_eq_true_eq] at this ⊢
          omega
        simp [h2, this]
      · simp [Bool.eq_false_iff.mpr h2]
    · simp [h]

theorem tabove_tput {α : Type} (k : Nat) (t : Tab α) (n : Nat) (x : α) (h : tabove k t = true) (hn : k < n) :
    tabove k (tput t n x) = true := by
  induction t with
  | nil => simp [tput, tabove, hn]
  | cons p t ih =>
    obtain ⟨k', v'⟩ := p
    simp only [tabove, List.all_cons, Bool.and_eq_true, decide_eq_true_eq] at h ih
    simp only [tput]
    split
    · simp [tabove, hn]; exact ⟨h.1, by simpa using h.2⟩
    · split
      · simp [tabove, hn]; simpa using h.2
      · simp only [tabove, List.all_cons, Bool.and_eq_true, decide_eq_true_eq]
        exact ⟨h.1, ih h.2⟩

theorem tsorted_tput {α : Type} (t : Tab α) (n : Nat) (x : α) (h : tsorted t = true) : tsorted (tput t n x) = true := by
  induction t with
  | nil => simp [tput, tsorted]
  | cons p t ih =>
    obtain ⟨k, v⟩ := p
    rw [tsorted_cons, Bool.and_eq_true] at h
    simp only [tput]
    split
    next hlt =>
      rw [tsorted_cons, tsorted_cons, h.1, h.2]
      have : tabove n ((k, v) :: t) = true := by
        simp only [tabove, List.all_cons, Bool.and_eq_true, decide_eq_true_eq]
        refine ⟨hlt, ?_⟩
        rw [List.all_eq_true]
        intro y hy
        have := List.all_eq_true.mp h.1 y hy
        simp only [decide_eq_true_eq] at this ⊢
        omega
      simp [this]
    next hge =>
      split
      next heq => subst heq; rw [tsorted_cons, h.1, h.2]; rfl
      next hne =>
        rw [tsorted_cons, Bool.and_eq_true]
        exact ⟨tabove_tput k t n x h.1 (by omega), ih h.2⟩

theorem tdel_eq_filter {α : Type} (t : Tab α) (n : Nat) : tdel t n = t.filter fun p => p.1 != n := by
  induction t with
  | nil => rfl
  | cons p t ih =>
    obtain ⟨k, v⟩ := p
    simp only [tdel, List.filter_cons, ih]
    by_cases h : k = n <;> simp [h]

theorem tabove_filter {α : Type} (k : Nat) (t : Tab α) (f : Nat × α → Bool) (h : tabove k t = true) :
    tabove k (t.filter f) = true := by
  rw [tabove, List.all_eq_true] at h ⊢
  intro x hx
  exact h x (List.mem_filter.mp hx).1

theorem tsorted_filter {α : Type} (t : Tab α) (f : Nat × α → Bool) (h : tsorted t = true) : tsorted (t.filter f) = true := by
  induction t with
  | nil => rfl
  | cons p t ih =>
    obtain ⟨k, v⟩ := p
    rw [tsorted_cons, Bool.and_eq_true] at h
    simp only [List.filter_cons]
    split
    · rw [tsorted_cons, Bool.and_eq_true]; exact ⟨tabove_filter k t f h.1, ih h.2⟩
    · exact ih h.2

theorem tget_of_above {α : Type} (d : α) (t : Tab α) (n : Nat) (h : tabove n t = true) : tget d t n = d := by
  induction t with
  | nil => rfl
  | cons p t ih =>
    obtain ⟨k, v⟩ := p
    simp only [tabove, List.all_cons, Bool.and_eq_true, decide_eq_true_eq] at h
    rw [tget, if_neg (by omega)]
    exact ih (by simpa [tabove] using h.2)

theorem tget_tdel_same {α : Type} (d : α) (t : Tab α) (n : Nat) : tget d (tdel t n) n = d := by
  induction t with
  | nil => rfl
  | cons p t ih =>
    obtain ⟨k, v⟩ := p
    simp only [tdel]
    split
    · exact ih
    · rename_i h; simp [tget, h, ih]

theorem tget_tdel_other {α : Type} (d : α) (t : Tab α) (n m : Nat) (h : m ≠ n) : tget d (tdel t n) m = tget d t m := by
  induction t with
  | nil => rfl
  | cons p t ih =>
    obtain ⟨k, v⟩ := p
    simp only [tdel]
    split
    · rename_i hk; subst hk; rw [ih, tget, if_neg (Ne.symm h)]
    · simp only [tget, ih]

/-! ### Memories -/

theorem tput_all {α : Type} (t : Tab α) (n : Nat) (x : α) (f : Nat × α → Bool) (h : t.all f = true) (hx : f (n, x) = true) :
    (tput t n x).all f = true := by
  induction t with
  | nil => simp [tput, hx]
  | cons p t ih =>
    obtain ⟨k, v⟩ := p
    simp only [List.all_cons, Bool.and_eq_true] at h
    simp only [tput]
    split
    · simp [hx, h.1]; simpa using h.2
    · split
      · simp [hx]; simpa using h.2
      · simp only [List.all_cons, Bool.and_eq_true]; exact ⟨h.1, ih h.2⟩

theorem all_filter_of_all {α : Type} (t : List α) (f g : α → Bool) (h : t.all f = true) : (t.filter g).all f = true := by
  rw [List.all_eq_true] at h ⊢
  intro x hx
  exact h x (List.mem_filter.mp hx).1

/-- Removing entries keeps the canonical form. -/
theorem memory_wf_filter (t : Tab Byte) (f : Nat × Byte → Bool) (h : Memory.wf t = true) : Memory.wf (t.filter f) = true := by
  rw [Memory.wf, Bool.and_eq_true] at h ⊢
  exact ⟨tsorted_filter t f h.1, all_filter_of_all t _ f h.2⟩

/-- A write of one byte keeps the canonical form. -/
theorem memory_wf_mset (t : Tab Byte) (a : Nat) (b : Byte) (h : Memory.wf t = true) : Memory.wf (mset t a b) = true := by
  rw [mset]
  split
  · rw [tdel_eq_filter]; exact memory_wf_filter t _ h
  · rename_i hb
    rw [Memory.wf, Bool.and_eq_true] at h ⊢
    exact ⟨tsorted_tput t a b h.1, tput_all t a b _ h.2 (by simpa using hb)⟩

/-- A write of bytes keeps the canonical form. -/
theorem memory_wf_mwrite (t : Tab Byte) (a : Nat) (bs : List Byte) (h : Memory.wf t = true) : Memory.wf (mwrite t a bs) = true := by
  induction bs generalizing t a with
  | nil => exact h
  | cons b bs ih => exact ih _ _ (memory_wf_mset t a b h)

theorem mget_mset_same (t : Tab Byte) (a : Nat) (b : Byte) : mget (mset t a b) a = b := by
  rw [mset]
  split
  · rename_i h; rw [mget, tget_tdel_same, h]
  · exact tget_tput_same _ _ _ _

theorem mget_mset_other (t : Tab Byte) (a c : Nat) (b : Byte) (h : c ≠ a) : mget (mset t a b) c = mget t c := by
  rw [mset]
  split
  · exact tget_tdel_other _ _ _ _ h
  · exact tget_tput_other _ _ _ _ _ h

theorem mget_mwrite_outside (t : Tab Byte) (a c : Nat) (bs : List Byte) (h : c < a ∨ a + bs.length ≤ c) :
    mget (mwrite t a bs) c = mget t c := by
  induction bs generalizing t a with
  | nil => rfl
  | cons b bs ih =>
    simp only [List.length_cons] at h
    rw [mwrite, ih _ _ (by omega), mget_mset_other _ _ _ _ (by omega)]

/-- A read of what was written gives what was written. -/
theorem mread_mwrite (t : Tab Byte) (a : Nat) (bs : List Byte) : mread (mwrite t a bs) a bs.length = bs := by
  induction bs generalizing t a with
  | nil => rfl
  | cons b bs ih =>
    rw [List.length_cons, mread, mwrite, ih, mget_mwrite_outside _ _ _ _ (by omega), mget_mset_same]

end Sys2Proof.Machine
end

