-- ==== Sys2Proof/Laws/State.lean ====
section
/-!
SUPPORT. What each setter of the state leaves as it was, field by field, and what it sets.
-/

namespace Sys2Proof.Machine

variable (s : State)

@[simp] theorem setReg_fuse (a : Nat) (w : Word) : (setReg s a w).fuse = s.fuse := rfl
@[simp] theorem setReg_board (a : Nat) (w : Word) : (setReg s a w).board = s.board := rfl
@[simp] theorem setReg_start (a : Nat) (w : Word) : (setReg s a w).start = s.start := rfl
@[simp] theorem setReg_dies (a : Nat) (w : Word) : (setReg s a w).dies = s.dies := rfl
@[simp] theorem setReg_stackIds (a : Nat) (w : Word) : (setReg s a w).stackIds = s.stackIds := rfl
@[simp] theorem setReg_pcie (a : Nat) (w : Word) : (setReg s a w).pcie = s.pcie := rfl
@[simp] theorem setReg_mbxs (a : Nat) (w : Word) : (setReg s a w).mbxs = s.mbxs := rfl
@[simp] theorem setReg_rings (a : Nat) (w : Word) : (setReg s a w).rings = s.rings := rfl
@[simp] theorem setReg_regs (a : Nat) (w : Word) : (setReg s a w).regs = tput s.regs a w := rfl
@[simp] theorem setReg_hubTime (a : Nat) (w : Word) : (setReg s a w).hubTime = s.hubTime := rfl
@[simp] theorem setReg_hubTimeHi (a : Nat) (w : Word) : (setReg s a w).hubTimeHi = s.hubTimeHi := rfl
@[simp] theorem setReg_windows (a : Nat) (w : Word) : (setReg s a w).windows = s.windows := rfl
@[simp] theorem setReg_err (a : Nat) (w : Word) : (setReg s a w).err = s.err := rfl
@[simp] theorem setReg_linkResults (a : Nat) (w : Word) : (setReg s a w).linkResults = s.linkResults := rfl
@[simp] theorem setReg_linkTests (a : Nat) (w : Word) : (setReg s a w).linkTests = s.linkTests := rfl
@[simp] theorem setReg_settings (a : Nat) (w : Word) : (setReg s a w).settings = s.settings := rfl
@[simp] theorem setReg_flash (a : Nat) (w : Word) : (setReg s a w).flash = s.flash := rfl
@[simp] theorem setReg_sfc (a : Nat) (w : Word) : (setReg s a w).sfc = s.sfc := rfl
@[simp] theorem setReg_serving (a : Nat) (w : Word) : (setReg s a w).serving = s.serving := rfl
@[simp] theorem setReg_sess (a : Nat) (w : Word) : (setReg s a w).sess = s.sess := rfl
@[simp] theorem setReg_eng (a : Nat) (w : Word) : (setReg s a w).eng = s.eng := rfl
@[simp] theorem setReg_cores (a : Nat) (w : Word) : (setReg s a w).cores = s.cores := rfl
@[simp] theorem setReg_uc (a : Nat) (w : Word) : (setReg s a w).uc = s.uc := rfl
@[simp] theorem setReg_posted (a : Nat) (w : Word) : (setReg s a w).posted = s.posted := rfl
@[simp] theorem setReg_memWaits (a : Nat) (w : Word) : (setReg s a w).memWaits = s.memWaits := rfl
@[simp] theorem setReg_hbm (a : Nat) (w : Word) : (setReg s a w).hbm = s.hbm := rfl
@[simp] theorem setReg_lnt (a : Nat) (w : Word) : (setReg s a w).lnt = s.lnt := rfl
@[simp] theorem setReg_hws (a : Nat) (w : Word) : (setReg s a w).hws = s.hws := rfl
@[simp] theorem setReg_twin (a : Nat) (w : Word) : (setReg s a w).twin = s.twin := rfl
@[simp] theorem setReg_cleat (a : Nat) (w : Word) : (setReg s a w).cleat = s.cleat := rfl
@[simp] theorem setReg_jtag (a : Nat) (w : Word) : (setReg s a w).jtag = s.jtag := rfl
@[simp] theorem setReg_power (a : Nat) (w : Word) : (setReg s a w).power = s.power := rfl
@[simp] theorem setReg_tenants (a : Nat) (w : Word) : (setReg s a w).tenants = s.tenants := rfl
@[simp] theorem setReg_xlat (a : Nat) (w : Word) : (setReg s a w).xlat = s.xlat := rfl
@[simp] theorem setReg_stackPoison (a : Nat) (w : Word) : (setReg s a w).stackPoison = s.stackPoison := rfl
@[simp] theorem setReg_endedOps (a : Nat) (w : Word) : (setReg s a w).endedOps = s.endedOps := rfl
@[simp] theorem setReg_mem (a : Nat) (w : Word) : (setReg s a w).mem = s.mem := rfl
@[simp] theorem setReg_hostMem (a : Nat) (w : Word) : (setReg s a w).hostMem = s.hostMem := rfl
@[simp] theorem setReg_free (a : Nat) (w : Word) : (setReg s a w).free = s.free := rfl
@[simp] theorem setReg_out (a : Nat) (w : Word) : (setReg s a w).out = s.out := rfl
@[simp] theorem setReg_pending (a : Nat) (w : Word) : (setReg s a w).pending = s.pending := rfl

@[simp] theorem orReg_fuse (a mask : Nat) : (orReg s a mask).fuse = s.fuse := rfl
@[simp] theorem orReg_board (a mask : Nat) : (orReg s a mask).board = s.board := rfl
@[simp] theorem orReg_start (a mask : Nat) : (orReg s a mask).start = s.start := rfl
@[simp] theorem orReg_dies (a mask : Nat) : (orReg s a mask).dies = s.dies := rfl
@[simp] theorem orReg_stackIds (a mask : Nat) : (orReg s a mask).stackIds = s.stackIds := rfl
@[simp] theorem orReg_pcie (a mask : Nat) : (orReg s a mask).pcie = s.pcie := rfl
@[simp] theorem orReg_mbxs (a mask : Nat) : (orReg s a mask).mbxs = s.mbxs := rfl
@[simp] theorem orReg_rings (a mask : Nat) : (orReg s a mask).rings = s.rings := rfl
@[simp] theorem orReg_hubTime (a mask : Nat) : (orReg s a mask).hubTime = s.hubTime := rfl
@[simp] theorem orReg_hubTimeHi (a mask : Nat) : (orReg s a mask).hubTimeHi = s.hubTimeHi := rfl
@[simp] theorem orReg_windows (a mask : Nat) : (orReg s a mask).windows = s.windows := rfl
@[simp] theorem orReg_err (a mask : Nat) : (orReg s a mask).err = s.err := rfl
@[simp] theorem orReg_linkResults (a mask : Nat) : (orReg s a mask).linkResults = s.linkResults := rfl
@[simp] theorem orReg_linkTests (a mask : Nat) : (orReg s a mask).linkTests = s.linkTests := rfl
@[simp] theorem orReg_settings (a mask : Nat) : (orReg s a mask).settings = s.settings := rfl
@[simp] theorem orReg_flash (a mask : Nat) : (orReg s a mask).flash = s.flash := rfl
@[simp] theorem orReg_sfc (a mask : Nat) : (orReg s a mask).sfc = s.sfc := rfl
@[simp] theorem orReg_serving (a mask : Nat) : (orReg s a mask).serving = s.serving := rfl
@[simp] theorem orReg_sess (a mask : Nat) : (orReg s a mask).sess = s.sess := rfl
@[simp] theorem orReg_eng (a mask : Nat) : (orReg s a mask).eng = s.eng := rfl
@[simp] theorem orReg_cores (a mask : Nat) : (orReg s a mask).cores = s.cores := rfl
@[simp] theorem orReg_uc (a mask : Nat) : (orReg s a mask).uc = s.uc := rfl
@[simp] theorem orReg_posted (a mask : Nat) : (orReg s a mask).posted = s.posted := rfl
@[simp] theorem orReg_memWaits (a mask : Nat) : (orReg s a mask).memWaits = s.memWaits := rfl
@[simp] theorem orReg_hbm (a mask : Nat) : (orReg s a mask).hbm = s.hbm := rfl
@[simp] theorem orReg_lnt (a mask : Nat) : (orReg s a mask).lnt = s.lnt := rfl
@[simp] theorem orReg_hws (a mask : Nat) : (orReg s a mask).hws = s.hws := rfl
@[simp] theorem orReg_twin (a mask : Nat) : (orReg s a mask).twin = s.twin := rfl
@[simp] theorem orReg_cleat (a mask : Nat) : (orReg s a mask).cleat = s.cleat := rfl
@[simp] theorem orReg_jtag (a mask : Nat) : (orReg s a mask).jtag = s.jtag := rfl
@[simp] theorem orReg_power (a mask : Nat) : (orReg s a mask).power = s.power := rfl
@[simp] theorem orReg_tenants (a mask : Nat) : (orReg s a mask).tenants = s.tenants := rfl
@[simp] theorem orReg_xlat (a mask : Nat) : (orReg s a mask).xlat = s.xlat := rfl
@[simp] theorem orReg_stackPoison (a mask : Nat) : (orReg s a mask).stackPoison = s.stackPoison := rfl
@[simp] theorem orReg_endedOps (a mask : Nat) : (orReg s a mask).endedOps = s.endedOps := rfl
@[simp] theorem orReg_mem (a mask : Nat) : (orReg s a mask).mem = s.mem := rfl
@[simp] theorem orReg_hostMem (a mask : Nat) : (orReg s a mask).hostMem = s.hostMem := rfl
@[simp] theorem orReg_free (a mask : Nat) : (orReg s a mask).free = s.free := rfl
@[simp] theorem orReg_out (a mask : Nat) : (orReg s a mask).out = s.out := rfl
@[simp] theorem orReg_pending (a mask : Nat) : (orReg s a mask).pending = s.pending := rfl

@[simp] theorem bumpBy_fuse (a w n : Nat) : (bumpBy s a w n).fuse = s.fuse := rfl
@[simp] theorem bumpBy_board (a w n : Nat) : (bumpBy s a w n).board = s.board := rfl
@[simp] theorem bumpBy_start (a w n : Nat) : (bumpBy s a w n).start = s.start := rfl
@[simp] theorem bumpBy_dies (a w n : Nat) : (bumpBy s a w n).dies = s.dies := rfl
@[simp] theorem bumpBy_stackIds (a w n : Nat) : (bumpBy s a w n).stackIds = s.stackIds := rfl
@[simp] theorem bumpBy_pcie (a w n : Nat) : (bumpBy s a w n).pcie = s.pcie := rfl
@[simp] theorem bumpBy_mbxs (a w n : Nat) : (bumpBy s a w n).mbxs = s.mbxs := rfl
@[simp] theorem bumpBy_rings (a w n : Nat) : (bumpBy s a w n).rings = s.rings := rfl
@[simp] theorem bumpBy_hubTime (a w n : Nat) : (bumpBy s a w n).hubTime = s.hubTime := rfl
@[simp] theorem bumpBy_hubTimeHi (a w n : Nat) : (bumpBy s a w n).hubTimeHi = s.hubTimeHi := rfl
@[simp] theorem bumpBy_windows (a w n : Nat) : (bumpBy s a w n).windows = s.windows := rfl
@[simp] theorem bumpBy_err (a w n : Nat) : (bumpBy s a w n).err = s.err := rfl
@[simp] theorem bumpBy_linkResults (a w n : Nat) : (bumpBy s a w n).linkResults = s.linkResults := rfl
@[simp] theorem bumpBy_linkTests (a w n : Nat) : (bumpBy s a w n).linkTests = s.linkTests := rfl
@[simp] theorem bumpBy_settings (a w n : Nat) : (bumpBy s a w n).settings = s.settings := rfl
@[simp] theorem bumpBy_flash (a w n : Nat) : (bumpBy s a w n).flash = s.flash := rfl
@[simp] theorem bumpBy_sfc (a w n : Nat) : (bumpBy s a w n).sfc = s.sfc := rfl
@[simp] theorem bumpBy_serving (a w n : Nat) : (bumpBy s a w n).serving = s.serving := rfl
@[simp] theorem bumpBy_sess (a w n : Nat) : (bumpBy s a w n).sess = s.sess := rfl
@[simp] theorem bumpBy_eng (a w n : Nat) : (bumpBy s a w n).eng = s.eng := rfl
@[simp] theorem bumpBy_cores (a w n : Nat) : (bumpBy s a w n).cores = s.cores := rfl
@[simp] theorem bumpBy_uc (a w n : Nat) : (bumpBy s a w n).uc = s.uc := rfl
@[simp] theorem bumpBy_posted (a w n : Nat) : (bumpBy s a w n).posted = s.posted := rfl
@[simp] theorem bumpBy_memWaits (a w n : Nat) : (bumpBy s a w n).memWaits = s.memWaits := rfl
@[simp] theorem bumpBy_hbm (a w n : Nat) : (bumpBy s a w n).hbm = s.hbm := rfl
@[simp] theorem bumpBy_lnt (a w n : Nat) : (bumpBy s a w n).lnt = s.lnt := rfl
@[simp] theorem bumpBy_hws (a w n : Nat) : (bumpBy s a w n).hws = s.hws := rfl
@[simp] theorem bumpBy_twin (a w n : Nat) : (bumpBy s a w n).twin = s.twin := rfl
@[simp] theorem bumpBy_cleat (a w n : Nat) : (bumpBy s a w n).cleat = s.cleat := rfl
@[simp] theorem bumpBy_jtag (a w n : Nat) : (bumpBy s a w n).jtag = s.jtag := rfl
@[simp] theorem bumpBy_power (a w n : Nat) : (bumpBy s a w n).power = s.power := rfl
@[simp] theorem bumpBy_tenants (a w n : Nat) : (bumpBy s a w n).tenants = s.tenants := rfl
@[simp] theorem bumpBy_xlat (a w n : Nat) : (bumpBy s a w n).xlat = s.xlat := rfl
@[simp] theorem bumpBy_stackPoison (a w n : Nat) : (bumpBy s a w n).stackPoison = s.stackPoison := rfl
@[simp] theorem bumpBy_endedOps (a w n : Nat) : (bumpBy s a w n).endedOps = s.endedOps := rfl
@[simp] theorem bumpBy_mem (a w n : Nat) : (bumpBy s a w n).mem = s.mem := rfl
@[simp] theorem bumpBy_hostMem (a w n : Nat) : (bumpBy s a w n).hostMem = s.hostMem := rfl
@[simp] theorem bumpBy_free (a w n : Nat) : (bumpBy s a w n).free = s.free := rfl
@[simp] theorem bumpBy_out (a w n : Nat) : (bumpBy s a w n).out = s.out := rfl
@[simp] theorem bumpBy_pending (a w n : Nat) : (bumpBy s a w n).pending = s.pending := rfl

@[simp] theorem bump_fuse (a : Nat) : (bump s a).fuse = s.fuse := rfl
@[simp] theorem bump_board (a : Nat) : (bump s a).board = s.board := rfl
@[simp] theorem bump_start (a : Nat) : (bump s a).start = s.start := rfl
@[simp] theorem bump_dies (a : Nat) : (bump s a).dies = s.dies := rfl
@[simp] theorem bump_stackIds (a : Nat) : (bump s a).stackIds = s.stackIds := rfl
@[simp] theorem bump_pcie (a : Nat) : (bump s a).pcie = s.pcie := rfl
@[simp] theorem bump_mbxs (a : Nat) : (bump s a).mbxs = s.mbxs := rfl
@[simp] theorem bump_rings (a : Nat) : (bump s a).rings = s.rings := rfl
@[simp] theorem bump_hubTime (a : Nat) : (bump s a).hubTime = s.hubTime := rfl
@[simp] theorem bump_hubTimeHi (a : Nat) : (bump s a).hubTimeHi = s.hubTimeHi := rfl
@[simp] theorem bump_windows (a : Nat) : (bump s a).windows = s.windows := rfl
@[simp] theorem bump_err (a : Nat) : (bump s a).err = s.err := rfl
@[simp] theorem bump_linkResults (a : Nat) : (bump s a).linkResults = s.linkResults := rfl
@[simp] theorem bump_linkTests (a : Nat) : (bump s a).linkTests = s.linkTests := rfl
@[simp] theorem bump_settings (a : Nat) : (bump s a).settings = s.settings := rfl
@[simp] theorem bump_flash (a : Nat) : (bump s a).flash = s.flash := rfl
@[simp] theorem bump_sfc (a : Nat) : (bump s a).sfc = s.sfc := rfl
@[simp] theorem bump_serving (a : Nat) : (bump s a).serving = s.serving := rfl
@[simp] theorem bump_sess (a : Nat) : (bump s a).sess = s.sess := rfl
@[simp] theorem bump_eng (a : Nat) : (bump s a).eng = s.eng := rfl
@[simp] theorem bump_cores (a : Nat) : (bump s a).cores = s.cores := rfl
@[simp] theorem bump_uc (a : Nat) : (bump s a).uc = s.uc := rfl
@[simp] theorem bump_posted (a : Nat) : (bump s a).posted = s.posted := rfl
@[simp] theorem bump_memWaits (a : Nat) : (bump s a).memWaits = s.memWaits := rfl
@[simp] theorem bump_hbm (a : Nat) : (bump s a).hbm = s.hbm := rfl
@[simp] theorem bump_lnt (a : Nat) : (bump s a).lnt = s.lnt := rfl
@[simp] theorem bump_hws (a : Nat) : (bump s a).hws = s.hws := rfl
@[simp] theorem bump_twin (a : Nat) : (bump s a).twin = s.twin := rfl
@[simp] theorem bump_cleat (a : Nat) : (bump s a).cleat = s.cleat := rfl
@[simp] theorem bump_jtag (a : Nat) : (bump s a).jtag = s.jtag := rfl
@[simp] theorem bump_power (a : Nat) : (bump s a).power = s.power := rfl
@[simp] theorem bump_tenants (a : Nat) : (bump s a).tenants = s.tenants := rfl
@[simp] theorem bump_xlat (a : Nat) : (bump s a).xlat = s.xlat := rfl
@[simp] theorem bump_stackPoison (a : Nat) : (bump s a).stackPoison = s.stackPoison := rfl
@[simp] theorem bump_endedOps (a : Nat) : (bump s a).endedOps = s.endedOps := rfl
@[simp] theorem bump_mem (a : Nat) : (bump s a).mem = s.mem := rfl
@[simp] theorem bump_hostMem (a : Nat) : (bump s a).hostMem = s.hostMem := rfl
@[simp] theorem bump_free (a : Nat) : (bump s a).free = s.free := rfl
@[simp] theorem bump_out (a : Nat) : (bump s a).out = s.out := rfl
@[simp] theorem bump_pending (a : Nat) : (bump s a).pending = s.pending := rfl

@[simp] theorem emit_fuse (o : Out) : (emit s o).fuse = s.fuse := rfl
@[simp] theorem emit_board (o : Out) : (emit s o).board = s.board := rfl
@[simp] theorem emit_start (o : Out) : (emit s o).start = s.start := rfl
@[simp] theorem emit_dies (o : Out) : (emit s o).dies = s.dies := rfl
@[simp] theorem emit_stackIds (o : Out) : (emit s o).stackIds = s.stackIds := rfl
@[simp] theorem emit_pcie (o : Out) : (emit s o).pcie = s.pcie := rfl
@[simp] theorem emit_mbxs (o : Out) : (emit s o).mbxs = s.mbxs := rfl
@[simp] theorem emit_rings (o : Out) : (emit s o).rings = s.rings := rfl
@[simp] theorem emit_regs (o : Out) : (emit s o).regs = s.regs := rfl
@[simp] theorem emit_hubTime (o : Out) : (emit s o).hubTime = s.hubTime := rfl
@[simp] theorem emit_hubTimeHi (o : Out) : (emit s o).hubTimeHi = s.hubTimeHi := rfl
@[simp] theorem emit_windows (o : Out) : (emit s o).windows = s.windows := rfl
@[simp] theorem emit_err (o : Out) : (emit s o).err = s.err := rfl
@[simp] theorem emit_linkResults (o : Out) : (emit s o).linkResults = s.linkResults := rfl
@[simp] theorem emit_linkTests (o : Out) : (emit s o).linkTests = s.linkTests := rfl
@[simp] theorem emit_settings (o : Out) : (emit s o).settings = s.settings := rfl
@[simp] theorem emit_flash (o : Out) : (emit s o).flash = s.flash := rfl
@[simp] theorem emit_sfc (o : Out) : (emit s o).sfc = s.sfc := rfl
@[simp] theorem emit_serving (o : Out) : (emit s o).serving = s.serving := rfl
@[simp] theorem emit_sess (o : Out) : (emit s o).sess = s.sess := rfl
@[simp] theorem emit_eng (o : Out) : (emit s o).eng = s.eng := rfl
@[simp] theorem emit_cores (o : Out) : (emit s o).cores = s.cores := rfl
@[simp] theorem emit_uc (o : Out) : (emit s o).uc = s.uc := rfl
@[simp] theorem emit_posted (o : Out) : (emit s o).posted = s.posted := rfl
@[simp] theorem emit_memWaits (o : Out) : (emit s o).memWaits = s.memWaits := rfl
@[simp] theorem emit_hbm (o : Out) : (emit s o).hbm = s.hbm := rfl
@[simp] theorem emit_lnt (o : Out) : (emit s o).lnt = s.lnt := rfl
@[simp] theorem emit_hws (o : Out) : (emit s o).hws = s.hws := rfl
@[simp] theorem emit_twin (o : Out) : (emit s o).twin = s.twin := rfl
@[simp] theorem emit_cleat (o : Out) : (emit s o).cleat = s.cleat := rfl
@[simp] theorem emit_jtag (o : Out) : (emit s o).jtag = s.jtag := rfl
@[simp] theorem emit_power (o : Out) : (emit s o).power = s.power := rfl
@[simp] theorem emit_tenants (o : Out) : (emit s o).tenants = s.tenants := rfl
@[simp] theorem emit_xlat (o : Out) : (emit s o).xlat = s.xlat := rfl
@[simp] theorem emit_stackPoison (o : Out) : (emit s o).stackPoison = s.stackPoison := rfl
@[simp] theorem emit_endedOps (o : Out) : (emit s o).endedOps = s.endedOps := rfl
@[simp] theorem emit_mem (o : Out) : (emit s o).mem = s.mem := rfl
@[simp] theorem emit_hostMem (o : Out) : (emit s o).hostMem = s.hostMem := rfl
@[simp] theorem emit_free (o : Out) : (emit s o).free = s.free := rfl
@[simp] theorem emit_out (o : Out) : (emit s o).out = s.out ++ [o] := rfl
@[simp] theorem emit_pending (o : Out) : (emit s o).pending = s.pending := rfl

@[simp] theorem setErrLog_fuse (n : Nat) (l : ErrLog) : (setErrLog s n l).fuse = s.fuse := rfl
@[simp] theorem setErrLog_board (n : Nat) (l : ErrLog) : (setErrLog s n l).board = s.board := rfl
@[simp] theorem setErrLog_start (n : Nat) (l : ErrLog) : (setErrLog s n l).start = s.start := rfl
@[simp] theorem setErrLog_dies (n : Nat) (l : ErrLog) : (setErrLog s n l).dies = s.dies := rfl
@[simp] theorem setErrLog_stackIds (n : Nat) (l : ErrLog) : (setErrLog s n l).stackIds = s.stackIds := rfl
@[simp] theorem setErrLog_pcie (n : Nat) (l : ErrLog) : (setErrLog s n l).pcie = s.pcie := rfl
@[simp] theorem setErrLog_mbxs (n : Nat) (l : ErrLog) : (setErrLog s n l).mbxs = s.mbxs := rfl
@[simp] theorem setErrLog_rings (n : Nat) (l : ErrLog) : (setErrLog s n l).rings = s.rings := rfl
@[simp] theorem setErrLog_regs (n : Nat) (l : ErrLog) : (setErrLog s n l).regs = s.regs := rfl
@[simp] theorem setErrLog_hubTime (n : Nat) (l : ErrLog) : (setErrLog s n l).hubTime = s.hubTime := rfl
@[simp] theorem setErrLog_hubTimeHi (n : Nat) (l : ErrLog) : (setErrLog s n l).hubTimeHi = s.hubTimeHi := rfl
@[simp] theorem setErrLog_windows (n : Nat) (l : ErrLog) : (setErrLog s n l).windows = s.windows := rfl
@[simp] theorem setErrLog_linkResults (n : Nat) (l : ErrLog) : (setErrLog s n l).linkResults = s.linkResults := rfl
@[simp] theorem setErrLog_linkTests (n : Nat) (l : ErrLog) : (setErrLog s n l).linkTests = s.linkTests := rfl
@[simp] theorem setErrLog_settings (n : Nat) (l : ErrLog) : (setErrLog s n l).settings = s.settings := rfl
@[simp] theorem setErrLog_flash (n : Nat) (l : ErrLog) : (setErrLog s n l).flash = s.flash := rfl
@[simp] theorem setErrLog_sfc (n : Nat) (l : ErrLog) : (setErrLog s n l).sfc = s.sfc := rfl
@[simp] theorem setErrLog_serving (n : Nat) (l : ErrLog) : (setErrLog s n l).serving = s.serving := rfl
@[simp] theorem setErrLog_sess (n : Nat) (l : ErrLog) : (setErrLog s n l).sess = s.sess := rfl
@[simp] theorem setErrLog_eng (n : Nat) (l : ErrLog) : (setErrLog s n l).eng = s.eng := rfl
@[simp] theorem setErrLog_cores (n : Nat) (l : ErrLog) : (setErrLog s n l).cores = s.cores := rfl
@[simp] theorem setErrLog_uc (n : Nat) (l : ErrLog) : (setErrLog s n l).uc = s.uc := rfl
@[simp] theorem setErrLog_posted (n : Nat) (l : ErrLog) : (setErrLog s n l).posted = s.posted := rfl
@[simp] theorem setErrLog_memWaits (n : Nat) (l : ErrLog) : (setErrLog s n l).memWaits = s.memWaits := rfl
@[simp] theorem setErrLog_hbm (n : Nat) (l : ErrLog) : (setErrLog s n l).hbm = s.hbm := rfl
@[simp] theorem setErrLog_lnt (n : Nat) (l : ErrLog) : (setErrLog s n l).lnt = s.lnt := rfl
@[simp] theorem setErrLog_hws (n : Nat) (l : ErrLog) : (setErrLog s n l).hws = s.hws := rfl
@[simp] theorem setErrLog_twin (n : Nat) (l : ErrLog) : (setErrLog s n l).twin = s.twin := rfl
@[simp] theorem setErrLog_cleat (n : Nat) (l : ErrLog) : (setErrLog s n l).cleat = s.cleat := rfl
@[simp] theorem setErrLog_jtag (n : Nat) (l : ErrLog) : (setErrLog s n l).jtag = s.jtag := rfl
@[simp] theorem setErrLog_power (n : Nat) (l : ErrLog) : (setErrLog s n l).power = s.power := rfl
@[simp] theorem setErrLog_tenants (n : Nat) (l : ErrLog) : (setErrLog s n l).tenants = s.tenants := rfl
@[simp] theorem setErrLog_xlat (n : Nat) (l : ErrLog) : (setErrLog s n l).xlat = s.xlat := rfl
@[simp] theorem setErrLog_stackPoison (n : Nat) (l : ErrLog) : (setErrLog s n l).stackPoison = s.stackPoison := rfl
@[simp] theorem setErrLog_endedOps (n : Nat) (l : ErrLog) : (setErrLog s n l).endedOps = s.endedOps := rfl
@[simp] theorem setErrLog_mem (n : Nat) (l : ErrLog) : (setErrLog s n l).mem = s.mem := rfl
@[simp] theorem setErrLog_hostMem (n : Nat) (l : ErrLog) : (setErrLog s n l).hostMem = s.hostMem := rfl
@[simp] theorem setErrLog_free (n : Nat) (l : ErrLog) : (setErrLog s n l).free = s.free := rfl
@[simp] theorem setErrLog_out (n : Nat) (l : ErrLog) : (setErrLog s n l).out = s.out := rfl
@[simp] theorem setErrLog_pending (n : Nat) (l : ErrLog) : (setErrLog s n l).pending = s.pending := rfl

@[simp] theorem setMbx_fuse (n : Nat) (m : Mailbox) : (setMbx s n m).fuse = s.fuse := rfl
@[simp] theorem setMbx_board (n : Nat) (m : Mailbox) : (setMbx s n m).board = s.board := rfl
@[simp] theorem setMbx_start (n : Nat) (m : Mailbox) : (setMbx s n m).start = s.start := rfl
@[simp] theorem setMbx_dies (n : Nat) (m : Mailbox) : (setMbx s n m).dies = s.dies := rfl
@[simp] theorem setMbx_stackIds (n : Nat) (m : Mailbox) : (setMbx s n m).stackIds = s.stackIds := rfl
@[simp] theorem setMbx_pcie (n : Nat) (m : Mailbox) : (setMbx s n m).pcie = s.pcie := rfl
@[simp] theorem setMbx_mbxs (n : Nat) (m : Mailbox) : (setMbx s n m).mbxs = tput s.mbxs n m := rfl
@[simp] theorem setMbx_rings (n : Nat) (m : Mailbox) : (setMbx s n m).rings = s.rings := rfl
@[simp] theorem setMbx_regs (n : Nat) (m : Mailbox) : (setMbx s n m).regs = s.regs := rfl
@[simp] theorem setMbx_hubTime (n : Nat) (m : Mailbox) : (setMbx s n m).hubTime = s.hubTime := rfl
@[simp] theorem setMbx_hubTimeHi (n : Nat) (m : Mailbox) : (setMbx s n m).hubTimeHi = s.hubTimeHi := rfl
@[simp] theorem setMbx_windows (n : Nat) (m : Mailbox) : (setMbx s n m).windows = s.windows := rfl
@[simp] theorem setMbx_err (n : Nat) (m : Mailbox) : (setMbx s n m).err = s.err := rfl
@[simp] theorem setMbx_linkResults (n : Nat) (m : Mailbox) : (setMbx s n m).linkResults = s.linkResults := rfl
@[simp] theorem setMbx_linkTests (n : Nat) (m : Mailbox) : (setMbx s n m).linkTests = s.linkTests := rfl
@[simp] theorem setMbx_settings (n : Nat) (m : Mailbox) : (setMbx s n m).settings = s.settings := rfl
@[simp] theorem setMbx_flash (n : Nat) (m : Mailbox) : (setMbx s n m).flash = s.flash := rfl
@[simp] theorem setMbx_sfc (n : Nat) (m : Mailbox) : (setMbx s n m).sfc = s.sfc := rfl
@[simp] theorem setMbx_serving (n : Nat) (m : Mailbox) : (setMbx s n m).serving = s.serving := rfl
@[simp] theorem setMbx_sess (n : Nat) (m : Mailbox) : (setMbx s n m).sess = s.sess := rfl
@[simp] theorem setMbx_eng (n : Nat) (m : Mailbox) : (setMbx s n m).eng = s.eng := rfl
@[simp] theorem setMbx_cores (n : Nat) (m : Mailbox) : (setMbx s n m).cores = s.cores := rfl
@[simp] theorem setMbx_uc (n : Nat) (m : Mailbox) : (setMbx s n m).uc = s.uc := rfl
@[simp] theorem setMbx_posted (n : Nat) (m : Mailbox) : (setMbx s n m).posted = s.posted := rfl
@[simp] theorem setMbx_memWaits (n : Nat) (m : Mailbox) : (setMbx s n m).memWaits = s.memWaits := rfl
@[simp] theorem setMbx_hbm (n : Nat) (m : Mailbox) : (setMbx s n m).hbm = s.hbm := rfl
@[simp] theorem setMbx_lnt (n : Nat) (m : Mailbox) : (setMbx s n m).lnt = s.lnt := rfl
@[simp] theorem setMbx_hws (n : Nat) (m : Mailbox) : (setMbx s n m).hws = s.hws := rfl
@[simp] theorem setMbx_twin (n : Nat) (m : Mailbox) : (setMbx s n m).twin = s.twin := rfl
@[simp] theorem setMbx_cleat (n : Nat) (m : Mailbox) : (setMbx s n m).cleat = s.cleat := rfl
@[simp] theorem setMbx_jtag (n : Nat) (m : Mailbox) : (setMbx s n m).jtag = s.jtag := rfl
@[simp] theorem setMbx_power (n : Nat) (m : Mailbox) : (setMbx s n m).power = s.power := rfl
@[simp] theorem setMbx_tenants (n : Nat) (m : Mailbox) : (setMbx s n m).tenants = s.tenants := rfl
@[simp] theorem setMbx_xlat (n : Nat) (m : Mailbox) : (setMbx s n m).xlat = s.xlat := rfl
@[simp] theorem setMbx_stackPoison (n : Nat) (m : Mailbox) : (setMbx s n m).stackPoison = s.stackPoison := rfl
@[simp] theorem setMbx_endedOps (n : Nat) (m : Mailbox) : (setMbx s n m).endedOps = s.endedOps := rfl
@[simp] theorem setMbx_mem (n : Nat) (m : Mailbox) : (setMbx s n m).mem = s.mem := rfl
@[simp] theorem setMbx_hostMem (n : Nat) (m : Mailbox) : (setMbx s n m).hostMem = s.hostMem := rfl
@[simp] theorem setMbx_free (n : Nat) (m : Mailbox) : (setMbx s n m).free = s.free := rfl
@[simp] theorem setMbx_out (n : Nat) (m : Mailbox) : (setMbx s n m).out = s.out := rfl
@[simp] theorem setMbx_pending (n : Nat) (m : Mailbox) : (setMbx s n m).pending = s.pending := rfl

@[simp] theorem setQueue_fuse (q : Nat) (x : Queue) : (setQueue s q x).fuse = s.fuse := rfl
@[simp] theorem setQueue_board (q : Nat) (x : Queue) : (setQueue s q x).board = s.board := rfl
@[simp] theorem setQueue_start (q : Nat) (x : Queue) : (setQueue s q x).start = s.start := rfl
@[simp] theorem setQueue_dies (q : Nat) (x : Queue) : (setQueue s q x).dies = s.dies := rfl
@[simp] theorem setQueue_stackIds (q : Nat) (x : Queue) : (setQueue s q x).stackIds = s.stackIds := rfl
@[simp] theorem setQueue_pcie (q : Nat) (x : Queue) : (setQueue s q x).pcie = s.pcie := rfl
@[simp] theorem setQueue_mbxs (q : Nat) (x : Queue) : (setQueue s q x).mbxs = s.mbxs := rfl
@[simp] theorem setQueue_rings (q : Nat) (x : Queue) : (setQueue s q x).rings = s.rings := rfl
@[simp] theorem setQueue_regs (q : Nat) (x : Queue) : (setQueue s q x).regs = s.regs := rfl
@[simp] theorem setQueue_hubTime (q : Nat) (x : Queue) : (setQueue s q x).hubTime = s.hubTime := rfl
@[simp] theorem setQueue_hubTimeHi (q : Nat) (x : Queue) : (setQueue s q x).hubTimeHi = s.hubTimeHi := rfl
@[simp] theorem setQueue_windows (q : Nat) (x : Queue) : (setQueue s q x).windows = s.windows := rfl
@[simp] theorem setQueue_err (q : Nat) (x : Queue) : (setQueue s q x).err = s.err := rfl
@[simp] theorem setQueue_linkResults (q : Nat) (x : Queue) : (setQueue s q x).linkResults = s.linkResults := rfl
@[simp] theorem setQueue_linkTests (q : Nat) (x : Queue) : (setQueue s q x).linkTests = s.linkTests := rfl
@[simp] theorem setQueue_settings (q : Nat) (x : Queue) : (setQueue s q x).settings = s.settings := rfl
@[simp] theorem setQueue_flash (q : Nat) (x : Queue) : (setQueue s q x).flash = s.flash := rfl
@[simp] theorem setQueue_sfc (q : Nat) (x : Queue) : (setQueue s q x).sfc = s.sfc := rfl
@[simp] theorem setQueue_serving (q : Nat) (x : Queue) : (setQueue s q x).serving = s.serving := rfl
@[simp] theorem setQueue_sess (q : Nat) (x : Queue) : (setQueue s q x).sess = s.sess := rfl
@[simp] theorem setQueue_cores (q : Nat) (x : Queue) : (setQueue s q x).cores = s.cores := rfl
@[simp] theorem setQueue_uc (q : Nat) (x : Queue) : (setQueue s q x).uc = s.uc := rfl
@[simp] theorem setQueue_posted (q : Nat) (x : Queue) : (setQueue s q x).posted = s.posted := rfl
@[simp] theorem setQueue_memWaits (q : Nat) (x : Queue) : (setQueue s q x).memWaits = s.memWaits := rfl
@[simp] theorem setQueue_hbm (q : Nat) (x : Queue) : (setQueue s q x).hbm = s.hbm := rfl
@[simp] theorem setQueue_lnt (q : Nat) (x : Queue) : (setQueue s q x).lnt = s.lnt := rfl
@[simp] theorem setQueue_hws (q : Nat) (x : Queue) : (setQueue s q x).hws = s.hws := rfl
@[simp] theorem setQueue_twin (q : Nat) (x : Queue) : (setQueue s q x).twin = s.twin := rfl
@[simp] theorem setQueue_cleat (q : Nat) (x : Queue) : (setQueue s q x).cleat = s.cleat := rfl
@[simp] theorem setQueue_jtag (q : Nat) (x : Queue) : (setQueue s q x).jtag = s.jtag := rfl
@[simp] theorem setQueue_power (q : Nat) (x : Queue) : (setQueue s q x).power = s.power := rfl
@[simp] theorem setQueue_tenants (q : Nat) (x : Queue) : (setQueue s q x).tenants = s.tenants := rfl
@[simp] theorem setQueue_xlat (q : Nat) (x : Queue) : (setQueue s q x).xlat = s.xlat := rfl
@[simp] theorem setQueue_stackPoison (q : Nat) (x : Queue) : (setQueue s q x).stackPoison = s.stackPoison := rfl
@[simp] theorem setQueue_endedOps (q : Nat) (x : Queue) : (setQueue s q x).endedOps = s.endedOps := rfl
@[simp] theorem setQueue_mem (q : Nat) (x : Queue) : (setQueue s q x).mem = s.mem := rfl
@[simp] theorem setQueue_hostMem (q : Nat) (x : Queue) : (setQueue s q x).hostMem = s.hostMem := rfl
@[simp] theorem setQueue_free (q : Nat) (x : Queue) : (setQueue s q x).free = s.free := rfl
@[simp] theorem setQueue_out (q : Nat) (x : Queue) : (setQueue s q x).out = s.out := rfl
@[simp] theorem setQueue_pending (q : Nat) (x : Queue) : (setQueue s q x).pending = s.pending := rfl

@[simp] theorem setSession_fuse (n : Nat) (x : Session) : (setSession s n x).fuse = s.fuse := rfl
@[simp] theorem setSession_board (n : Nat) (x : Session) : (setSession s n x).board = s.board := rfl
@[simp] theorem setSession_start (n : Nat) (x : Session) : (setSession s n x).start = s.start := rfl
@[simp] theorem setSession_dies (n : Nat) (x : Session) : (setSession s n x).dies = s.dies := rfl
@[simp] theorem setSession_stackIds (n : Nat) (x : Session) : (setSession s n x).stackIds = s.stackIds := rfl
@[simp] theorem setSession_pcie (n : Nat) (x : Session) : (setSession s n x).pcie = s.pcie := rfl
@[simp] theorem setSession_mbxs (n : Nat) (x : Session) : (setSession s n x).mbxs = s.mbxs := rfl
@[simp] theorem setSession_rings (n : Nat) (x : Session) : (setSession s n x).rings = s.rings := rfl
@[simp] theorem setSession_regs (n : Nat) (x : Session) : (setSession s n x).regs = s.regs := rfl
@[simp] theorem setSession_hubTime (n : Nat) (x : Session) : (setSession s n x).hubTime = s.hubTime := rfl
@[simp] theorem setSession_hubTimeHi (n : Nat) (x : Session) : (setSession s n x).hubTimeHi = s.hubTimeHi := rfl
@[simp] theorem setSession_windows (n : Nat) (x : Session) : (setSession s n x).windows = s.windows := rfl
@[simp] theorem setSession_err (n : Nat) (x : Session) : (setSession s n x).err = s.err := rfl
@[simp] theorem setSession_linkResults (n : Nat) (x : Session) : (setSession s n x).linkResults = s.linkResults := rfl
@[simp] theorem setSession_linkTests (n : Nat) (x : Session) : (setSession s n x).linkTests = s.linkTests := rfl
@[simp] theorem setSession_settings (n : Nat) (x : Session) : (setSession s n x).settings = s.settings := rfl
@[simp] theorem setSession_flash (n : Nat) (x : Session) : (setSession s n x).flash = s.flash := rfl
@[simp] theorem setSession_sfc (n : Nat) (x : Session) : (setSession s n x).sfc = s.sfc := rfl
@[simp] theorem setSession_serving (n : Nat) (x : Session) : (setSession s n x).serving = s.serving := rfl
@[simp] theorem setSession_eng (n : Nat) (x : Session) : (setSession s n x).eng = s.eng := rfl
@[simp] theorem setSession_cores (n : Nat) (x : Session) : (setSession s n x).cores = s.cores := rfl
@[simp] theorem setSession_uc (n : Nat) (x : Session) : (setSession s n x).uc = s.uc := rfl
@[simp] theorem setSession_posted (n : Nat) (x : Session) : (setSession s n x).posted = s.posted := rfl
@[simp] theorem setSession_memWaits (n : Nat) (x : Session) : (setSession s n x).memWaits = s.memWaits := rfl
@[simp] theorem setSession_hbm (n : Nat) (x : Session) : (setSession s n x).hbm = s.hbm := rfl
@[simp] theorem setSession_lnt (n : Nat) (x : Session) : (setSession s n x).lnt = s.lnt := rfl
@[simp] theorem setSession_hws (n : Nat) (x : Session) : (setSession s n x).hws = s.hws := rfl
@[simp] theorem setSession_twin (n : Nat) (x : Session) : (setSession s n x).twin = s.twin := rfl
@[simp] theorem setSession_cleat (n : Nat) (x : Session) : (setSession s n x).cleat = s.cleat := rfl
@[simp] theorem setSession_jtag (n : Nat) (x : Session) : (setSession s n x).jtag = s.jtag := rfl
@[simp] theorem setSession_power (n : Nat) (x : Session) : (setSession s n x).power = s.power := rfl
@[simp] theorem setSession_tenants (n : Nat) (x : Session) : (setSession s n x).tenants = s.tenants := rfl
@[simp] theorem setSession_xlat (n : Nat) (x : Session) : (setSession s n x).xlat = s.xlat := rfl
@[simp] theorem setSession_stackPoison (n : Nat) (x : Session) : (setSession s n x).stackPoison = s.stackPoison := rfl
@[simp] theorem setSession_endedOps (n : Nat) (x : Session) : (setSession s n x).endedOps = s.endedOps := rfl
@[simp] theorem setSession_mem (n : Nat) (x : Session) : (setSession s n x).mem = s.mem := rfl
@[simp] theorem setSession_hostMem (n : Nat) (x : Session) : (setSession s n x).hostMem = s.hostMem := rfl
@[simp] theorem setSession_free (n : Nat) (x : Session) : (setSession s n x).free = s.free := rfl
@[simp] theorem setSession_out (n : Nat) (x : Session) : (setSession s n x).out = s.out := rfl
@[simp] theorem setSession_pending (n : Nat) (x : Session) : (setSession s n x).pending = s.pending := rfl

@[simp] theorem setPool_fuse (st : Nat) (p : Pool) : (setPool s st p).fuse = s.fuse := rfl
@[simp] theorem setPool_board (st : Nat) (p : Pool) : (setPool s st p).board = s.board := rfl
@[simp] theorem setPool_start (st : Nat) (p : Pool) : (setPool s st p).start = s.start := rfl
@[simp] theorem setPool_dies (st : Nat) (p : Pool) : (setPool s st p).dies = s.dies := rfl
@[simp] theorem setPool_stackIds (st : Nat) (p : Pool) : (setPool s st p).stackIds = s.stackIds := rfl
@[simp] theorem setPool_pcie (st : Nat) (p : Pool) : (setPool s st p).pcie = s.pcie := rfl
@[simp] theorem setPool_mbxs (st : Nat) (p : Pool) : (setPool s st p).mbxs = s.mbxs := rfl
@[simp] theorem setPool_rings (st : Nat) (p : Pool) : (setPool s st p).rings = s.rings := rfl
@[simp] theorem setPool_regs (st : Nat) (p : Pool) : (setPool s st p).regs = s.regs := rfl
@[simp] theorem setPool_hubTime (st : Nat) (p : Pool) : (setPool s st p).hubTime = s.hubTime := rfl
@[simp] theorem setPool_hubTimeHi (st : Nat) (p : Pool) : (setPool s st p).hubTimeHi = s.hubTimeHi := rfl
@[simp] theorem setPool_windows (st : Nat) (p : Pool) : (setPool s st p).windows = s.windows := rfl
@[simp] theorem setPool_err (st : Nat) (p : Pool) : (setPool s st p).err = s.err := rfl
@[simp] theorem setPool_linkResults (st : Nat) (p : Pool) : (setPool s st p).linkResults = s.linkResults := rfl
@[simp] theorem setPool_linkTests (st : Nat) (p : Pool) : (setPool s st p).linkTests = s.linkTests := rfl
@[simp] theorem setPool_settings (st : Nat) (p : Pool) : (setPool s st p).settings = s.settings := rfl
@[simp] theorem setPool_flash (st : Nat) (p : Pool) : (setPool s st p).flash = s.flash := rfl
@[simp] theorem setPool_sfc (st : Nat) (p : Pool) : (setPool s st p).sfc = s.sfc := rfl
@[simp] theorem setPool_serving (st : Nat) (p : Pool) : (setPool s st p).serving = s.serving := rfl
@[simp] theorem setPool_eng (st : Nat) (p : Pool) : (setPool s st p).eng = s.eng := rfl
@[simp] theorem setPool_cores (st : Nat) (p : Pool) : (setPool s st p).cores = s.cores := rfl
@[simp] theorem setPool_uc (st : Nat) (p : Pool) : (setPool s st p).uc = s.uc := rfl
@[simp] theorem setPool_posted (st : Nat) (p : Pool) : (setPool s st p).posted = s.posted := rfl
@[simp] theorem setPool_memWaits (st : Nat) (p : Pool) : (setPool s st p).memWaits = s.memWaits := rfl
@[simp] theorem setPool_hbm (st : Nat) (p : Pool) : (setPool s st p).hbm = s.hbm := rfl
@[simp] theorem setPool_lnt (st : Nat) (p : Pool) : (setPool s st p).lnt = s.lnt := rfl
@[simp] theorem setPool_hws (st : Nat) (p : Pool) : (setPool s st p).hws = s.hws := rfl
@[simp] theorem setPool_twin (st : Nat) (p : Pool) : (setPool s st p).twin = s.twin := rfl
@[simp] theorem setPool_cleat (st : Nat) (p : Pool) : (setPool s st p).cleat = s.cleat := rfl
@[simp] theorem setPool_jtag (st : Nat) (p : Pool) : (setPool s st p).jtag = s.jtag := rfl
@[simp] theorem setPool_power (st : Nat) (p : Pool) : (setPool s st p).power = s.power := rfl
@[simp] theorem setPool_tenants (st : Nat) (p : Pool) : (setPool s st p).tenants = s.tenants := rfl
@[simp] theorem setPool_xlat (st : Nat) (p : Pool) : (setPool s st p).xlat = s.xlat := rfl
@[simp] theorem setPool_stackPoison (st : Nat) (p : Pool) : (setPool s st p).stackPoison = s.stackPoison := rfl
@[simp] theorem setPool_endedOps (st : Nat) (p : Pool) : (setPool s st p).endedOps = s.endedOps := rfl
@[simp] theorem setPool_mem (st : Nat) (p : Pool) : (setPool s st p).mem = s.mem := rfl
@[simp] theorem setPool_hostMem (st : Nat) (p : Pool) : (setPool s st p).hostMem = s.hostMem := rfl
@[simp] theorem setPool_free (st : Nat) (p : Pool) : (setPool s st p).free = s.free := rfl
@[simp] theorem setPool_out (st : Nat) (p : Pool) : (setPool s st p).out = s.out := rfl
@[simp] theorem setPool_pending (st : Nat) (p : Pool) : (setPool s st p).pending = s.pending := rfl

@[simp] theorem setTenant_fuse (v : Nat) (t : Tenant) : (setTenant s v t).fuse = s.fuse := rfl
@[simp] theorem setTenant_board (v : Nat) (t : Tenant) : (setTenant s v t).board = s.board := rfl
@[simp] theorem setTenant_start (v : Nat) (t : Tenant) : (setTenant s v t).start = s.start := rfl
@[simp] theorem setTenant_dies (v : Nat) (t : Tenant) : (setTenant s v t).dies = s.dies := rfl
@[simp] theorem setTenant_stackIds (v : Nat) (t : Tenant) : (setTenant s v t).stackIds = s.stackIds := rfl
@[simp] theorem setTenant_pcie (v : Nat) (t : Tenant) : (setTenant s v t).pcie = s.pcie := rfl
@[simp] theorem setTenant_mbxs (v : Nat) (t : Tenant) : (setTenant s v t).mbxs = s.mbxs := rfl
@[simp] theorem setTenant_rings (v : Nat) (t : Tenant) : (setTenant s v t).rings = s.rings := rfl
@[simp] theorem setTenant_regs (v : Nat) (t : Tenant) : (setTenant s v t).regs = s.regs := rfl
@[simp] theorem setTenant_hubTime (v : Nat) (t : Tenant) : (setTenant s v t).hubTime = s.hubTime := rfl
@[simp] theorem setTenant_hubTimeHi (v : Nat) (t : Tenant) : (setTenant s v t).hubTimeHi = s.hubTimeHi := rfl
@[simp] theorem setTenant_windows (v : Nat) (t : Tenant) : (setTenant s v t).windows = s.windows := rfl
@[simp] theorem setTenant_err (v : Nat) (t : Tenant) : (setTenant s v t).err = s.err := rfl
@[simp] theorem setTenant_linkResults (v : Nat) (t : Tenant) : (setTenant s v t).linkResults = s.linkResults := rfl
@[simp] theorem setTenant_linkTests (v : Nat) (t : Tenant) : (setTenant s v t).linkTests = s.linkTests := rfl
@[simp] theorem setTenant_settings (v : Nat) (t : Tenant) : (setTenant s v t).settings = s.settings := rfl
@[simp] theorem setTenant_flash (v : Nat) (t : Tenant) : (setTenant s v t).flash = s.flash := rfl
@[simp] theorem setTenant_sfc (v : Nat) (t : Tenant) : (setTenant s v t).sfc = s.sfc := rfl
@[simp] theorem setTenant_serving (v : Nat) (t : Tenant) : (setTenant s v t).serving = s.serving := rfl
@[simp] theorem setTenant_sess (v : Nat) (t : Tenant) : (setTenant s v t).sess = s.sess := rfl
@[simp] theorem setTenant_eng (v : Nat) (t : Tenant) : (setTenant s v t).eng = s.eng := rfl
@[simp] theorem setTenant_cores (v : Nat) (t : Tenant) : (setTenant s v t).cores = s.cores := rfl
@[simp] theorem setTenant_uc (v : Nat) (t : Tenant) : (setTenant s v t).uc = s.uc := rfl
@[simp] theorem setTenant_posted (v : Nat) (t : Tenant) : (setTenant s v t).posted = s.posted := rfl
@[simp] theorem setTenant_memWaits (v : Nat) (t : Tenant) : (setTenant s v t).memWaits = s.memWaits := rfl
@[simp] theorem setTenant_hbm (v : Nat) (t : Tenant) : (setTenant s v t).hbm = s.hbm := rfl
@[simp] theorem setTenant_lnt (v : Nat) (t : Tenant) : (setTenant s v t).lnt = s.lnt := rfl
@[simp] theorem setTenant_hws (v : Nat) (t : Tenant) : (setTenant s v t).hws = s.hws := rfl
@[simp] theorem setTenant_twin (v : Nat) (t : Tenant) : (setTenant s v t).twin = s.twin := rfl
@[simp] theorem setTenant_cleat (v : Nat) (t : Tenant) : (setTenant s v t).cleat = s.cleat := rfl
@[simp] theorem setTenant_jtag (v : Nat) (t : Tenant) : (setTenant s v t).jtag = s.jtag := rfl
@[simp] theorem setTenant_power (v : Nat) (t : Tenant) : (setTenant s v t).power = s.power := rfl
@[simp] theorem setTenant_tenants (v : Nat) (t : Tenant) : (setTenant s v t).tenants = tput s.tenants v t := rfl
@[simp] theorem setTenant_xlat (v : Nat) (t : Tenant) : (setTenant s v t).xlat = s.xlat := rfl
@[simp] theorem setTenant_stackPoison (v : Nat) (t : Tenant) : (setTenant s v t).stackPoison = s.stackPoison := rfl
@[simp] theorem setTenant_endedOps (v : Nat) (t : Tenant) : (setTenant s v t).endedOps = s.endedOps := rfl
@[simp] theorem setTenant_mem (v : Nat) (t : Tenant) : (setTenant s v t).mem = s.mem := rfl
@[simp] theorem setTenant_hostMem (v : Nat) (t : Tenant) : (setTenant s v t).hostMem = s.hostMem := rfl
@[simp] theorem setTenant_free (v : Nat) (t : Tenant) : (setTenant s v t).free = s.free := rfl
@[simp] theorem setTenant_out (v : Nat) (t : Tenant) : (setTenant s v t).out = s.out := rfl
@[simp] theorem setTenant_pending (v : Nat) (t : Tenant) : (setTenant s v t).pending = s.pending := rfl

@[simp] theorem setServing_fuse (v : Serving) : (setServing s v).fuse = s.fuse := rfl
@[simp] theorem setServing_board (v : Serving) : (setServing s v).board = s.board := rfl
@[simp] theorem setServing_start (v : Serving) : (setServing s v).start = s.start := rfl
@[simp] theorem setServing_dies (v : Serving) : (setServing s v).dies = s.dies := rfl
@[simp] theorem setServing_stackIds (v : Serving) : (setServing s v).stackIds = s.stackIds := rfl
@[simp] theorem setServing_pcie (v : Serving) : (setServing s v).pcie = s.pcie := rfl
@[simp] theorem setServing_mbxs (v : Serving) : (setServing s v).mbxs = s.mbxs := rfl
@[simp] theorem setServing_rings (v : Serving) : (setServing s v).rings = s.rings := rfl
@[simp] theorem setServing_regs (v : Serving) : (setServing s v).regs = s.regs := rfl
@[simp] theorem setServing_hubTime (v : Serving) : (setServing s v).hubTime = s.hubTime := rfl
@[simp] theorem setServing_hubTimeHi (v : Serving) : (setServing s v).hubTimeHi = s.hubTimeHi := rfl
@[simp] theorem setServing_windows (v : Serving) : (setServing s v).windows = s.windows := rfl
@[simp] theorem setServing_err (v : Serving) : (setServing s v).err = s.err := rfl
@[simp] theorem setServing_linkResults (v : Serving) : (setServing s v).linkResults = s.linkResults := rfl
@[simp] theorem setServing_linkTests (v : Serving) : (setServing s v).linkTests = s.linkTests := rfl
@[simp] theorem setServing_settings (v : Serving) : (setServing s v).settings = s.settings := rfl
@[simp] theorem setServing_flash (v : Serving) : (setServing s v).flash = s.flash := rfl
@[simp] theorem setServing_sfc (v : Serving) : (setServing s v).sfc = s.sfc := rfl
@[simp] theorem setServing_serving (v : Serving) : (setServing s v).serving = v := rfl
@[simp] theorem setServing_sess (v : Serving) : (setServing s v).sess = s.sess := rfl
@[simp] theorem setServing_eng (v : Serving) : (setServing s v).eng = s.eng := rfl
@[simp] theorem setServing_cores (v : Serving) : (setServing s v).cores = s.cores := rfl
@[simp] theorem setServing_uc (v : Serving) : (setServing s v).uc = s.uc := rfl
@[simp] theorem setServing_posted (v : Serving) : (setServing s v).posted = s.posted := rfl
@[simp] theorem setServing_memWaits (v : Serving) : (setServing s v).memWaits = s.memWaits := rfl
@[simp] theorem setServing_hbm (v : Serving) : (setServing s v).hbm = s.hbm := rfl
@[simp] theorem setServing_lnt (v : Serving) : (setServing s v).lnt = s.lnt := rfl
@[simp] theorem setServing_hws (v : Serving) : (setServing s v).hws = s.hws := rfl
@[simp] theorem setServing_twin (v : Serving) : (setServing s v).twin = s.twin := rfl
@[simp] theorem setServing_cleat (v : Serving) : (setServing s v).cleat = s.cleat := rfl
@[simp] theorem setServing_jtag (v : Serving) : (setServing s v).jtag = s.jtag := rfl
@[simp] theorem setServing_power (v : Serving) : (setServing s v).power = s.power := rfl
@[simp] theorem setServing_tenants (v : Serving) : (setServing s v).tenants = s.tenants := rfl
@[simp] theorem setServing_xlat (v : Serving) : (setServing s v).xlat = s.xlat := rfl
@[simp] theorem setServing_stackPoison (v : Serving) : (setServing s v).stackPoison = s.stackPoison := rfl
@[simp] theorem setServing_endedOps (v : Serving) : (setServing s v).endedOps = s.endedOps := rfl
@[simp] theorem setServing_mem (v : Serving) : (setServing s v).mem = s.mem := rfl
@[simp] theorem setServing_hostMem (v : Serving) : (setServing s v).hostMem = s.hostMem := rfl
@[simp] theorem setServing_free (v : Serving) : (setServing s v).free = s.free := rfl
@[simp] theorem setServing_out (v : Serving) : (setServing s v).out = s.out := rfl
@[simp] theorem setServing_pending (v : Serving) : (setServing s v).pending = s.pending := rfl

@[simp] theorem setUc_fuse (u : Uc) : (setUc s u).fuse = s.fuse := rfl
@[simp] theorem setUc_board (u : Uc) : (setUc s u).board = s.board := rfl
@[simp] theorem setUc_start (u : Uc) : (setUc s u).start = s.start := rfl
@[simp] theorem setUc_dies (u : Uc) : (setUc s u).dies = s.dies := rfl
@[simp] theorem setUc_stackIds (u : Uc) : (setUc s u).stackIds = s.stackIds := rfl
@[simp] theorem setUc_pcie (u : Uc) : (setUc s u).pcie = s.pcie := rfl
@[simp] theorem setUc_mbxs (u : Uc) : (setUc s u).mbxs = s.mbxs := rfl
@[simp] theorem setUc_rings (u : Uc) : (setUc s u).rings = s.rings := rfl
@[simp] theorem setUc_regs (u : Uc) : (setUc s u).regs = s.regs := rfl
@[simp] theorem setUc_hubTime (u : Uc) : (setUc s u).hubTime = s.hubTime := rfl
@[simp] theorem setUc_hubTimeHi (u : Uc) : (setUc s u).hubTimeHi = s.hubTimeHi := rfl
@[simp] theorem setUc_windows (u : Uc) : (setUc s u).windows = s.windows := rfl
@[simp] theorem setUc_err (u : Uc) : (setUc s u).err = s.err := rfl
@[simp] theorem setUc_linkResults (u : Uc) : (setUc s u).linkResults = s.linkResults := rfl
@[simp] theorem setUc_linkTests (u : Uc) : (setUc s u).linkTests = s.linkTests := rfl
@[simp] theorem setUc_settings (u : Uc) : (setUc s u).settings = s.settings := rfl
@[simp] theorem setUc_flash (u : Uc) : (setUc s u).flash = s.flash := rfl
@[simp] theorem setUc_sfc (u : Uc) : (setUc s u).sfc = s.sfc := rfl
@[simp] theorem setUc_serving (u : Uc) : (setUc s u).serving = s.serving := rfl
@[simp] theorem setUc_sess (u : Uc) : (setUc s u).sess = s.sess := rfl
@[simp] theorem setUc_eng (u : Uc) : (setUc s u).eng = s.eng := rfl
@[simp] theorem setUc_cores (u : Uc) : (setUc s u).cores = s.cores := rfl
@[simp] theorem setUc_uc (u : Uc) : (setUc s u).uc = u := rfl
@[simp] theorem setUc_posted (u : Uc) : (setUc s u).posted = s.posted := rfl
@[simp] theorem setUc_memWaits (u : Uc) : (setUc s u).memWaits = s.memWaits := rfl
@[simp] theorem setUc_hbm (u : Uc) : (setUc s u).hbm = s.hbm := rfl
@[simp] theorem setUc_lnt (u : Uc) : (setUc s u).lnt = s.lnt := rfl
@[simp] theorem setUc_hws (u : Uc) : (setUc s u).hws = s.hws := rfl
@[simp] theorem setUc_twin (u : Uc) : (setUc s u).twin = s.twin := rfl
@[simp] theorem setUc_cleat (u : Uc) : (setUc s u).cleat = s.cleat := rfl
@[simp] theorem setUc_jtag (u : Uc) : (setUc s u).jtag = s.jtag := rfl
@[simp] theorem setUc_power (u : Uc) : (setUc s u).power = s.power := rfl
@[simp] theorem setUc_tenants (u : Uc) : (setUc s u).tenants = s.tenants := rfl
@[simp] theorem setUc_xlat (u : Uc) : (setUc s u).xlat = s.xlat := rfl
@[simp] theorem setUc_stackPoison (u : Uc) : (setUc s u).stackPoison = s.stackPoison := rfl
@[simp] theorem setUc_endedOps (u : Uc) : (setUc s u).endedOps = s.endedOps := rfl
@[simp] theorem setUc_mem (u : Uc) : (setUc s u).mem = s.mem := rfl
@[simp] theorem setUc_hostMem (u : Uc) : (setUc s u).hostMem = s.hostMem := rfl
@[simp] theorem setUc_free (u : Uc) : (setUc s u).free = s.free := rfl
@[simp] theorem setUc_out (u : Uc) : (setUc s u).out = s.out := rfl
@[simp] theorem setUc_pending (u : Uc) : (setUc s u).pending = s.pending := rfl

@[simp] theorem setCore_fuse (c : Nat) (x : Core) : (setCore s c x).fuse = s.fuse := rfl
@[simp] theorem setCore_board (c : Nat) (x : Core) : (setCore s c x).board = s.board := rfl
@[simp] theorem setCore_start (c : Nat) (x : Core) : (setCore s c x).start = s.start := rfl
@[simp] theorem setCore_dies (c : Nat) (x : Core) : (setCore s c x).dies = s.dies := rfl
@[simp] theorem setCore_stackIds (c : Nat) (x : Core) : (setCore s c x).stackIds = s.stackIds := rfl
@[simp] theorem setCore_pcie (c : Nat) (x : Core) : (setCore s c x).pcie = s.pcie := rfl
@[simp] theorem setCore_mbxs (c : Nat) (x : Core) : (setCore s c x).mbxs = s.mbxs := rfl
@[simp] theorem setCore_rings (c : Nat) (x : Core) : (setCore s c x).rings = s.rings := rfl
@[simp] theorem setCore_regs (c : Nat) (x : Core) : (setCore s c x).regs = s.regs := rfl
@[simp] theorem setCore_hubTime (c : Nat) (x : Core) : (setCore s c x).hubTime = s.hubTime := rfl
@[simp] theorem setCore_hubTimeHi (c : Nat) (x : Core) : (setCore s c x).hubTimeHi = s.hubTimeHi := rfl
@[simp] theorem setCore_windows (c : Nat) (x : Core) : (setCore s c x).windows = s.windows := rfl
@[simp] theorem setCore_err (c : Nat) (x : Core) : (setCore s c x).err = s.err := rfl
@[simp] theorem setCore_linkResults (c : Nat) (x : Core) : (setCore s c x).linkResults = s.linkResults := rfl
@[simp] theorem setCore_linkTests (c : Nat) (x : Core) : (setCore s c x).linkTests = s.linkTests := rfl
@[simp] theorem setCore_settings (c : Nat) (x : Core) : (setCore s c x).settings = s.settings := rfl
@[simp] theorem setCore_flash (c : Nat) (x : Core) : (setCore s c x).flash = s.flash := rfl
@[simp] theorem setCore_sfc (c : Nat) (x : Core) : (setCore s c x).sfc = s.sfc := rfl
@[simp] theorem setCore_serving (c : Nat) (x : Core) : (setCore s c x).serving = s.serving := rfl
@[simp] theorem setCore_sess (c : Nat) (x : Core) : (setCore s c x).sess = s.sess := rfl
@[simp] theorem setCore_eng (c : Nat) (x : Core) : (setCore s c x).eng = s.eng := rfl
@[simp] theorem setCore_cores (c : Nat) (x : Core) : (setCore s c x).cores = tput s.cores c x := rfl
@[simp] theorem setCore_uc (c : Nat) (x : Core) : (setCore s c x).uc = s.uc := rfl
@[simp] theorem setCore_posted (c : Nat) (x : Core) : (setCore s c x).posted = s.posted := rfl
@[simp] theorem setCore_memWaits (c : Nat) (x : Core) : (setCore s c x).memWaits = s.memWaits := rfl
@[simp] theorem setCore_hbm (c : Nat) (x : Core) : (setCore s c x).hbm = s.hbm := rfl
@[simp] theorem setCore_lnt (c : Nat) (x : Core) : (setCore s c x).lnt = s.lnt := rfl
@[simp] theorem setCore_hws (c : Nat) (x : Core) : (setCore s c x).hws = s.hws := rfl
@[simp] theorem setCore_twin (c : Nat) (x : Core) : (setCore s c x).twin = s.twin := rfl
@[simp] theorem setCore_cleat (c : Nat) (x : Core) : (setCore s c x).cleat = s.cleat := rfl
@[simp] theorem setCore_jtag (c : Nat) (x : Core) : (setCore s c x).jtag = s.jtag := rfl
@[simp] theorem setCore_power (c : Nat) (x : Core) : (setCore s c x).power = s.power := rfl
@[simp] theorem setCore_tenants (c : Nat) (x : Core) : (setCore s c x).tenants = s.tenants := rfl
@[simp] theorem setCore_xlat (c : Nat) (x : Core) : (setCore s c x).xlat = s.xlat := rfl
@[simp] theorem setCore_stackPoison (c : Nat) (x : Core) : (setCore s c x).stackPoison = s.stackPoison := rfl
@[simp] theorem setCore_endedOps (c : Nat) (x : Core) : (setCore s c x).endedOps = s.endedOps := rfl
@[simp] theorem setCore_mem (c : Nat) (x : Core) : (setCore s c x).mem = s.mem := rfl
@[simp] theorem setCore_hostMem (c : Nat) (x : Core) : (setCore s c x).hostMem = s.hostMem := rfl
@[simp] theorem setCore_free (c : Nat) (x : Core) : (setCore s c x).free = s.free := rfl
@[simp] theorem setCore_out (c : Nat) (x : Core) : (setCore s c x).out = s.out := rfl
@[simp] theorem setCore_pending (c : Nat) (x : Core) : (setCore s c x).pending = s.pending := rfl

@[simp] theorem setLaunch_fuse (l : Nat) (x : Launch) : (setLaunch s l x).fuse = s.fuse := rfl
@[simp] theorem setLaunch_board (l : Nat) (x : Launch) : (setLaunch s l x).board = s.board := rfl
@[simp] theorem setLaunch_start (l : Nat) (x : Launch) : (setLaunch s l x).start = s.start := rfl
@[simp] theorem setLaunch_dies (l : Nat) (x : Launch) : (setLaunch s l x).dies = s.dies := rfl
@[simp] theorem setLaunch_stackIds (l : Nat) (x : Launch) : (setLaunch s l x).stackIds = s.stackIds := rfl
@[simp] theorem setLaunch_pcie (l : Nat) (x : Launch) : (setLaunch s l x).pcie = s.pcie := rfl
@[simp] theorem setLaunch_mbxs (l : Nat) (x : Launch) : (setLaunch s l x).mbxs = s.mbxs := rfl
@[simp] theorem setLaunch_rings (l : Nat) (x : Launch) : (setLaunch s l x).rings = s.rings := rfl
@[simp] theorem setLaunch_regs (l : Nat) (x : Launch) : (setLaunch s l x).regs = s.regs := rfl
@[simp] theorem setLaunch_hubTime (l : Nat) (x : Launch) : (setLaunch s l x).hubTime = s.hubTime := rfl
@[simp] theorem setLaunch_hubTimeHi (l : Nat) (x : Launch) : (setLaunch s l x).hubTimeHi = s.hubTimeHi := rfl
@[simp] theorem setLaunch_windows (l : Nat) (x : Launch) : (setLaunch s l x).windows = s.windows := rfl
@[simp] theorem setLaunch_err (l : Nat) (x : Launch) : (setLaunch s l x).err = s.err := rfl
@[simp] theorem setLaunch_linkResults (l : Nat) (x : Launch) : (setLaunch s l x).linkResults = s.linkResults := rfl
@[simp] theorem setLaunch_linkTests (l : Nat) (x : Launch) : (setLaunch s l x).linkTests = s.linkTests := rfl
@[simp] theorem setLaunch_settings (l : Nat) (x : Launch) : (setLaunch s l x).settings = s.settings := rfl
@[simp] theorem setLaunch_flash (l : Nat) (x : Launch) : (setLaunch s l x).flash = s.flash := rfl
@[simp] theorem setLaunch_sfc (l : Nat) (x : Launch) : (setLaunch s l x).sfc = s.sfc := rfl
@[simp] theorem setLaunch_serving (l : Nat) (x : Launch) : (setLaunch s l x).serving = s.serving := rfl
@[simp] theorem setLaunch_sess (l : Nat) (x : Launch) : (setLaunch s l x).sess = s.sess := rfl
@[simp] theorem setLaunch_cores (l : Nat) (x : Launch) : (setLaunch s l x).cores = s.cores := rfl
@[simp] theorem setLaunch_uc (l : Nat) (x : Launch) : (setLaunch s l x).uc = s.uc := rfl
@[simp] theorem setLaunch_posted (l : Nat) (x : Launch) : (setLaunch s l x).posted = s.posted := rfl
@[simp] theorem setLaunch_memWaits (l : Nat) (x : Launch) : (setLaunch s l x).memWaits = s.memWaits := rfl
@[simp] theorem setLaunch_hbm (l : Nat) (x : Launch) : (setLaunch s l x).hbm = s.hbm := rfl
@[simp] theorem setLaunch_lnt (l : Nat) (x : Launch) : (setLaunch s l x).lnt = s.lnt := rfl
@[simp] theorem setLaunch_hws (l : Nat) (x : Launch) : (setLaunch s l x).hws = s.hws := rfl
@[simp] theorem setLaunch_twin (l : Nat) (x : Launch) : (setLaunch s l x).twin = s.twin := rfl
@[simp] theorem setLaunch_cleat (l : Nat) (x : Launch) : (setLaunch s l x).cleat = s.cleat := rfl
@[simp] theorem setLaunch_jtag (l : Nat) (x : Launch) : (setLaunch s l x).jtag = s.jtag := rfl
@[simp] theorem setLaunch_power (l : Nat) (x : Launch) : (setLaunch s l x).power = s.power := rfl
@[simp] theorem setLaunch_tenants (l : Nat) (x : Launch) : (setLaunch s l x).tenants = s.tenants := rfl
@[simp] theorem setLaunch_xlat (l : Nat) (x : Launch) : (setLaunch s l x).xlat = s.xlat := rfl
@[simp] theorem setLaunch_stackPoison (l : Nat) (x : Launch) : (setLaunch s l x).stackPoison = s.stackPoison := rfl
@[simp] theorem setLaunch_endedOps (l : Nat) (x : Launch) : (setLaunch s l x).endedOps = s.endedOps := rfl
@[simp] theorem setLaunch_mem (l : Nat) (x : Launch) : (setLaunch s l x).mem = s.mem := rfl
@[simp] theorem setLaunch_hostMem (l : Nat) (x : Launch) : (setLaunch s l x).hostMem = s.hostMem := rfl
@[simp] theorem setLaunch_free (l : Nat) (x : Launch) : (setLaunch s l x).free = s.free := rfl
@[simp] theorem setLaunch_out (l : Nat) (x : Launch) : (setLaunch s l x).out = s.out := rfl
@[simp] theorem setLaunch_pending (l : Nat) (x : Launch) : (setLaunch s l x).pending = s.pending := rfl

@[simp] theorem setLntPort_fuse (k : Nat) (p : LntPort) : (setLntPort s k p).fuse = s.fuse := rfl
@[simp] theorem setLntPort_board (k : Nat) (p : LntPort) : (setLntPort s k p).board = s.board := rfl
@[simp] theorem setLntPort_start (k : Nat) (p : LntPort) : (setLntPort s k p).start = s.start := rfl
@[simp] theorem setLntPort_dies (k : Nat) (p : LntPort) : (setLntPort s k p).dies = s.dies := rfl
@[simp] theorem setLntPort_stackIds (k : Nat) (p : LntPort) : (setLntPort s k p).stackIds = s.stackIds := rfl
@[simp] theorem setLntPort_pcie (k : Nat) (p : LntPort) : (setLntPort s k p).pcie = s.pcie := rfl
@[simp] theorem setLntPort_mbxs (k : Nat) (p : LntPort) : (setLntPort s k p).mbxs = s.mbxs := rfl
@[simp] theorem setLntPort_rings (k : Nat) (p : LntPort) : (setLntPort s k p).rings = s.rings := rfl
@[simp] theorem setLntPort_regs (k : Nat) (p : LntPort) : (setLntPort s k p).regs = s.regs := rfl
@[simp] theorem setLntPort_hubTime (k : Nat) (p : LntPort) : (setLntPort s k p).hubTime = s.hubTime := rfl
@[simp] theorem setLntPort_hubTimeHi (k : Nat) (p : LntPort) : (setLntPort s k p).hubTimeHi = s.hubTimeHi := rfl
@[simp] theorem setLntPort_windows (k : Nat) (p : LntPort) : (setLntPort s k p).windows = s.windows := rfl
@[simp] theorem setLntPort_err (k : Nat) (p : LntPort) : (setLntPort s k p).err = s.err := rfl
@[simp] theorem setLntPort_linkResults (k : Nat) (p : LntPort) : (setLntPort s k p).linkResults = s.linkResults := rfl
@[simp] theorem setLntPort_linkTests (k : Nat) (p : LntPort) : (setLntPort s k p).linkTests = s.linkTests := rfl
@[simp] theorem setLntPort_settings (k : Nat) (p : LntPort) : (setLntPort s k p).settings = s.settings := rfl
@[simp] theorem setLntPort_flash (k : Nat) (p : LntPort) : (setLntPort s k p).flash = s.flash := rfl
@[simp] theorem setLntPort_sfc (k : Nat) (p : LntPort) : (setLntPort s k p).sfc = s.sfc := rfl
@[simp] theorem setLntPort_serving (k : Nat) (p : LntPort) : (setLntPort s k p).serving = s.serving := rfl
@[simp] theorem setLntPort_sess (k : Nat) (p : LntPort) : (setLntPort s k p).sess = s.sess := rfl
@[simp] theorem setLntPort_eng (k : Nat) (p : LntPort) : (setLntPort s k p).eng = s.eng := rfl
@[simp] theorem setLntPort_cores (k : Nat) (p : LntPort) : (setLntPort s k p).cores = s.cores := rfl
@[simp] theorem setLntPort_uc (k : Nat) (p : LntPort) : (setLntPort s k p).uc = s.uc := rfl
@[simp] theorem setLntPort_posted (k : Nat) (p : LntPort) : (setLntPort s k p).posted = s.posted := rfl
@[simp] theorem setLntPort_memWaits (k : Nat) (p : LntPort) : (setLntPort s k p).memWaits = s.memWaits := rfl
@[simp] theorem setLntPort_hbm (k : Nat) (p : LntPort) : (setLntPort s k p).hbm = s.hbm := rfl
@[simp] theorem setLntPort_hws (k : Nat) (p : LntPort) : (setLntPort s k p).hws = s.hws := rfl
@[simp] theorem setLntPort_twin (k : Nat) (p : LntPort) : (setLntPort s k p).twin = s.twin := rfl
@[simp] theorem setLntPort_cleat (k : Nat) (p : LntPort) : (setLntPort s k p).cleat = s.cleat := rfl
@[simp] theorem setLntPort_jtag (k : Nat) (p : LntPort) : (setLntPort s k p).jtag = s.jtag := rfl
@[simp] theorem setLntPort_power (k : Nat) (p : LntPort) : (setLntPort s k p).power = s.power := rfl
@[simp] theorem setLntPort_tenants (k : Nat) (p : LntPort) : (setLntPort s k p).tenants = s.tenants := rfl
@[simp] theorem setLntPort_xlat (k : Nat) (p : LntPort) : (setLntPort s k p).xlat = s.xlat := rfl
@[simp] theorem setLntPort_stackPoison (k : Nat) (p : LntPort) : (setLntPort s k p).stackPoison = s.stackPoison := rfl
@[simp] theorem setLntPort_endedOps (k : Nat) (p : LntPort) : (setLntPort s k p).endedOps = s.endedOps := rfl
@[simp] theorem setLntPort_mem (k : Nat) (p : LntPort) : (setLntPort s k p).mem = s.mem := rfl
@[simp] theorem setLntPort_hostMem (k : Nat) (p : LntPort) : (setLntPort s k p).hostMem = s.hostMem := rfl
@[simp] theorem setLntPort_free (k : Nat) (p : LntPort) : (setLntPort s k p).free = s.free := rfl
@[simp] theorem setLntPort_out (k : Nat) (p : LntPort) : (setLntPort s k p).out = s.out := rfl
@[simp] theorem setLntPort_pending (k : Nat) (p : LntPort) : (setLntPort s k p).pending = s.pending := rfl

@[simp] theorem setHwsPort_fuse (p : Nat) (x : HwsPort) : (setHwsPort s p x).fuse = s.fuse := rfl
@[simp] theorem setHwsPort_board (p : Nat) (x : HwsPort) : (setHwsPort s p x).board = s.board := rfl
@[simp] theorem setHwsPort_start (p : Nat) (x : HwsPort) : (setHwsPort s p x).start = s.start := rfl
@[simp] theorem setHwsPort_dies (p : Nat) (x : HwsPort) : (setHwsPort s p x).dies = s.dies := rfl
@[simp] theorem setHwsPort_stackIds (p : Nat) (x : HwsPort) : (setHwsPort s p x).stackIds = s.stackIds := rfl
@[simp] theorem setHwsPort_pcie (p : Nat) (x : HwsPort) : (setHwsPort s p x).pcie = s.pcie := rfl
@[simp] theorem setHwsPort_mbxs (p : Nat) (x : HwsPort) : (setHwsPort s p x).mbxs = s.mbxs := rfl
@[simp] theorem setHwsPort_rings (p : Nat) (x : HwsPort) : (setHwsPort s p x).rings = s.rings := rfl
@[simp] theorem setHwsPort_regs (p : Nat) (x : HwsPort) : (setHwsPort s p x).regs = s.regs := rfl
@[simp] theorem setHwsPort_hubTime (p : Nat) (x : HwsPort) : (setHwsPort s p x).hubTime = s.hubTime := rfl
@[simp] theorem setHwsPort_hubTimeHi (p : Nat) (x : HwsPort) : (setHwsPort s p x).hubTimeHi = s.hubTimeHi := rfl
@[simp] theorem setHwsPort_windows (p : Nat) (x : HwsPort) : (setHwsPort s p x).windows = s.windows := rfl
@[simp] theorem setHwsPort_err (p : Nat) (x : HwsPort) : (setHwsPort s p x).err = s.err := rfl
@[simp] theorem setHwsPort_linkResults (p : Nat) (x : HwsPort) : (setHwsPort s p x).linkResults = s.linkResults := rfl
@[simp] theorem setHwsPort_linkTests (p : Nat) (x : HwsPort) : (setHwsPort s p x).linkTests = s.linkTests := rfl
@[simp] theorem setHwsPort_settings (p : Nat) (x : HwsPort) : (setHwsPort s p x).settings = s.settings := rfl
@[simp] theorem setHwsPort_flash (p : Nat) (x : HwsPort) : (setHwsPort s p x).flash = s.flash := rfl
@[simp] theorem setHwsPort_sfc (p : Nat) (x : HwsPort) : (setHwsPort s p x).sfc = s.sfc := rfl
@[simp] theorem setHwsPort_serving (p : Nat) (x : HwsPort) : (setHwsPort s p x).serving = s.serving := rfl
@[simp] theorem setHwsPort_sess (p : Nat) (x : HwsPort) : (setHwsPort s p x).sess = s.sess := rfl
@[simp] theorem setHwsPort_eng (p : Nat) (x : HwsPort) : (setHwsPort s p x).eng = s.eng := rfl
@[simp] theorem setHwsPort_cores (p : Nat) (x : HwsPort) : (setHwsPort s p x).cores = s.cores := rfl
@[simp] theorem setHwsPort_uc (p : Nat) (x : HwsPort) : (setHwsPort s p x).uc = s.uc := rfl
@[simp] theorem setHwsPort_posted (p : Nat) (x : HwsPort) : (setHwsPort s p x).posted = s.posted := rfl
@[simp] theorem setHwsPort_memWaits (p : Nat) (x : HwsPort) : (setHwsPort s p x).memWaits = s.memWaits := rfl
@[simp] theorem setHwsPort_hbm (p : Nat) (x : HwsPort) : (setHwsPort s p x).hbm = s.hbm := rfl
@[simp] theorem setHwsPort_lnt (p : Nat) (x : HwsPort) : (setHwsPort s p x).lnt = s.lnt := rfl
@[simp] theorem setHwsPort_twin (p : Nat) (x : HwsPort) : (setHwsPort s p x).twin = s.twin := rfl
@[simp] theorem setHwsPort_cleat (p : Nat) (x : HwsPort) : (setHwsPort s p x).cleat = s.cleat := rfl
@[simp] theorem setHwsPort_jtag (p : Nat) (x : HwsPort) : (setHwsPort s p x).jtag = s.jtag := rfl
@[simp] theorem setHwsPort_power (p : Nat) (x : HwsPort) : (setHwsPort s p x).power = s.power := rfl
@[simp] theorem setHwsPort_tenants (p : Nat) (x : HwsPort) : (setHwsPort s p x).tenants = s.tenants := rfl
@[simp] theorem setHwsPort_xlat (p : Nat) (x : HwsPort) : (setHwsPort s p x).xlat = s.xlat := rfl
@[simp] theorem setHwsPort_stackPoison (p : Nat) (x : HwsPort) : (setHwsPort s p x).stackPoison = s.stackPoison := rfl
@[simp] theorem setHwsPort_endedOps (p : Nat) (x : HwsPort) : (setHwsPort s p x).endedOps = s.endedOps := rfl
@[simp] theorem setHwsPort_mem (p : Nat) (x : HwsPort) : (setHwsPort s p x).mem = s.mem := rfl
@[simp] theorem setHwsPort_hostMem (p : Nat) (x : HwsPort) : (setHwsPort s p x).hostMem = s.hostMem := rfl
@[simp] theorem setHwsPort_free (p : Nat) (x : HwsPort) : (setHwsPort s p x).free = s.free := rfl
@[simp] theorem setHwsPort_out (p : Nat) (x : HwsPort) : (setHwsPort s p x).out = s.out := rfl
@[simp] theorem setHwsPort_pending (p : Nat) (x : HwsPort) : (setHwsPort s p x).pending = s.pending := rfl

@[simp] theorem setStackCtl_fuse (d : Nat) (c : StackCtl) : (setStackCtl s d c).fuse = s.fuse := rfl
@[simp] theorem setStackCtl_board (d : Nat) (c : StackCtl) : (setStackCtl s d c).board = s.board := rfl
@[simp] theorem setStackCtl_start (d : Nat) (c : StackCtl) : (setStackCtl s d c).start = s.start := rfl
@[simp] theorem setStackCtl_dies (d : Nat) (c : StackCtl) : (setStackCtl s d c).dies = s.dies := rfl
@[simp] theorem setStackCtl_stackIds (d : Nat) (c : StackCtl) : (setStackCtl s d c).stackIds = s.stackIds := rfl
@[simp] theorem setStackCtl_pcie (d : Nat) (c : StackCtl) : (setStackCtl s d c).pcie = s.pcie := rfl
@[simp] theorem setStackCtl_mbxs (d : Nat) (c : StackCtl) : (setStackCtl s d c).mbxs = s.mbxs := rfl
@[simp] theorem setStackCtl_rings (d : Nat) (c : StackCtl) : (setStackCtl s d c).rings = s.rings := rfl
@[simp] theorem setStackCtl_regs (d : Nat) (c : StackCtl) : (setStackCtl s d c).regs = s.regs := rfl
@[simp] theorem setStackCtl_hubTime (d : Nat) (c : StackCtl) : (setStackCtl s d c).hubTime = s.hubTime := rfl
@[simp] theorem setStackCtl_hubTimeHi (d : Nat) (c : StackCtl) : (setStackCtl s d c).hubTimeHi = s.hubTimeHi := rfl
@[simp] theorem setStackCtl_windows (d : Nat) (c : StackCtl) : (setStackCtl s d c).windows = s.windows := rfl
@[simp] theorem setStackCtl_err (d : Nat) (c : StackCtl) : (setStackCtl s d c).err = s.err := rfl
@[simp] theorem setStackCtl_linkResults (d : Nat) (c : StackCtl) : (setStackCtl s d c).linkResults = s.linkResults := rfl
@[simp] theorem setStackCtl_linkTests (d : Nat) (c : StackCtl) : (setStackCtl s d c).linkTests = s.linkTests := rfl
@[simp] theorem setStackCtl_settings (d : Nat) (c : StackCtl) : (setStackCtl s d c).settings = s.settings := rfl
@[simp] theorem setStackCtl_flash (d : Nat) (c : StackCtl) : (setStackCtl s d c).flash = s.flash := rfl
@[simp] theorem setStackCtl_sfc (d : Nat) (c : StackCtl) : (setStackCtl s d c).sfc = s.sfc := rfl
@[simp] theorem setStackCtl_serving (d : Nat) (c : StackCtl) : (setStackCtl s d c).serving = s.serving := rfl
@[simp] theorem setStackCtl_sess (d : Nat) (c : StackCtl) : (setStackCtl s d c).sess = s.sess := rfl
@[simp] theorem setStackCtl_eng (d : Nat) (c : StackCtl) : (setStackCtl s d c).eng = s.eng := rfl
@[simp] theorem setStackCtl_cores (d : Nat) (c : StackCtl) : (setStackCtl s d c).cores = s.cores := rfl
@[simp] theorem setStackCtl_uc (d : Nat) (c : StackCtl) : (setStackCtl s d c).uc = s.uc := rfl
@[simp] theorem setStackCtl_posted (d : Nat) (c : StackCtl) : (setStackCtl s d c).posted = s.posted := rfl
@[simp] theorem setStackCtl_memWaits (d : Nat) (c : StackCtl) : (setStackCtl s d c).memWaits = s.memWaits := rfl
@[simp] theorem setStackCtl_hbm (d : Nat) (c : StackCtl) : (setStackCtl s d c).hbm = tput s.hbm d c := rfl
@[simp] theorem setStackCtl_lnt (d : Nat) (c : StackCtl) : (setStackCtl s d c).lnt = s.lnt := rfl
@[simp] theorem setStackCtl_hws (d : Nat) (c : StackCtl) : (setStackCtl s d c).hws = s.hws := rfl
@[simp] theorem setStackCtl_twin (d : Nat) (c : StackCtl) : (setStackCtl s d c).twin = s.twin := rfl
@[simp] theorem setStackCtl_cleat (d : Nat) (c : StackCtl) : (setStackCtl s d c).cleat = s.cleat := rfl
@[simp] theorem setStackCtl_jtag (d : Nat) (c : StackCtl) : (setStackCtl s d c).jtag = s.jtag := rfl
@[simp] theorem setStackCtl_power (d : Nat) (c : StackCtl) : (setStackCtl s d c).power = s.power := rfl
@[simp] theorem setStackCtl_tenants (d : Nat) (c : StackCtl) : (setStackCtl s d c).tenants = s.tenants := rfl
@[simp] theorem setStackCtl_xlat (d : Nat) (c : StackCtl) : (setStackCtl s d c).xlat = s.xlat := rfl
@[simp] theorem setStackCtl_stackPoison (d : Nat) (c : StackCtl) : (setStackCtl s d c).stackPoison = s.stackPoison := rfl
@[simp] theorem setStackCtl_endedOps (d : Nat) (c : StackCtl) : (setStackCtl s d c).endedOps = s.endedOps := rfl
@[simp] theorem setStackCtl_mem (d : Nat) (c : StackCtl) : (setStackCtl s d c).mem = s.mem := rfl
@[simp] theorem setStackCtl_hostMem (d : Nat) (c : StackCtl) : (setStackCtl s d c).hostMem = s.hostMem := rfl
@[simp] theorem setStackCtl_free (d : Nat) (c : StackCtl) : (setStackCtl s d c).free = s.free := rfl
@[simp] theorem setStackCtl_out (d : Nat) (c : StackCtl) : (setStackCtl s d c).out = s.out := rfl
@[simp] theorem setStackCtl_pending (d : Nat) (c : StackCtl) : (setStackCtl s d c).pending = s.pending := rfl

@[simp] theorem setCleat_fuse (c : Cleat) : (setCleat s c).fuse = s.fuse := rfl
@[simp] theorem setCleat_board (c : Cleat) : (setCleat s c).board = s.board := rfl
@[simp] theorem setCleat_start (c : Cleat) : (setCleat s c).start = s.start := rfl
@[simp] theorem setCleat_dies (c : Cleat) : (setCleat s c).dies = s.dies := rfl
@[simp] theorem setCleat_stackIds (c : Cleat) : (setCleat s c).stackIds = s.stackIds := rfl
@[simp] theorem setCleat_pcie (c : Cleat) : (setCleat s c).pcie = s.pcie := rfl
@[simp] theorem setCleat_mbxs (c : Cleat) : (setCleat s c).mbxs = s.mbxs := rfl
@[simp] theorem setCleat_rings (c : Cleat) : (setCleat s c).rings = s.rings := rfl
@[simp] theorem setCleat_regs (c : Cleat) : (setCleat s c).regs = s.regs := rfl
@[simp] theorem setCleat_hubTime (c : Cleat) : (setCleat s c).hubTime = s.hubTime := rfl
@[simp] theorem setCleat_hubTimeHi (c : Cleat) : (setCleat s c).hubTimeHi = s.hubTimeHi := rfl
@[simp] theorem setCleat_windows (c : Cleat) : (setCleat s c).windows = s.windows := rfl
@[simp] theorem setCleat_err (c : Cleat) : (setCleat s c).err = s.err := rfl
@[simp] theorem setCleat_linkResults (c : Cleat) : (setCleat s c).linkResults = s.linkResults := rfl
@[simp] theorem setCleat_linkTests (c : Cleat) : (setCleat s c).linkTests = s.linkTests := rfl
@[simp] theorem setCleat_settings (c : Cleat) : (setCleat s c).settings = s.settings := rfl
@[simp] theorem setCleat_flash (c : Cleat) : (setCleat s c).flash = s.flash := rfl
@[simp] theorem setCleat_sfc (c : Cleat) : (setCleat s c).sfc = s.sfc := rfl
@[simp] theorem setCleat_serving (c : Cleat) : (setCleat s c).serving = s.serving := rfl
@[simp] theorem setCleat_sess (c : Cleat) : (setCleat s c).sess = s.sess := rfl
@[simp] theorem setCleat_eng (c : Cleat) : (setCleat s c).eng = s.eng := rfl
@[simp] theorem setCleat_cores (c : Cleat) : (setCleat s c).cores = s.cores := rfl
@[simp] theorem setCleat_uc (c : Cleat) : (setCleat s c).uc = s.uc := rfl
@[simp] theorem setCleat_posted (c : Cleat) : (setCleat s c).posted = s.posted := rfl
@[simp] theorem setCleat_memWaits (c : Cleat) : (setCleat s c).memWaits = s.memWaits := rfl
@[simp] theorem setCleat_hbm (c : Cleat) : (setCleat s c).hbm = s.hbm := rfl
@[simp] theorem setCleat_lnt (c : Cleat) : (setCleat s c).lnt = s.lnt := rfl
@[simp] theorem setCleat_hws (c : Cleat) : (setCleat s c).hws = s.hws := rfl
@[simp] theorem setCleat_twin (c : Cleat) : (setCleat s c).twin = s.twin := rfl
@[simp] theorem setCleat_cleat (c : Cleat) : (setCleat s c).cleat = c := rfl
@[simp] theorem setCleat_jtag (c : Cleat) : (setCleat s c).jtag = s.jtag := rfl
@[simp] theorem setCleat_power (c : Cleat) : (setCleat s c).power = s.power := rfl
@[simp] theorem setCleat_tenants (c : Cleat) : (setCleat s c).tenants = s.tenants := rfl
@[simp] theorem setCleat_xlat (c : Cleat) : (setCleat s c).xlat = s.xlat := rfl
@[simp] theorem setCleat_stackPoison (c : Cleat) : (setCleat s c).stackPoison = s.stackPoison := rfl
@[simp] theorem setCleat_endedOps (c : Cleat) : (setCleat s c).endedOps = s.endedOps := rfl
@[simp] theorem setCleat_mem (c : Cleat) : (setCleat s c).mem = s.mem := rfl
@[simp] theorem setCleat_hostMem (c : Cleat) : (setCleat s c).hostMem = s.hostMem := rfl
@[simp] theorem setCleat_free (c : Cleat) : (setCleat s c).free = s.free := rfl
@[simp] theorem setCleat_out (c : Cleat) : (setCleat s c).out = s.out := rfl
@[simp] theorem setCleat_pending (c : Cleat) : (setCleat s c).pending = s.pending := rfl

@[simp] theorem setTwin_fuse (t : Twin) : (setTwin s t).fuse = s.fuse := rfl
@[simp] theorem setTwin_board (t : Twin) : (setTwin s t).board = s.board := rfl
@[simp] theorem setTwin_start (t : Twin) : (setTwin s t).start = s.start := rfl
@[simp] theorem setTwin_dies (t : Twin) : (setTwin s t).dies = s.dies := rfl
@[simp] theorem setTwin_stackIds (t : Twin) : (setTwin s t).stackIds = s.stackIds := rfl
@[simp] theorem setTwin_pcie (t : Twin) : (setTwin s t).pcie = s.pcie := rfl
@[simp] theorem setTwin_mbxs (t : Twin) : (setTwin s t).mbxs = s.mbxs := rfl
@[simp] theorem setTwin_rings (t : Twin) : (setTwin s t).rings = s.rings := rfl
@[simp] theorem setTwin_regs (t : Twin) : (setTwin s t).regs = s.regs := rfl
@[simp] theorem setTwin_hubTime (t : Twin) : (setTwin s t).hubTime = s.hubTime := rfl
@[simp] theorem setTwin_hubTimeHi (t : Twin) : (setTwin s t).hubTimeHi = s.hubTimeHi := rfl
@[simp] theorem setTwin_windows (t : Twin) : (setTwin s t).windows = s.windows := rfl
@[simp] theorem setTwin_err (t : Twin) : (setTwin s t).err = s.err := rfl
@[simp] theorem setTwin_linkResults (t : Twin) : (setTwin s t).linkResults = s.linkResults := rfl
@[simp] theorem setTwin_linkTests (t : Twin) : (setTwin s t).linkTests = s.linkTests := rfl
@[simp] theorem setTwin_settings (t : Twin) : (setTwin s t).settings = s.settings := rfl
@[simp] theorem setTwin_flash (t : Twin) : (setTwin s t).flash = s.flash := rfl
@[simp] theorem setTwin_sfc (t : Twin) : (setTwin s t).sfc = s.sfc := rfl
@[simp] theorem setTwin_serving (t : Twin) : (setTwin s t).serving = s.serving := rfl
@[simp] theorem setTwin_sess (t : Twin) : (setTwin s t).sess = s.sess := rfl
@[simp] theorem setTwin_eng (t : Twin) : (setTwin s t).eng = s.eng := rfl
@[simp] theorem setTwin_cores (t : Twin) : (setTwin s t).cores = s.cores := rfl
@[simp] theorem setTwin_uc (t : Twin) : (setTwin s t).uc = s.uc := rfl
@[simp] theorem setTwin_posted (t : Twin) : (setTwin s t).posted = s.posted := rfl
@[simp] theorem setTwin_memWaits (t : Twin) : (setTwin s t).memWaits = s.memWaits := rfl
@[simp] theorem setTwin_hbm (t : Twin) : (setTwin s t).hbm = s.hbm := rfl
@[simp] theorem setTwin_lnt (t : Twin) : (setTwin s t).lnt = s.lnt := rfl
@[simp] theorem setTwin_hws (t : Twin) : (setTwin s t).hws = s.hws := rfl
@[simp] theorem setTwin_twin (t : Twin) : (setTwin s t).twin = t := rfl
@[simp] theorem setTwin_cleat (t : Twin) : (setTwin s t).cleat = s.cleat := rfl
@[simp] theorem setTwin_jtag (t : Twin) : (setTwin s t).jtag = s.jtag := rfl
@[simp] theorem setTwin_power (t : Twin) : (setTwin s t).power = s.power := rfl
@[simp] theorem setTwin_tenants (t : Twin) : (setTwin s t).tenants = s.tenants := rfl
@[simp] theorem setTwin_xlat (t : Twin) : (setTwin s t).xlat = s.xlat := rfl
@[simp] theorem setTwin_stackPoison (t : Twin) : (setTwin s t).stackPoison = s.stackPoison := rfl
@[simp] theorem setTwin_endedOps (t : Twin) : (setTwin s t).endedOps = s.endedOps := rfl
@[simp] theorem setTwin_mem (t : Twin) : (setTwin s t).mem = s.mem := rfl
@[simp] theorem setTwin_hostMem (t : Twin) : (setTwin s t).hostMem = s.hostMem := rfl
@[simp] theorem setTwin_free (t : Twin) : (setTwin s t).free = s.free := rfl
@[simp] theorem setTwin_out (t : Twin) : (setTwin s t).out = s.out := rfl
@[simp] theorem setTwin_pending (t : Twin) : (setTwin s t).pending = s.pending := rfl

@[simp] theorem setPower_fuse (p : Power) : (setPower s p).fuse = s.fuse := rfl
@[simp] theorem setPower_board (p : Power) : (setPower s p).board = s.board := rfl
@[simp] theorem setPower_start (p : Power) : (setPower s p).start = s.start := rfl
@[simp] theorem setPower_dies (p : Power) : (setPower s p).dies = s.dies := rfl
@[simp] theorem setPower_stackIds (p : Power) : (setPower s p).stackIds = s.stackIds := rfl
@[simp] theorem setPower_pcie (p : Power) : (setPower s p).pcie = s.pcie := rfl
@[simp] theorem setPower_mbxs (p : Power) : (setPower s p).mbxs = s.mbxs := rfl
@[simp] theorem setPower_rings (p : Power) : (setPower s p).rings = s.rings := rfl
@[simp] theorem setPower_regs (p : Power) : (setPower s p).regs = s.regs := rfl
@[simp] theorem setPower_hubTime (p : Power) : (setPower s p).hubTime = s.hubTime := rfl
@[simp] theorem setPower_hubTimeHi (p : Power) : (setPower s p).hubTimeHi = s.hubTimeHi := rfl
@[simp] theorem setPower_windows (p : Power) : (setPower s p).windows = s.windows := rfl
@[simp] theorem setPower_err (p : Power) : (setPower s p).err = s.err := rfl
@[simp] theorem setPower_linkResults (p : Power) : (setPower s p).linkResults = s.linkResults := rfl
@[simp] theorem setPower_linkTests (p : Power) : (setPower s p).linkTests = s.linkTests := rfl
@[simp] theorem setPower_settings (p : Power) : (setPower s p).settings = s.settings := rfl
@[simp] theorem setPower_flash (p : Power) : (setPower s p).flash = s.flash := rfl
@[simp] theorem setPower_sfc (p : Power) : (setPower s p).sfc = s.sfc := rfl
@[simp] theorem setPower_serving (p : Power) : (setPower s p).serving = s.serving := rfl
@[simp] theorem setPower_sess (p : Power) : (setPower s p).sess = s.sess := rfl
@[simp] theorem setPower_eng (p : Power) : (setPower s p).eng = s.eng := rfl
@[simp] theorem setPower_cores (p : Power) : (setPower s p).cores = s.cores := rfl
@[simp] theorem setPower_uc (p : Power) : (setPower s p).uc = s.uc := rfl
@[simp] theorem setPower_posted (p : Power) : (setPower s p).posted = s.posted := rfl
@[simp] theorem setPower_memWaits (p : Power) : (setPower s p).memWaits = s.memWaits := rfl
@[simp] theorem setPower_hbm (p : Power) : (setPower s p).hbm = s.hbm := rfl
@[simp] theorem setPower_lnt (p : Power) : (setPower s p).lnt = s.lnt := rfl
@[simp] theorem setPower_hws (p : Power) : (setPower s p).hws = s.hws := rfl
@[simp] theorem setPower_twin (p : Power) : (setPower s p).twin = s.twin := rfl
@[simp] theorem setPower_cleat (p : Power) : (setPower s p).cleat = s.cleat := rfl
@[simp] theorem setPower_jtag (p : Power) : (setPower s p).jtag = s.jtag := rfl
@[simp] theorem setPower_power (p : Power) : (setPower s p).power = p := rfl
@[simp] theorem setPower_tenants (p : Power) : (setPower s p).tenants = s.tenants := rfl
@[simp] theorem setPower_xlat (p : Power) : (setPower s p).xlat = s.xlat := rfl
@[simp] theorem setPower_stackPoison (p : Power) : (setPower s p).stackPoison = s.stackPoison := rfl
@[simp] theorem setPower_endedOps (p : Power) : (setPower s p).endedOps = s.endedOps := rfl
@[simp] theorem setPower_mem (p : Power) : (setPower s p).mem = s.mem := rfl
@[simp] theorem setPower_hostMem (p : Power) : (setPower s p).hostMem = s.hostMem := rfl
@[simp] theorem setPower_free (p : Power) : (setPower s p).free = s.free := rfl
@[simp] theorem setPower_out (p : Power) : (setPower s p).out = s.out := rfl
@[simp] theorem setPower_pending (p : Power) : (setPower s p).pending = s.pending := rfl

@[simp] theorem setDiePwr_fuse (d : Nat) (p : DiePwr) : (setDiePwr s d p).fuse = s.fuse := rfl
@[simp] theorem setDiePwr_board (d : Nat) (p : DiePwr) : (setDiePwr s d p).board = s.board := rfl
@[simp] theorem setDiePwr_start (d : Nat) (p : DiePwr) : (setDiePwr s d p).start = s.start := rfl
@[simp] theorem setDiePwr_dies (d : Nat) (p : DiePwr) : (setDiePwr s d p).dies = s.dies := rfl
@[simp] theorem setDiePwr_stackIds (d : Nat) (p : DiePwr) : (setDiePwr s d p).stackIds = s.stackIds := rfl
@[simp] theorem setDiePwr_pcie (d : Nat) (p : DiePwr) : (setDiePwr s d p).pcie = s.pcie := rfl
@[simp] theorem setDiePwr_mbxs (d : Nat) (p : DiePwr) : (setDiePwr s d p).mbxs = s.mbxs := rfl
@[simp] theorem setDiePwr_rings (d : Nat) (p : DiePwr) : (setDiePwr s d p).rings = s.rings := rfl
@[simp] theorem setDiePwr_regs (d : Nat) (p : DiePwr) : (setDiePwr s d p).regs = s.regs := rfl
@[simp] theorem setDiePwr_hubTime (d : Nat) (p : DiePwr) : (setDiePwr s d p).hubTime = s.hubTime := rfl
@[simp] theorem setDiePwr_hubTimeHi (d : Nat) (p : DiePwr) : (setDiePwr s d p).hubTimeHi = s.hubTimeHi := rfl
@[simp] theorem setDiePwr_windows (d : Nat) (p : DiePwr) : (setDiePwr s d p).windows = s.windows := rfl
@[simp] theorem setDiePwr_err (d : Nat) (p : DiePwr) : (setDiePwr s d p).err = s.err := rfl
@[simp] theorem setDiePwr_linkResults (d : Nat) (p : DiePwr) : (setDiePwr s d p).linkResults = s.linkResults := rfl
@[simp] theorem setDiePwr_linkTests (d : Nat) (p : DiePwr) : (setDiePwr s d p).linkTests = s.linkTests := rfl
@[simp] theorem setDiePwr_settings (d : Nat) (p : DiePwr) : (setDiePwr s d p).settings = s.settings := rfl
@[simp] theorem setDiePwr_flash (d : Nat) (p : DiePwr) : (setDiePwr s d p).flash = s.flash := rfl
@[simp] theorem setDiePwr_sfc (d : Nat) (p : DiePwr) : (setDiePwr s d p).sfc = s.sfc := rfl
@[simp] theorem setDiePwr_serving (d : Nat) (p : DiePwr) : (setDiePwr s d p).serving = s.serving := rfl
@[simp] theorem setDiePwr_sess (d : Nat) (p : DiePwr) : (setDiePwr s d p).sess = s.sess := rfl
@[simp] theorem setDiePwr_eng (d : Nat) (p : DiePwr) : (setDiePwr s d p).eng = s.eng := rfl
@[simp] theorem setDiePwr_cores (d : Nat) (p : DiePwr) : (setDiePwr s d p).cores = s.cores := rfl
@[simp] theorem setDiePwr_uc (d : Nat) (p : DiePwr) : (setDiePwr s d p).uc = s.uc := rfl
@[simp] theorem setDiePwr_posted (d : Nat) (p : DiePwr) : (setDiePwr s d p).posted = s.posted := rfl
@[simp] theorem setDiePwr_memWaits (d : Nat) (p : DiePwr) : (setDiePwr s d p).memWaits = s.memWaits := rfl
@[simp] theorem setDiePwr_hbm (d : Nat) (p : DiePwr) : (setDiePwr s d p).hbm = s.hbm := rfl
@[simp] theorem setDiePwr_lnt (d : Nat) (p : DiePwr) : (setDiePwr s d p).lnt = s.lnt := rfl
@[simp] theorem setDiePwr_hws (d : Nat) (p : DiePwr) : (setDiePwr s d p).hws = s.hws := rfl
@[simp] theorem setDiePwr_twin (d : Nat) (p : DiePwr) : (setDiePwr s d p).twin = s.twin := rfl
@[simp] theorem setDiePwr_cleat (d : Nat) (p : DiePwr) : (setDiePwr s d p).cleat = s.cleat := rfl
@[simp] theorem setDiePwr_jtag (d : Nat) (p : DiePwr) : (setDiePwr s d p).jtag = s.jtag := rfl
@[simp] theorem setDiePwr_tenants (d : Nat) (p : DiePwr) : (setDiePwr s d p).tenants = s.tenants := rfl
@[simp] theorem setDiePwr_xlat (d : Nat) (p : DiePwr) : (setDiePwr s d p).xlat = s.xlat := rfl
@[simp] theorem setDiePwr_stackPoison (d : Nat) (p : DiePwr) : (setDiePwr s d p).stackPoison = s.stackPoison := rfl
@[simp] theorem setDiePwr_endedOps (d : Nat) (p : DiePwr) : (setDiePwr s d p).endedOps = s.endedOps := rfl
@[simp] theorem setDiePwr_mem (d : Nat) (p : DiePwr) : (setDiePwr s d p).mem = s.mem := rfl
@[simp] theorem setDiePwr_hostMem (d : Nat) (p : DiePwr) : (setDiePwr s d p).hostMem = s.hostMem := rfl
@[simp] theorem setDiePwr_free (d : Nat) (p : DiePwr) : (setDiePwr s d p).free = s.free := rfl
@[simp] theorem setDiePwr_out (d : Nat) (p : DiePwr) : (setDiePwr s d p).out = s.out := rfl
@[simp] theorem setDiePwr_pending (d : Nat) (p : DiePwr) : (setDiePwr s d p).pending = s.pending := rfl

@[simp] theorem setCluster_fuse (k : Nat) (p : ClusterPwr) : (setCluster s k p).fuse = s.fuse := rfl
@[simp] theorem setCluster_board (k : Nat) (p : ClusterPwr) : (setCluster s k p).board = s.board := rfl
@[simp] theorem setCluster_start (k : Nat) (p : ClusterPwr) : (setCluster s k p).start = s.start := rfl
@[simp] theorem setCluster_dies (k : Nat) (p : ClusterPwr) : (setCluster s k p).dies = s.dies := rfl
@[simp] theorem setCluster_stackIds (k : Nat) (p : ClusterPwr) : (setCluster s k p).stackIds = s.stackIds := rfl
@[simp] theorem setCluster_pcie (k : Nat) (p : ClusterPwr) : (setCluster s k p).pcie = s.pcie := rfl
@[simp] theorem setCluster_mbxs (k : Nat) (p : ClusterPwr) : (setCluster s k p).mbxs = s.mbxs := rfl
@[simp] theorem setCluster_rings (k : Nat) (p : ClusterPwr) : (setCluster s k p).rings = s.rings := rfl
@[simp] theorem setCluster_regs (k : Nat) (p : ClusterPwr) : (setCluster s k p).regs = s.regs := rfl
@[simp] theorem setCluster_hubTime (k : Nat) (p : ClusterPwr) : (setCluster s k p).hubTime = s.hubTime := rfl
@[simp] theorem setCluster_hubTimeHi (k : Nat) (p : ClusterPwr) : (setCluster s k p).hubTimeHi = s.hubTimeHi := rfl
@[simp] theorem setCluster_windows (k : Nat) (p : ClusterPwr) : (setCluster s k p).windows = s.windows := rfl
@[simp] theorem setCluster_err (k : Nat) (p : ClusterPwr) : (setCluster s k p).err = s.err := rfl
@[simp] theorem setCluster_linkResults (k : Nat) (p : ClusterPwr) : (setCluster s k p).linkResults = s.linkResults := rfl
@[simp] theorem setCluster_linkTests (k : Nat) (p : ClusterPwr) : (setCluster s k p).linkTests = s.linkTests := rfl
@[simp] theorem setCluster_settings (k : Nat) (p : ClusterPwr) : (setCluster s k p).settings = s.settings := rfl
@[simp] theorem setCluster_flash (k : Nat) (p : ClusterPwr) : (setCluster s k p).flash = s.flash := rfl
@[simp] theorem setCluster_sfc (k : Nat) (p : ClusterPwr) : (setCluster s k p).sfc = s.sfc := rfl
@[simp] theorem setCluster_serving (k : Nat) (p : ClusterPwr) : (setCluster s k p).serving = s.serving := rfl
@[simp] theorem setCluster_sess (k : Nat) (p : ClusterPwr) : (setCluster s k p).sess = s.sess := rfl
@[simp] theorem setCluster_eng (k : Nat) (p : ClusterPwr) : (setCluster s k p).eng = s.eng := rfl
@[simp] theorem setCluster_cores (k : Nat) (p : ClusterPwr) : (setCluster s k p).cores = s.cores := rfl
@[simp] theorem setCluster_uc (k : Nat) (p : ClusterPwr) : (setCluster s k p).uc = s.uc := rfl
@[simp] theorem setCluster_posted (k : Nat) (p : ClusterPwr) : (setCluster s k p).posted = s.posted := rfl
@[simp] theorem setCluster_memWaits (k : Nat) (p : ClusterPwr) : (setCluster s k p).memWaits = s.memWaits := rfl
@[simp] theorem setCluster_hbm (k : Nat) (p : ClusterPwr) : (setCluster s k p).hbm = s.hbm := rfl
@[simp] theorem setCluster_lnt (k : Nat) (p : ClusterPwr) : (setCluster s k p).lnt = s.lnt := rfl
@[simp] theorem setCluster_hws (k : Nat) (p : ClusterPwr) : (setCluster s k p).hws = s.hws := rfl
@[simp] theorem setCluster_twin (k : Nat) (p : ClusterPwr) : (setCluster s k p).twin = s.twin := rfl
@[simp] theorem setCluster_cleat (k : Nat) (p : ClusterPwr) : (setCluster s k p).cleat = s.cleat := rfl
@[simp] theorem setCluster_jtag (k : Nat) (p : ClusterPwr) : (setCluster s k p).jtag = s.jtag := rfl
@[simp] theorem setCluster_tenants (k : Nat) (p : ClusterPwr) : (setCluster s k p).tenants = s.tenants := rfl
@[simp] theorem setCluster_xlat (k : Nat) (p : ClusterPwr) : (setCluster s k p).xlat = s.xlat := rfl
@[simp] theorem setCluster_stackPoison (k : Nat) (p : ClusterPwr) : (setCluster s k p).stackPoison = s.stackPoison := rfl
@[simp] theorem setCluster_endedOps (k : Nat) (p : ClusterPwr) : (setCluster s k p).endedOps = s.endedOps := rfl
@[simp] theorem setCluster_mem (k : Nat) (p : ClusterPwr) : (setCluster s k p).mem = s.mem := rfl
@[simp] theorem setCluster_hostMem (k : Nat) (p : ClusterPwr) : (setCluster s k p).hostMem = s.hostMem := rfl
@[simp] theorem setCluster_free (k : Nat) (p : ClusterPwr) : (setCluster s k p).free = s.free := rfl
@[simp] theorem setCluster_out (k : Nat) (p : ClusterPwr) : (setCluster s k p).out = s.out := rfl
@[simp] theorem setCluster_pending (k : Nat) (p : ClusterPwr) : (setCluster s k p).pending = s.pending := rfl

@[simp] theorem setStart_fuse (t : Start) : (setStart s t).fuse = s.fuse := rfl
@[simp] theorem setStart_board (t : Start) : (setStart s t).board = s.board := rfl
@[simp] theorem setStart_start (t : Start) : (setStart s t).start = t := rfl
@[simp] theorem setStart_dies (t : Start) : (setStart s t).dies = s.dies := rfl
@[simp] theorem setStart_stackIds (t : Start) : (setStart s t).stackIds = s.stackIds := rfl
@[simp] theorem setStart_pcie (t : Start) : (setStart s t).pcie = s.pcie := rfl
@[simp] theorem setStart_mbxs (t : Start) : (setStart s t).mbxs = s.mbxs := rfl
@[simp] theorem setStart_rings (t : Start) : (setStart s t).rings = s.rings := rfl
@[simp] theorem setStart_regs (t : Start) : (setStart s t).regs = s.regs := rfl
@[simp] theorem setStart_hubTime (t : Start) : (setStart s t).hubTime = s.hubTime := rfl
@[simp] theorem setStart_hubTimeHi (t : Start) : (setStart s t).hubTimeHi = s.hubTimeHi := rfl
@[simp] theorem setStart_windows (t : Start) : (setStart s t).windows = s.windows := rfl
@[simp] theorem setStart_err (t : Start) : (setStart s t).err = s.err := rfl
@[simp] theorem setStart_linkResults (t : Start) : (setStart s t).linkResults = s.linkResults := rfl
@[simp] theorem setStart_linkTests (t : Start) : (setStart s t).linkTests = s.linkTests := rfl
@[simp] theorem setStart_settings (t : Start) : (setStart s t).settings = s.settings := rfl
@[simp] theorem setStart_flash (t : Start) : (setStart s t).flash = s.flash := rfl
@[simp] theorem setStart_sfc (t : Start) : (setStart s t).sfc = s.sfc := rfl
@[simp] theorem setStart_serving (t : Start) : (setStart s t).serving = s.serving := rfl
@[simp] theorem setStart_sess (t : Start) : (setStart s t).sess = s.sess := rfl
@[simp] theorem setStart_eng (t : Start) : (setStart s t).eng = s.eng := rfl
@[simp] theorem setStart_cores (t : Start) : (setStart s t).cores = s.cores := rfl
@[simp] theorem setStart_uc (t : Start) : (setStart s t).uc = s.uc := rfl
@[simp] theorem setStart_posted (t : Start) : (setStart s t).posted = s.posted := rfl
@[simp] theorem setStart_memWaits (t : Start) : (setStart s t).memWaits = s.memWaits := rfl
@[simp] theorem setStart_hbm (t : Start) : (setStart s t).hbm = s.hbm := rfl
@[simp] theorem setStart_lnt (t : Start) : (setStart s t).lnt = s.lnt := rfl
@[simp] theorem setStart_hws (t : Start) : (setStart s t).hws = s.hws := rfl
@[simp] theorem setStart_twin (t : Start) : (setStart s t).twin = s.twin := rfl
@[simp] theorem setStart_cleat (t : Start) : (setStart s t).cleat = s.cleat := rfl
@[simp] theorem setStart_jtag (t : Start) : (setStart s t).jtag = s.jtag := rfl
@[simp] theorem setStart_power (t : Start) : (setStart s t).power = s.power := rfl
@[simp] theorem setStart_tenants (t : Start) : (setStart s t).tenants = s.tenants := rfl
@[simp] theorem setStart_xlat (t : Start) : (setStart s t).xlat = s.xlat := rfl
@[simp] theorem setStart_stackPoison (t : Start) : (setStart s t).stackPoison = s.stackPoison := rfl
@[simp] theorem setStart_endedOps (t : Start) : (setStart s t).endedOps = s.endedOps := rfl
@[simp] theorem setStart_mem (t : Start) : (setStart s t).mem = s.mem := rfl
@[simp] theorem setStart_hostMem (t : Start) : (setStart s t).hostMem = s.hostMem := rfl
@[simp] theorem setStart_free (t : Start) : (setStart s t).free = s.free := rfl
@[simp] theorem setStart_out (t : Start) : (setStart s t).out = s.out := rfl
@[simp] theorem setStart_pending (t : Start) : (setStart s t).pending = s.pending := rfl

@[simp] theorem setDie_fuse (d : Nat) (c : DieCond) : (setDie s d c).fuse = s.fuse := rfl
@[simp] theorem setDie_board (d : Nat) (c : DieCond) : (setDie s d c).board = s.board := rfl
@[simp] theorem setDie_start (d : Nat) (c : DieCond) : (setDie s d c).start = s.start := rfl
@[simp] theorem setDie_dies (d : Nat) (c : DieCond) : (setDie s d c).dies = tput s.dies d c := rfl
@[simp] theorem setDie_stackIds (d : Nat) (c : DieCond) : (setDie s d c).stackIds = s.stackIds := rfl
@[simp] theorem setDie_pcie (d : Nat) (c : DieCond) : (setDie s d c).pcie = s.pcie := rfl
@[simp] theorem setDie_mbxs (d : Nat) (c : DieCond) : (setDie s d c).mbxs = s.mbxs := rfl
@[simp] theorem setDie_rings (d : Nat) (c : DieCond) : (setDie s d c).rings = s.rings := rfl
@[simp] theorem setDie_regs (d : Nat) (c : DieCond) : (setDie s d c).regs = s.regs := rfl
@[simp] theorem setDie_hubTime (d : Nat) (c : DieCond) : (setDie s d c).hubTime = s.hubTime := rfl
@[simp] theorem setDie_hubTimeHi (d : Nat) (c : DieCond) : (setDie s d c).hubTimeHi = s.hubTimeHi := rfl
@[simp] theorem setDie_windows (d : Nat) (c : DieCond) : (setDie s d c).windows = s.windows := rfl
@[simp] theorem setDie_err (d : Nat) (c : DieCond) : (setDie s d c).err = s.err := rfl
@[simp] theorem setDie_linkResults (d : Nat) (c : DieCond) : (setDie s d c).linkResults = s.linkResults := rfl
@[simp] theorem setDie_linkTests (d : Nat) (c : DieCond) : (setDie s d c).linkTests = s.linkTests := rfl
@[simp] theorem setDie_settings (d : Nat) (c : DieCond) : (setDie s d c).settings = s.settings := rfl
@[simp] theorem setDie_flash (d : Nat) (c : DieCond) : (setDie s d c).flash = s.flash := rfl
@[simp] theorem setDie_sfc (d : Nat) (c : DieCond) : (setDie s d c).sfc = s.sfc := rfl
@[simp] theorem setDie_serving (d : Nat) (c : DieCond) : (setDie s d c).serving = s.serving := rfl
@[simp] theorem setDie_sess (d : Nat) (c : DieCond) : (setDie s d c).sess = s.sess := rfl
@[simp] theorem setDie_eng (d : Nat) (c : DieCond) : (setDie s d c).eng = s.eng := rfl
@[simp] theorem setDie_cores (d : Nat) (c : DieCond) : (setDie s d c).cores = s.cores := rfl
@[simp] theorem setDie_uc (d : Nat) (c : DieCond) : (setDie s d c).uc = s.uc := rfl
@[simp] theorem setDie_posted (d : Nat) (c : DieCond) : (setDie s d c).posted = s.posted := rfl
@[simp] theorem setDie_memWaits (d : Nat) (c : DieCond) : (setDie s d c).memWaits = s.memWaits := rfl
@[simp] theorem setDie_hbm (d : Nat) (c : DieCond) : (setDie s d c).hbm = s.hbm := rfl
@[simp] theorem setDie_lnt (d : Nat) (c : DieCond) : (setDie s d c).lnt = s.lnt := rfl
@[simp] theorem setDie_hws (d : Nat) (c : DieCond) : (setDie s d c).hws = s.hws := rfl
@[simp] theorem setDie_twin (d : Nat) (c : DieCond) : (setDie s d c).twin = s.twin := rfl
@[simp] theorem setDie_cleat (d : Nat) (c : DieCond) : (setDie s d c).cleat = s.cleat := rfl
@[simp] theorem setDie_jtag (d : Nat) (c : DieCond) : (setDie s d c).jtag = s.jtag := rfl
@[simp] theorem setDie_power (d : Nat) (c : DieCond) : (setDie s d c).power = s.power := rfl
@[simp] theorem setDie_tenants (d : Nat) (c : DieCond) : (setDie s d c).tenants = s.tenants := rfl
@[simp] theorem setDie_xlat (d : Nat) (c : DieCond) : (setDie s d c).xlat = s.xlat := rfl
@[simp] theorem setDie_stackPoison (d : Nat) (c : DieCond) : (setDie s d c).stackPoison = s.stackPoison := rfl
@[simp] theorem setDie_endedOps (d : Nat) (c : DieCond) : (setDie s d c).endedOps = s.endedOps := rfl
@[simp] theorem setDie_mem (d : Nat) (c : DieCond) : (setDie s d c).mem = s.mem := rfl
@[simp] theorem setDie_hostMem (d : Nat) (c : DieCond) : (setDie s d c).hostMem = s.hostMem := rfl
@[simp] theorem setDie_free (d : Nat) (c : DieCond) : (setDie s d c).free = s.free := rfl
@[simp] theorem setDie_out (d : Nat) (c : DieCond) : (setDie s d c).out = s.out := rfl
@[simp] theorem setDie_pending (d : Nat) (c : DieCond) : (setDie s d c).pending = s.pending := rfl

@[simp] theorem setEpoch_fuse (e : Epoch) : (setEpoch s e).fuse = s.fuse := rfl
@[simp] theorem setEpoch_board (e : Epoch) : (setEpoch s e).board = s.board := rfl
@[simp] theorem setEpoch_start (e : Epoch) : (setEpoch s e).start = s.start := rfl
@[simp] theorem setEpoch_dies (e : Epoch) : (setEpoch s e).dies = s.dies := rfl
@[simp] theorem setEpoch_stackIds (e : Epoch) : (setEpoch s e).stackIds = s.stackIds := rfl
@[simp] theorem setEpoch_pcie (e : Epoch) : (setEpoch s e).pcie = s.pcie := rfl
@[simp] theorem setEpoch_mbxs (e : Epoch) : (setEpoch s e).mbxs = s.mbxs := rfl
@[simp] theorem setEpoch_rings (e : Epoch) : (setEpoch s e).rings = s.rings := rfl
@[simp] theorem setEpoch_regs (e : Epoch) : (setEpoch s e).regs = s.regs := rfl
@[simp] theorem setEpoch_hubTime (e : Epoch) : (setEpoch s e).hubTime = s.hubTime := rfl
@[simp] theorem setEpoch_hubTimeHi (e : Epoch) : (setEpoch s e).hubTimeHi = s.hubTimeHi := rfl
@[simp] theorem setEpoch_windows (e : Epoch) : (setEpoch s e).windows = s.windows := rfl
@[simp] theorem setEpoch_err (e : Epoch) : (setEpoch s e).err = s.err := rfl
@[simp] theorem setEpoch_linkResults (e : Epoch) : (setEpoch s e).linkResults = s.linkResults := rfl
@[simp] theorem setEpoch_linkTests (e : Epoch) : (setEpoch s e).linkTests = s.linkTests := rfl
@[simp] theorem setEpoch_flash (e : Epoch) : (setEpoch s e).flash = s.flash := rfl
@[simp] theorem setEpoch_sfc (e : Epoch) : (setEpoch s e).sfc = s.sfc := rfl
@[simp] theorem setEpoch_serving (e : Epoch) : (setEpoch s e).serving = s.serving := rfl
@[simp] theorem setEpoch_sess (e : Epoch) : (setEpoch s e).sess = s.sess := rfl
@[simp] theorem setEpoch_eng (e : Epoch) : (setEpoch s e).eng = s.eng := rfl
@[simp] theorem setEpoch_cores (e : Epoch) : (setEpoch s e).cores = s.cores := rfl
@[simp] theorem setEpoch_uc (e : Epoch) : (setEpoch s e).uc = s.uc := rfl
@[simp] theorem setEpoch_posted (e : Epoch) : (setEpoch s e).posted = s.posted := rfl
@[simp] theorem setEpoch_memWaits (e : Epoch) : (setEpoch s e).memWaits = s.memWaits := rfl
@[simp] theorem setEpoch_hbm (e : Epoch) : (setEpoch s e).hbm = s.hbm := rfl
@[simp] theorem setEpoch_lnt (e : Epoch) : (setEpoch s e).lnt = s.lnt := rfl
@[simp] theorem setEpoch_hws (e : Epoch) : (setEpoch s e).hws = s.hws := rfl
@[simp] theorem setEpoch_twin (e : Epoch) : (setEpoch s e).twin = s.twin := rfl
@[simp] theorem setEpoch_cleat (e : Epoch) : (setEpoch s e).cleat = s.cleat := rfl
@[simp] theorem setEpoch_jtag (e : Epoch) : (setEpoch s e).jtag = s.jtag := rfl
@[simp] theorem setEpoch_power (e : Epoch) : (setEpoch s e).power = s.power := rfl
@[simp] theorem setEpoch_tenants (e : Epoch) : (setEpoch s e).tenants = s.tenants := rfl
@[simp] theorem setEpoch_xlat (e : Epoch) : (setEpoch s e).xlat = s.xlat := rfl
@[simp] theorem setEpoch_stackPoison (e : Epoch) : (setEpoch s e).stackPoison = s.stackPoison := rfl
@[simp] theorem setEpoch_endedOps (e : Epoch) : (setEpoch s e).endedOps = s.endedOps := rfl
@[simp] theorem setEpoch_mem (e : Epoch) : (setEpoch s e).mem = s.mem := rfl
@[simp] theorem setEpoch_hostMem (e : Epoch) : (setEpoch s e).hostMem = s.hostMem := rfl
@[simp] theorem setEpoch_free (e : Epoch) : (setEpoch s e).free = s.free := rfl
@[simp] theorem setEpoch_out (e : Epoch) : (setEpoch s e).out = s.out := rfl
@[simp] theorem setEpoch_pending (e : Epoch) : (setEpoch s e).pending = s.pending := rfl

@[simp] theorem setFlash_fuse (t : Tab Byte) : (setFlash s t).fuse = s.fuse := rfl
@[simp] theorem setFlash_board (t : Tab Byte) : (setFlash s t).board = s.board := rfl
@[simp] theorem setFlash_start (t : Tab Byte) : (setFlash s t).start = s.start := rfl
@[simp] theorem setFlash_dies (t : Tab Byte) : (setFlash s t).dies = s.dies := rfl
@[simp] theorem setFlash_stackIds (t : Tab Byte) : (setFlash s t).stackIds = s.stackIds := rfl
@[simp] theorem setFlash_pcie (t : Tab Byte) : (setFlash s t).pcie = s.pcie := rfl
@[simp] theorem setFlash_mbxs (t : Tab Byte) : (setFlash s t).mbxs = s.mbxs := rfl
@[simp] theorem setFlash_rings (t : Tab Byte) : (setFlash s t).rings = s.rings := rfl
@[simp] theorem setFlash_regs (t : Tab Byte) : (setFlash s t).regs = s.regs := rfl
@[simp] theorem setFlash_hubTime (t : Tab Byte) : (setFlash s t).hubTime = s.hubTime := rfl
@[simp] theorem setFlash_hubTimeHi (t : Tab Byte) : (setFlash s t).hubTimeHi = s.hubTimeHi := rfl
@[simp] theorem setFlash_windows (t : Tab Byte) : (setFlash s t).windows = s.windows := rfl
@[simp] theorem setFlash_err (t : Tab Byte) : (setFlash s t).err = s.err := rfl
@[simp] theorem setFlash_linkResults (t : Tab Byte) : (setFlash s t).linkResults = s.linkResults := rfl
@[simp] theorem setFlash_linkTests (t : Tab Byte) : (setFlash s t).linkTests = s.linkTests := rfl
@[simp] theorem setFlash_settings (t : Tab Byte) : (setFlash s t).settings = s.settings := rfl
@[simp] theorem setFlash_sfc (t : Tab Byte) : (setFlash s t).sfc = s.sfc := rfl
@[simp] theorem setFlash_serving (t : Tab Byte) : (setFlash s t).serving = s.serving := rfl
@[simp] theorem setFlash_sess (t : Tab Byte) : (setFlash s t).sess = s.sess := rfl
@[simp] theorem setFlash_eng (t : Tab Byte) : (setFlash s t).eng = s.eng := rfl
@[simp] theorem setFlash_cores (t : Tab Byte) : (setFlash s t).cores = s.cores := rfl
@[simp] theorem setFlash_uc (t : Tab Byte) : (setFlash s t).uc = s.uc := rfl
@[simp] theorem setFlash_posted (t : Tab Byte) : (setFlash s t).posted = s.posted := rfl
@[simp] theorem setFlash_memWaits (t : Tab Byte) : (setFlash s t).memWaits = s.memWaits := rfl
@[simp] theorem setFlash_hbm (t : Tab Byte) : (setFlash s t).hbm = s.hbm := rfl
@[simp] theorem setFlash_lnt (t : Tab Byte) : (setFlash s t).lnt = s.lnt := rfl
@[simp] theorem setFlash_hws (t : Tab Byte) : (setFlash s t).hws = s.hws := rfl
@[simp] theorem setFlash_twin (t : Tab Byte) : (setFlash s t).twin = s.twin := rfl
@[simp] theorem setFlash_cleat (t : Tab Byte) : (setFlash s t).cleat = s.cleat := rfl
@[simp] theorem setFlash_jtag (t : Tab Byte) : (setFlash s t).jtag = s.jtag := rfl
@[simp] theorem setFlash_power (t : Tab Byte) : (setFlash s t).power = s.power := rfl
@[simp] theorem setFlash_tenants (t : Tab Byte) : (setFlash s t).tenants = s.tenants := rfl
@[simp] theorem setFlash_xlat (t : Tab Byte) : (setFlash s t).xlat = s.xlat := rfl
@[simp] theorem setFlash_stackPoison (t : Tab Byte) : (setFlash s t).stackPoison = s.stackPoison := rfl
@[simp] theorem setFlash_endedOps (t : Tab Byte) : (setFlash s t).endedOps = s.endedOps := rfl
@[simp] theorem setFlash_mem (t : Tab Byte) : (setFlash s t).mem = s.mem := rfl
@[simp] theorem setFlash_hostMem (t : Tab Byte) : (setFlash s t).hostMem = s.hostMem := rfl
@[simp] theorem setFlash_free (t : Tab Byte) : (setFlash s t).free = s.free := rfl
@[simp] theorem setFlash_out (t : Tab Byte) : (setFlash s t).out = s.out := rfl
@[simp] theorem setFlash_pending (t : Tab Byte) : (setFlash s t).pending = s.pending := rfl

@[simp] theorem setPcieFn_fuse (n : Nat) (f : PcieFn) : (setPcieFn s n f).fuse = s.fuse := rfl
@[simp] theorem setPcieFn_board (n : Nat) (f : PcieFn) : (setPcieFn s n f).board = s.board := rfl
@[simp] theorem setPcieFn_start (n : Nat) (f : PcieFn) : (setPcieFn s n f).start = s.start := rfl
@[simp] theorem setPcieFn_dies (n : Nat) (f : PcieFn) : (setPcieFn s n f).dies = s.dies := rfl
@[simp] theorem setPcieFn_stackIds (n : Nat) (f : PcieFn) : (setPcieFn s n f).stackIds = s.stackIds := rfl
@[simp] theorem setPcieFn_mbxs (n : Nat) (f : PcieFn) : (setPcieFn s n f).mbxs = s.mbxs := rfl
@[simp] theorem setPcieFn_rings (n : Nat) (f : PcieFn) : (setPcieFn s n f).rings = s.rings := rfl
@[simp] theorem setPcieFn_regs (n : Nat) (f : PcieFn) : (setPcieFn s n f).regs = s.regs := rfl
@[simp] theorem setPcieFn_hubTime (n : Nat) (f : PcieFn) : (setPcieFn s n f).hubTime = s.hubTime := rfl
@[simp] theorem setPcieFn_hubTimeHi (n : Nat) (f : PcieFn) : (setPcieFn s n f).hubTimeHi = s.hubTimeHi := rfl
@[simp] theorem setPcieFn_windows (n : Nat) (f : PcieFn) : (setPcieFn s n f).windows = s.windows := rfl
@[simp] theorem setPcieFn_err (n : Nat) (f : PcieFn) : (setPcieFn s n f).err = s.err := rfl
@[simp] theorem setPcieFn_linkResults (n : Nat) (f : PcieFn) : (setPcieFn s n f).linkResults = s.linkResults := rfl
@[simp] theorem setPcieFn_linkTests (n : Nat) (f : PcieFn) : (setPcieFn s n f).linkTests = s.linkTests := rfl
@[simp] theorem setPcieFn_settings (n : Nat) (f : PcieFn) : (setPcieFn s n f).settings = s.settings := rfl
@[simp] theorem setPcieFn_flash (n : Nat) (f : PcieFn) : (setPcieFn s n f).flash = s.flash := rfl
@[simp] theorem setPcieFn_sfc (n : Nat) (f : PcieFn) : (setPcieFn s n f).sfc = s.sfc := rfl
@[simp] theorem setPcieFn_serving (n : Nat) (f : PcieFn) : (setPcieFn s n f).serving = s.serving := rfl
@[simp] theorem setPcieFn_sess (n : Nat) (f : PcieFn) : (setPcieFn s n f).sess = s.sess := rfl
@[simp] theorem setPcieFn_eng (n : Nat) (f : PcieFn) : (setPcieFn s n f).eng = s.eng := rfl
@[simp] theorem setPcieFn_cores (n : Nat) (f : PcieFn) : (setPcieFn s n f).cores = s.cores := rfl
@[simp] theorem setPcieFn_uc (n : Nat) (f : PcieFn) : (setPcieFn s n f).uc = s.uc := rfl
@[simp] theorem setPcieFn_posted (n : Nat) (f : PcieFn) : (setPcieFn s n f).posted = s.posted := rfl
@[simp] theorem setPcieFn_memWaits (n : Nat) (f : PcieFn) : (setPcieFn s n f).memWaits = s.memWaits := rfl
@[simp] theorem setPcieFn_hbm (n : Nat) (f : PcieFn) : (setPcieFn s n f).hbm = s.hbm := rfl
@[simp] theorem setPcieFn_lnt (n : Nat) (f : PcieFn) : (setPcieFn s n f).lnt = s.lnt := rfl
@[simp] theorem setPcieFn_hws (n : Nat) (f : PcieFn) : (setPcieFn s n f).hws = s.hws := rfl
@[simp] theorem setPcieFn_twin (n : Nat) (f : PcieFn) : (setPcieFn s n f).twin = s.twin := rfl
@[simp] theorem setPcieFn_cleat (n : Nat) (f : PcieFn) : (setPcieFn s n f).cleat = s.cleat := rfl
@[simp] theorem setPcieFn_jtag (n : Nat) (f : PcieFn) : (setPcieFn s n f).jtag = s.jtag := rfl
@[simp] theorem setPcieFn_power (n : Nat) (f : PcieFn) : (setPcieFn s n f).power = s.power := rfl
@[simp] theorem setPcieFn_tenants (n : Nat) (f : PcieFn) : (setPcieFn s n f).tenants = s.tenants := rfl
@[simp] theorem setPcieFn_xlat (n : Nat) (f : PcieFn) : (setPcieFn s n f).xlat = s.xlat := rfl
@[simp] theorem setPcieFn_stackPoison (n : Nat) (f : PcieFn) : (setPcieFn s n f).stackPoison = s.stackPoison := rfl
@[simp] theorem setPcieFn_endedOps (n : Nat) (f : PcieFn) : (setPcieFn s n f).endedOps = s.endedOps := rfl
@[simp] theorem setPcieFn_mem (n : Nat) (f : PcieFn) : (setPcieFn s n f).mem = s.mem := rfl
@[simp] theorem setPcieFn_hostMem (n : Nat) (f : PcieFn) : (setPcieFn s n f).hostMem = s.hostMem := rfl
@[simp] theorem setPcieFn_free (n : Nat) (f : PcieFn) : (setPcieFn s n f).free = s.free := rfl
@[simp] theorem setPcieFn_out (n : Nat) (f : PcieFn) : (setPcieFn s n f).out = s.out := rfl
@[simp] theorem setPcieFn_pending (n : Nat) (f : PcieFn) : (setPcieFn s n f).pending = s.pending := rfl

@[simp] theorem wakeScp_fuse : (wakeScp s).fuse = s.fuse := rfl
@[simp] theorem wakeScp_board : (wakeScp s).board = s.board := rfl
@[simp] theorem wakeScp_start : (wakeScp s).start = s.start := rfl
@[simp] theorem wakeScp_dies : (wakeScp s).dies = s.dies := rfl
@[simp] theorem wakeScp_stackIds : (wakeScp s).stackIds = s.stackIds := rfl
@[simp] theorem wakeScp_pcie : (wakeScp s).pcie = s.pcie := rfl
@[simp] theorem wakeScp_mbxs : (wakeScp s).mbxs = s.mbxs := rfl
@[simp] theorem wakeScp_rings : (wakeScp s).rings = s.rings := rfl
@[simp] theorem wakeScp_regs : (wakeScp s).regs = s.regs := rfl
@[simp] theorem wakeScp_hubTime : (wakeScp s).hubTime = s.hubTime := rfl
@[simp] theorem wakeScp_hubTimeHi : (wakeScp s).hubTimeHi = s.hubTimeHi := rfl
@[simp] theorem wakeScp_windows : (wakeScp s).windows = s.windows := rfl
@[simp] theorem wakeScp_err : (wakeScp s).err = s.err := rfl
@[simp] theorem wakeScp_linkResults : (wakeScp s).linkResults = s.linkResults := rfl
@[simp] theorem wakeScp_linkTests : (wakeScp s).linkTests = s.linkTests := rfl
@[simp] theorem wakeScp_settings : (wakeScp s).settings = s.settings := rfl
@[simp] theorem wakeScp_flash : (wakeScp s).flash = s.flash := rfl
@[simp] theorem wakeScp_sfc : (wakeScp s).sfc = s.sfc := rfl
@[simp] theorem wakeScp_serving : (wakeScp s).serving = s.serving := rfl
@[simp] theorem wakeScp_sess : (wakeScp s).sess = s.sess := rfl
@[simp] theorem wakeScp_eng : (wakeScp s).eng = s.eng := rfl
@[simp] theorem wakeScp_cores : (wakeScp s).cores = s.cores := rfl
@[simp] theorem wakeScp_uc : (wakeScp s).uc = s.uc := rfl
@[simp] theorem wakeScp_posted : (wakeScp s).posted = s.posted := rfl
@[simp] theorem wakeScp_memWaits : (wakeScp s).memWaits = s.memWaits := rfl
@[simp] theorem wakeScp_hbm : (wakeScp s).hbm = s.hbm := rfl
@[simp] theorem wakeScp_lnt : (wakeScp s).lnt = s.lnt := rfl
@[simp] theorem wakeScp_hws : (wakeScp s).hws = s.hws := rfl
@[simp] theorem wakeScp_twin : (wakeScp s).twin = s.twin := rfl
@[simp] theorem wakeScp_cleat : (wakeScp s).cleat = s.cleat := rfl
@[simp] theorem wakeScp_jtag : (wakeScp s).jtag = s.jtag := rfl
@[simp] theorem wakeScp_tenants : (wakeScp s).tenants = s.tenants := rfl
@[simp] theorem wakeScp_xlat : (wakeScp s).xlat = s.xlat := rfl
@[simp] theorem wakeScp_stackPoison : (wakeScp s).stackPoison = s.stackPoison := rfl
@[simp] theorem wakeScp_endedOps : (wakeScp s).endedOps = s.endedOps := rfl
@[simp] theorem wakeScp_mem : (wakeScp s).mem = s.mem := rfl
@[simp] theorem wakeScp_hostMem : (wakeScp s).hostMem = s.hostMem := rfl
@[simp] theorem wakeScp_free : (wakeScp s).free = s.free := rfl
@[simp] theorem wakeScp_out : (wakeScp s).out = s.out := rfl
@[simp] theorem wakeScp_pending : (wakeScp s).pending = s.pending := rfl

end Sys2Proof.Machine
end

