-- ==== Sys2Proof/Laws/Ops.lean ====
section
/-!
SUPPORT. What the shared operations can do: a live package's commands, the request that PCF serves, reports (records, events,
interrupts, answers) and the parts of the state that no report touches.
-/

namespace Sys2Proof.Machine

/-! ### Live packages and served requests -/

theorem whenLive_live {s : State} (h : s.live) (o : Host.Outcome State Fault Refusal) : whenLive s o = o := by
  simp [whenLive, State.live] at *; simp [h]

theorem whenLive_shutdown {s : State} (h : s.power.shutdown = true) (o : Host.Outcome State Fault Refusal) : whenLive s o = .next s := by
  simp [whenLive, h]

/-- A request that is served reaches the command's own function. -/
theorem serve_serves {s : State} {who : Issuer} {op : Nat} {r : Req} (h : Serves s who op r) (f : Req → State → State) :
    serve who op none s f = .next (f r s) := by
  simp [serve, h.head, h.opcode, h.up, h.notHeld, h.checked]

theorem serve_serves_action {s : State} {who : Issuer} {op off v : Nat} {r : Req} (h : Serves s who op r)
    (ha : field r.payload off 1 = v) (f : Req → State → State) : serve who op (some (off, v)) s f = .next (f r s) := by
  simp [serve, h.head, h.opcode, h.up, h.notHeld, h.checked, ha]

/-- No request at the issuer's head: the command has no effect. -/
theorem serve_idle {s : State} {who : Issuer} (h : curReq s (issuerNo who) = none) (op : Nat) (action : Option (Nat × Nat))
    (f : Req → State → State) : serve who op action s f = .next s := by
  simp [serve, h]

theorem answers_ite {c : Prop} [Decidable c] {o p : Host.Outcome State Fault Refusal} (ho : Answers o) (hp : Answers p) :
    Answers (if c then o else p) := by
  split
  · exact ho
  · exact hp

theorem answers_next (s : State) : Answers (.next s) := ⟨s, rfl⟩

theorem serve_answers (s : State) (who : Issuer) (op : Nat) (action : Option (Nat × Nat)) (f : Req → State → State) :
    Answers (serve who op action s f) := by
  unfold serve
  cases curReq s (issuerNo who) with
  | none => exact answers_next _
  | some r =>
    refine answers_ite (answers_next _) ?_
    cases preCheck s r <;> exact answers_next _

theorem whenLive_answers {s : State} {o : Host.Outcome State Fault Refusal} (h : Answers o) : Answers (whenLive s o) := by
  unfold whenLive
  split
  · exact ⟨_, rfl⟩
  · exact h

theorem awake_running {s : State} (h : s.power.deep = false) (f : Req → State → State) (r : Req) : awake f r s = f r s := by
  simp [awake, h]

/-! ### Reports -/

/-- `t` differs from `s` at most in what reports to the host and the bus touch: register values, interrupt state, outputs, logs, rings,
host memory, mailboxes, the Cleat port, held events of tenants, and the SCP's wake state. -/
def Reports (s t : State) : Prop :=
  t = { s with regs := t.regs, pcie := t.pcie, out := t.out, err := t.err, rings := t.rings, hostMem := t.hostMem, mbxs := t.mbxs,
               cleat := t.cleat, tenants := t.tenants, power := t.power }

theorem Reports.refl (s : State) : Reports s s := rfl

theorem Reports.trans {s t u : State} (h : Reports s t) (k : Reports t u) : Reports s u := by
  unfold Reports at *; rw [k, h]

theorem Reports.ite {c : Prop} [Decidable c] {s t u : State} (ht : Reports s t) (hu : Reports s u) : Reports s (if c then t else u) := by
  split
  · exact ht
  · exact hu

theorem Reports.foldl {α : Type} (f : State → α → State) (hf : ∀ s a, Reports s (f s a)) (l : List α) (s : State) :
    Reports s (l.foldl f s) := by
  induction l generalizing s with
  | nil => exact Reports.refl s
  | cons a l ih => exact (hf s a).trans (ih _)

theorem setReg_reports (s : State) (a : Nat) (w : Word) : Reports s (setReg s a w) := rfl
theorem orReg_reports (s : State) (a m : Nat) : Reports s (orReg s a m) := rfl
theorem bumpBy_reports (s : State) (a w n : Nat) : Reports s (bumpBy s a w n) := rfl
theorem bump_reports (s : State) (a : Nat) : Reports s (bump s a) := rfl
theorem emit_reports (s : State) (o : Out) : Reports s (emit s o) := rfl
theorem setMbx_reports (s : State) (n : Nat) (m : Mailbox) : Reports s (setMbx s n m) := rfl
theorem setErrLog_reports (s : State) (n : Nat) (l : ErrLog) : Reports s (setErrLog s n l) := rfl
theorem setTenant_reports (s : State) (v : Nat) (t : Tenant) : Reports s (setTenant s v t) := rfl
theorem setCleat_reports (s : State) (c : Cleat) : Reports s (setCleat s c) := rfl

theorem raiseVec_reports (s : State) (fn v : Nat) : Reports s (raiseVec s fn v) := by
  unfold raiseVec; split
  · split <;> rfl
  · rfl

theorem signalInst_reports (s : State) (fn v : Nat) : Reports s (signalInst s fn v) :=
  (orReg_reports s _ _).trans (raiseVec_reports _ _ _)

theorem notice_reports (s : State) (kind : Nat) (body : List Byte) : Reports s (notice s kind body) := by
  unfold notice; simp only []; split <;> rfl

theorem aerReport_reports (s : State) (cls : Nat) : Reports s (aerReport s cls) := by
  unfold aerReport; split
  · simp only []; split <;> rfl
  · simp only []; split <;> rfl
  · simp only []; split <;> rfl
  · rfl

theorem pushErr_reports (s : State) (n : Nat) (r : ErrRec) : Reports s (pushErr s n r) := by
  have tail : ∀ (s2 : State) (r' : ErrRec), Reports s2
      (let s3 := if r.cls = 0 then bump s2 errCeTotal else if r.cls ≤ 4 then bump s2 errUeTotal else s2
       let s4 := aerReport s3 r.cls
       if noticeWanted s4 r.cls then notice s4 1 (errBytes r') else s4) := by
    intro s2 r'
    have h4 := (Reports.ite (c := r.cls = 0) (bump_reports s2 errCeTotal)
      (Reports.ite (c := r.cls ≤ 4) (bump_reports s2 errUeTotal) (Reports.refl s2))).trans (aerReport_reports _ r.cls)
    exact Reports.ite (h4.trans (notice_reports _ _ _)) h4
  unfold pushErr
  exact Reports.ite (((setErrLog_reports s n _).trans (signalInst_reports _ n 1)).trans (tail _ _))
    ((setErrLog_reports s n _).trans (signalInst_reports _ n 1))

theorem logErr_reports (s : State) (n : Nat) (r : ErrRec) : Reports s (logErr s n r) := by
  have h : Reports s { s with power := { s.power with scp := true } } := rfl
  unfold logErr
  simp only []
  split
  · split
    · exact h.trans (setErrLog_reports _ n _)
    · exact h.trans ((setErrLog_reports _ n _).trans (pushErr_reports _ n _))
  · exact h.trans (pushErr_reports _ n _)

theorem logPfOwner_reports (s : State) (owner : Nat) (r : ErrRec) : Reports s (logPfOwner s owner r) := by
  unfold logPfOwner; simp only []; split
  · exact logErr_reports s 0 r
  · exact (logErr_reports s 0 r).trans (logErr_reports _ owner r)

theorem dirtyMark_reports (s : State) (log : Nat × Nat × Nat) (page : Nat) : Reports s (dirtyMark s log page) := by
  unfold dirtyMark; simp only []; split <;> rfl

theorem hostWrite_reports (s : State) (fn a : Nat) (bs : List Byte) : Reports s (hostWrite s fn a bs) := by
  have key : ∀ t : State, Reports s t → Reports s { t with hostMem := mwrite t.hostMem a bs } := fun t h =>
    h.trans rfl
  unfold hostWrite
  simp only []
  refine key _ ?_
  split
  · split
    · exact Reports.refl s
    · exact Reports.foldl _ (fun s p => dirtyMark_reports s _ p) _ s
  · exact Reports.refl s

theorem putEvent_reports (s : State) (n : Nat) (body : List Byte) : Reports s (putEvent s n body) := by
  unfold putEvent; split
  · exact Reports.refl s
  · exact (hostWrite_reports s n _ _).trans (signalInst_reports _ n 2)

theorem holdEvent_reports (s : State) (n : Nat) (body : List Byte) : Reports s (holdEvent s n body) := rfl

/-- An event record touches only what reports touch. -/
theorem eventTo_reports (s : State) (n inst typ object arg status detail : Nat) :
    Reports s (eventTo s n inst typ object arg status detail) := by
  have hr : ∀ x : EvRing, Reports s { s with rings := tput s.rings n x } := fun _ => rfl
  unfold eventTo
  cases s.rings.find? (fun r => r.1 == n) with
  | none => exact Reports.refl s
  | some r =>
    refine Reports.ite (Reports.refl s) (Reports.ite ((hr _).trans (holdEvent_reports _ n _)) ?_)
    exact Reports.ite ((hr _).trans ((putEvent_reports _ n _).trans (notice_reports _ _ _))) ((hr _).trans (putEvent_reports _ n _))

theorem eventPf_reports (s : State) (owner typ object arg status detail : Nat) :
    Reports s (eventPf s owner typ object arg status detail) := by
  unfold eventPf; simp only []; split
  · exact eventTo_reports s _ _ _ _ _ _ _
  · exact (eventTo_reports s _ _ _ _ _ _ _).trans (eventTo_reports _ _ _ _ _ _ _ _)

theorem opDone_reports (s : State) (op : OpId) (status detail : Nat) : Reports s (opDone s op status detail) :=
  eventTo_reports s _ _ _ _ _ _ _

theorem cleatRespond_reports (s : State) (src seq : Nat) (b : Bool) (bs : List Byte) : Reports s (cleatRespond s src seq b bs) := by
  unfold cleatRespond; split <;> rfl

/-- An answer to a request touches only what reports touch. -/
theorem answer_reports (s : State) (r : Req) (a : Resp) : Reports s (answer s r a) := by
  unfold answer; split
  · split
    · exact Reports.refl s
    · exact (setCleat_reports s _).trans (cleatRespond_reports _ _ _ _ _)
  · exact setMbx_reports s _ _

/-! ### What no report touches -/

theorem Reports.mem {s t : State} (h : Reports s t) : t.mem = s.mem := by rw [h]
theorem Reports.eng {s t : State} (h : Reports s t) : t.eng = s.eng := by rw [h]
theorem Reports.sess {s t : State} (h : Reports s t) : t.sess = s.sess := by rw [h]
theorem Reports.serving {s t : State} (h : Reports s t) : t.serving = s.serving := by rw [h]
theorem Reports.settings {s t : State} (h : Reports s t) : t.settings = s.settings := by rw [h]
theorem Reports.flash {s t : State} (h : Reports s t) : t.flash = s.flash := by rw [h]
theorem Reports.cores {s t : State} (h : Reports s t) : t.cores = s.cores := by rw [h]
theorem Reports.uc {s t : State} (h : Reports s t) : t.uc = s.uc := by rw [h]
theorem Reports.hbm {s t : State} (h : Reports s t) : t.hbm = s.hbm := by rw [h]
theorem Reports.xlat {s t : State} (h : Reports s t) : t.xlat = s.xlat := by rw [h]
theorem Reports.twin {s t : State} (h : Reports s t) : t.twin = s.twin := by rw [h]
theorem Reports.hws {s t : State} (h : Reports s t) : t.hws = s.hws := by rw [h]
theorem Reports.lnt {s t : State} (h : Reports s t) : t.lnt = s.lnt := by rw [h]
theorem Reports.start {s t : State} (h : Reports s t) : t.start = s.start := by rw [h]
theorem Reports.dies {s t : State} (h : Reports s t) : t.dies = s.dies := by rw [h]
theorem Reports.stackIds {s t : State} (h : Reports s t) : t.stackIds = s.stackIds := by rw [h]
theorem Reports.hubTime {s t : State} (h : Reports s t) : t.hubTime = s.hubTime := by rw [h]
theorem Reports.pending {s t : State} (h : Reports s t) : t.pending = s.pending := by rw [h]

/-! ### Registers and threads -/

@[simp] theorem reg_setReg_same (s : State) (a : Nat) (w : Word) : reg (setReg s a w) a = w := tget_tput_same _ _ _ _
theorem reg_setReg_other (s : State) (a b : Nat) (w : Word) (h : b ≠ a) : reg (setReg s a w) b = reg s b := by
  unfold reg setReg; exact tget_tput_other _ _ _ _ _ h

@[simp] theorem core_setCore_same (s : State) (c : Nat) (x : Core) : coreAt (setCore s c x) c = x := tget_tput_same _ _ _ _
theorem core_setCore_other (s : State) (c d : Nat) (x : Core) (h : d ≠ c) : coreAt (setCore s c x) d = coreAt s d :=
  tget_tput_other _ _ _ _ _ h

@[simp] theorem session_setSession_same (s : State) (n : Nat) (x : Session) : session (setSession s n x) n = x := tget_tput_same _ _ _ _
theorem session_setSession_other (s : State) (n m : Nat) (x : Session) (h : m ≠ n) : session (setSession s n x) m = session s m :=
  tget_tput_other _ _ _ _ _ h

@[simp] theorem tenant_setTenant_same (s : State) (v : Nat) (t : Tenant) : tenant (setTenant s v t) v = t := tget_tput_same _ _ _ _
theorem tenant_setTenant_other (s : State) (v w : Nat) (t : Tenant) (h : w ≠ v) : tenant (setTenant s v t) w = tenant s w :=
  tget_tput_other _ _ _ _ _ h

@[simp] theorem queue_setQueue_same (s : State) (q : Nat) (x : Queue) : queue (setQueue s q x) q = x := tget_tput_same _ _ _ _
theorem queue_setQueue_other (s : State) (q r : Nat) (x : Queue) (h : r ≠ q) : queue (setQueue s q x) r = queue s r :=
  tget_tput_other _ _ _ _ _ h

@[simp] theorem mbx_setMbx_same (s : State) (n : Nat) (m : Mailbox) : mbx (setMbx s n m) n = m := tget_tput_same _ _ _ _
theorem mbx_setMbx_other (s : State) (n k : Nat) (m : Mailbox) (h : k ≠ n) : mbx (setMbx s n m) k = mbx s k :=
  tget_tput_other _ _ _ _ _ h

/-- Where an instruction that acts on each thread of its set issues, it acts on them in order and they move on. -/
theorem perThread_issues {s s1 : State} {i : Issue} {regs set : List Nat} (h : tryIssue s i regs = some (set, s1))
    (f : State → Nat → State) : perThread s i regs f = advancePc (set.foldl f s1) i set := by
  simp [perThread, h]

/-- A change of one thread is a change of that core's group, and of nothing else. -/
theorem modThread_eq {s : State} {c slot : Nat} {g : Group} (h : groupAt (coreAt s c) slot = some g) (t : Nat) (f : Thread → Thread) :
    modThread s c slot t f = setCore s c (setGroup (coreAt s c) slot (setThread g t (f (thread g t)))) := by
  simp [modThread, h]

theorem groupAt_setGroup_same (x : Core) (slot : Nat) (g : Group) : groupAt (setGroup x slot g) slot = some g := by
  unfold groupAt setGroup
  simp only []
  induction x.groups with
  | nil => simp [tput]
  | cons p l ih =>
    obtain ⟨k, v⟩ := p
    unfold tput
    split
    · simp
    · split
      · simp
      · rename_i h1 h2
        have : ¬ (k = slot) := fun e => h2 e.symm
        simp [this] at ih ⊢
        exact ih

end Sys2Proof.Machine
end

