-- ==== Sys2Proof/Tests/Slice0.lean ====
section
/-!
SUPPORT. Tests: commands that are not well formed, and for each statement a state and operands that meet its hypotheses, with what
the command then does. The expected results are the spec's. One step each, on small states.
-/

namespace Sys2Proof.Tests

set_option Elab.async false

open Sys2Proof Sys2Proof.Machine

/-- The next state of an outcome. -/
def nx (o : Host.Outcome State Fault Refusal) : State := match o with
  | .next t => t
  | _ => State.reset

/-- The state after a command. -/
def run (c : Instr) (s : State) : State := nx (exec c s)

/-- A package in phase READY, its dies and stacks in service, in kernel mode, the PF's memory space on. -/
def ready : State :=
  { fuse := { serial := 5 }
    start := { phase := .ready, pcfRunning := true, hubReady := true, result := .complete, discovered := 0xFF, confirmed := true }
    dies := (List.range 8).map fun d => (d, .inService)
    stackIds := (List.range 8).map fun d => (d, { cond := .inService })
    pcie := { fns := [(0, { memSpace := true })] }
    mbxs := [(0, { fwReady := true })] }

/-- The header of a request of version 3.4. -/
def hdrOf (op : Nat) (p : List Byte) : Hdr := { opcode := op, tag := 7, length := p.length, flags := 0x00030400 }

/-- The package holds a request of MBX0. -/
def ask (s : State) (op : Nat) (p : List Byte) : State :=
  setMbx s 0 { state := .busy, seq := 1, fwReady := true, outstanding := some (1, 7), held := [{ seq := 1, hdr := hdrOf op p, payload := p }] }

def req (op : Nat) (p : List Byte) : Req := { who := 0, seq := 1, hdr := hdrOf op p, payload := p }

/-- The answer that the request of MBX0 has been given. -/
def answered (s : State) : Option Resp := (mbx s 0).held.head?.bind (·.answer)
def answeredAs (s : State) (st : Nat) : Bool := (answered s).map (·.status) == some st

/-- What `Serves` asks for, as a test. -/
def servesB (s : State) (who : Issuer) (op : Nat) (r : Req) : Bool :=
  !s.power.shutdown && pcfUp s && curReq s (issuerNo who) == some r && r.hdr.opcode == op && !heldByFreeze s r && (preCheck s r).isNone

theorem serves_of {s : State} {who : Issuer} {op : Nat} {r : Req} (h : servesB s who op r = true) : Serves s who op r := by
  simp only [servesB, Bool.and_eq_true, Bool.not_eq_true', beq_iff_eq, Option.isNone_iff_eq_none] at h
  obtain ⟨⟨⟨⟨⟨a, b⟩, c⟩, d⟩, e⟩, f⟩ := h
  exact ⟨a, b, c, d, e, f⟩

/-- The request of MBX0 is served. -/
abbrev served (s : State) (op : Nat) (p : List Byte) : Bool := servesB (ask s op p) (.mbx 0) op (req op p)

/-- `n` bytes with fields at given offsets: offset, size, value. -/
def fields (n : Nat) (l : List (Nat × Nat × Nat)) : List Byte :=
  (List.range n).map fun k => match l.find? (fun f => f.1 ≤ k && k < f.1 + f.2.1) with
    | some f => BitVec.ofNat 8 (f.2.2 / 256 ^ (k - f.1))
    | none => 0

/-- A queue that holds one started command, of index 0. -/
def withCmd (s : State) (q engine inst : Nat) (bytes : List Byte) : State :=
  setQueue s q { state := .opened, engine := engine, inst := inst, asid := 5, head := 1, tail := 1, started := 1,
                 cmds := [{ index := 0, bytes := bytes, epoch := 1, gen := 0, stage := .started }] }

/-- The virtual address at which every tag sees a device physical address. -/
def direct (a : Nat) : Nat := 2 ^ 47 + a

/-- A network of one layer and one head of 64 elements of one byte: 512 positions to a row. -/
def net1 : Network := { kind := 1, maxTokens := 1000, layers := 1, kvHeads := 1, qHeads := 1, headDim := 64 }

/-! ### The host's side (O1 to O9) -/

theorem w_step : nx (step { ready with pending := [.hotReset, .go 0] }) = { run .hotReset ready with pending := [.go 0] }
    ∧ nx (step ready) = { ready with hubTime := 1 } := by decide +kernel

theorem w_config_not_ready : State.reset.live ∧ State.reset.start.hubReady = false
    ∧ (run (.configRequest 0 .readIdentity) State.reset).out = [.completion 2 [] false] := by decide +kernel

theorem w_config : ready.live ∧ ready.start.hubReady = true ∧ fnEnabled ready 3 = false ∧ fnEnabled ready 0 = true
    ∧ (run (.configRequest 3 .readIdentity) ready).out = [.completion 1 [] false]
    ∧ (pcieFn (run (.configRequest 0 (.setMemSpace false)) ready) 0).memSpace = false
    ∧ bar2Size (run (.configRequest 0 (.setBar2Size 3)) ready) = 2 ^ 39
    ∧ (run (.configRequest 0 .readIdentity) ready).out = [.completion 0 (identityBytes ready 0) false]
    ∧ barValue (run (.configRequest 0 (.writeBar 0 0xFE123456)) ready) false 0 = 0xFE000004
    ∧ (run (.configRequest 0 (.readBar 4)) ready).out = [.completion 0 [0, 0, 0, 0] false]
    ∧ (pcieFn (run (.configRequest 0 (.setPower true)) ready) 0).d3hot = true
    ∧ (pcieFn (run (.configRequest 0 (.setReadRequest 5)) ready) 0).mrrs = 5 := by decide +kernel

/-- VFs 1 to 3 exist. -/
def vfs : State := { ready with pcie := { ready.pcie with vfEnable := true, numVFs := 3 } }

theorem w_vf_enable : ready.pcie.vfEnable = false ∧ (tenant ready 3).resetting = none ∧ (run (.vfEnableSet 3) ready).pcie.numVFs = 3
    ∧ (mbx (run (.vfEnableSet 3) ready) 3).fwReady = true ∧ (mbx (run (.vfEnableSet 3) ready) 4).fwReady = false
    ∧ vfs.live ∧ vfs.start.hubReady = true ∧ vfs.pcie.vfEnable = true
    ∧ (tenant (run .vfEnableClear vfs) 3).resetting = some .unconfigured ∧ (tenant (run .vfEnableClear vfs) 4).resetting = none
    ∧ (run .vfEnableClear vfs).pcie.vfEnable = false := by decide +kernel

theorem w_function_reset : reg (run .hotReset (setReg ready hubErr 4)) hubErr = 0 ∧ (mbx (run .linkDownReset (ask ready 1 [])) 0).state = .idle
    ∧ (mbx (run .pfFunctionLevelReset (ask ready 1 [])) 0).seq = 1 ∧ pcieFn (run .hotReset ready) 0 = {} := by decide +kernel

/-- HUB_TIME past 32 bits. -/
def late : State := { ready with hubTime := 0x5_0000_0007 }

theorem w_hub_time : memSpaceOn late 0 = true ∧ (run .hubTimeLoRead late).hubTimeHi = 5
    ∧ (run .hubTimeLoRead late).out = [.completion 0 [7, 0, 0, 0] false] ∧ viewReg (run .hubTimeLoRead late) 0 0x1024 = 5
    ∧ (run (.readClearRead 0 ⟨0x1020, 0x2⟩) late).out = [.completion 0 [0] false] := by decide +kernel

/-- STA_PAT_BITS_LO of a stack's pattern counter, if it has one; the peak of the admission queue after a longer one; a VF's memory space. -/
def peaked : State := setReg ready srvAdmqPeak 9
def vfSpace : State := { ready with pcie := { ready.pcie with vfEnable := true, numVFs := 3, fns := [(3, { memSpace := true })] } }

theorem w_snap_reads : (run .srvSnapRead ready).out = [.completion 0 [1, 0, 0, 0] false]
    ∧ (run .tntLogSyncRead (setReg ready 0x450000 9)).out = [.completion 0 [9, 0, 0, 0] false]
    ∧ hasRc 0x1000 = false ∧ isPatLo 0x1000 = false ∧ 0x1000 % 4 = 0
    ∧ (run (.readClearRead 0 ⟨0x1000, 0xF⟩) ready).out = [.completion 0 (leBytes 4 (viewReg ready 0 0x1000)) false]
    ∧ hasRc srvAdmqPeak = true ∧ srvAdmqPeak % 4 = 0 ∧ (run (.readClearRead 0 ⟨srvAdmqPeak, 0x1⟩) peaked).out = [.completion 0 [9] false]
    ∧ reg (run (.readClearRead 0 ⟨srvAdmqPeak, 0x1⟩) peaked) srvAdmqPeak = 0
    ∧ memSpaceOn vfSpace 3 = true ∧ hasRc (storedAt 3 0x100) = false ∧ isPatLo 0x410084 = true ∧ hasRc 0x410084 = false := by decide +kernel

theorem w_mailbox_table : memSpaceOn ready 0 = true ∧ (mbx (ask ready 1 []) 0).state = .busy ∧ (mbx ready 0).state = .idle
    ∧ (mbx (run (.cancel 0) (ask ready 1 [])) 0).state = .idle ∧ (mbx (run (.cancel 0) (ask ready 1 [])) 0).outstanding = none
    ∧ reg (run (.ack 0) ready) (instBase 0 + mbxErrOff) = 1 ∧ reg (run (.cancel 0) ready) (instBase 0 + mbxErrOff) = 1
    ∧ reg (run (.go 0) (ask ready 1 [])) (instBase 0 + mbxErrOff) = 1 := by decide +kernel

/-- MBX0 holds a response, and waits under a timer. -/
def doneBox : State := setMbx ready 0 { state := .done, seq := 1, fwReady := true }
def timedBox : State := setMbx ready 0 { state := .busy, seq := 1, fwReady := true, outstanding := some (1, 7), timer := true }

theorem w_mailbox_ack : (mbx doneBox 0).state = .done ∧ (mbx (run (.ack 0) doneBox) 0).state = .idle
    ∧ (mbx timedBox 0).state = .busy ∧ (mbx timedBox 0).timer = true
    ∧ (mbx (run (.mbxTimeoutExpiry 0) timedBox) 0).state = .timeout ∧ (mbx (run (.mbxTimeoutExpiry 0) timedBox) 0).outstanding = none := by
  decide +kernel

/-- A BAR2 read waits for its die; and a mailbox whose response came in this cycle. -/
def barWaits : State := { ready with power := { held := [.bar2 0x1000000000 4 none] } }
def doneNow : State := setMbx ready 0 { state := .done, seq := 1, fwReady := true, doneAt := some ready.hubTime }

theorem w_mailbox_waits : barWaits.live ∧ barWaits.power.held ≠ [] ∧ (run (.go 0) barWaits).power.held.length = 2
    ∧ (run (.ack 0) barWaits).mbxs = barWaits.mbxs ∧ (mbx doneNow 0).doneAt = some doneNow.hubTime ∧ run (.cancel 0) doneNow = doneNow := by
  decide +kernel

/-- The request window holds a DISCOVER request: 16-byte header, no payload. -/
def posted : State := setMbx ready 0 { fwReady := true, reqWin := mwrite [] 0 (leBytes 2 1 ++ leBytes 2 9 ++ leBytes 4 0 ++ leBytes 4 0x00030400) }
/-- The same window, with a LENGTH beyond the window. -/
def tooLong : State := setMbx ready 0 { fwReady := true, reqWin := mwrite [] 0 (leBytes 2 1 ++ leBytes 2 9 ++ leBytes 4 5000 ++ leBytes 4 0x00030400) }

theorem w_go : (mbx posted 0).state = .idle ∧ goStatus (mbx posted 0) (winHdr (mbx posted 0).reqWin) = none
    ∧ (mbx (run (.go 0) posted) 0).state = .busy ∧ (mbx (run (.go 0) posted) 0).outstanding = some (1, 9)
    ∧ (mbx (run (.go 0) posted) 0).held.map (·.hdr.opcode) = [1] ∧ (mbx (run (.go 0) posted) 0).seq = 1
    ∧ (goStatus (mbx tooLong 0) (winHdr (mbx tooLong 0).reqWin)).isSome ∧ (mbx (run (.go 0) tooLong) 0).state = .done
    ∧ (mbx (run (.go 0) tooLong) 0).held = [] := by decide +kernel

/-- The request of MBX0 has been answered; in the second state it has been cancelled. -/
def answeredBox : State := answer (ask ready 1 []) (req 1 []) { status := 3, detail := 4 }
def cancelledBox : State := run (.cancel 0) answeredBox

theorem w_response : pcfUp answeredBox = true ∧ ((mbx answeredBox 0).held.map (·.answer)) = [some { status := 3, detail := 4 }]
    ∧ (mbx (run (.mbxResponsePost (.mbx 0)) answeredBox) 0).state = .done
    ∧ mread (mbx (run (.mbxResponsePost (.mbx 0)) answeredBox) 0).respWin 12 4 = [3, 0, 4, 0]
    ∧ (mbx cancelledBox 0).outstanding ≠ some (1, 7)
    ∧ reg (run (.mbxResponsePost (.mbx 0)) cancelledBox) (instBase 0 + mbxStaleTagOff) = 0x10007
    ∧ reg (run (.mbxResponsePost (.mbx 0)) cancelledBox) (instBase 0 + mbxStaleStatusOff) = 0x30004
    ∧ reg (run (.mbxResponsePost (.mbx 0)) cancelledBox) (instBase 0 + mbxStaleCntOff) = 1 := by decide +kernel

/-- PCF restarts. -/
def restarting : State := run .pcfRestart ready

theorem w_restart : ready.start.pcfRunning = true ∧ restarting.start.pcfRunning = false ∧ (mbx restarting 0).fwReady = false
    ∧ restarting.start.restarting = true ∧ (mbx (run .pcfRestartFwReady restarting) 0).fwReady = true
    ∧ (run .pcfRestartFwReady restarting).start.pcfRunning = true := by decide +kernel

theorem w_register_write : memSpaceOn ready 0 = true ∧ ready.power.held = [] ∧ memSpaceOn vfSpace 3 = true
    ∧ reg (run (.registerWrite 0 0x2004 0 0x3) ready) hubErr = 1
    ∧ reg (run (.registerWrite 0 (0x2000 + 4) 0 0x3) ready) hubErrAddrLo = 0x2004
    ∧ ((errLog (run (.registerWrite 3 8 0 0x3) vfSpace) 3).next) = 1
    ∧ reg (run (.registerWrite 0 (0x1000 + (hubErr - 0x1000)) 1 0xF) (setReg ready hubErr 3)) hubErr = 2 ∧ hubErr - 0x1000 < 0x100
    ∧ mget (mbx (run (.registerWrite 0 0x3004 0x55AA 0x2) ready) 0).reqWin 5 = 0x55
    ∧ msixByte (run (.registerWrite 0 0x10008 0x77 0x1) ready) 0 8 = 0x77
    ∧ (run (.registerWrite 0 0x2004 0 0xF) barWaits).power.held.length = 2
    ∧ bar2Base (run (.hubBar2ApertureWrite 1 0xF) ready) = 2 ^ 36
    ∧ reg (run (.hubBar2ApertureWrite 1 0x7) ready) hubErr = 1 := by decide +kernel

/-- The hub's and every block's window is open; STA_TEST_CTRL is locked. -/
def windowsOpen : State := { ready with windows := BitVec.allOnes _ }
def testLocked : State := setReg windowsOpen staTestCtrl 0x80000000

theorem w_windows : windowOpen ready cleatCtrl = false ∧ reg (run (.blockWindowWrite cleatCtrl 1 0xF) ready) hubErr = 2
    ∧ reg (run (.blockWindowWrite cleatCtrl 1 0x1) ready) hubErr = 3
    ∧ windowOpen windowsOpen cleatCtrl = true ∧ cleatCtrl ≠ cleatFlow ∧ ownRow cleatCtrl = false ∧ ownRow 0x471004 = true
    ∧ reg (run (.blockWindowWrite cleatCtrl 3 0xF) windowsOpen) cleatCtrl = 3 ∧ reg (run (.blockWindowWrite cleatCtrl 3 0x3) windowsOpen) hubErr = 1
    ∧ windowsOpen.cleat.muteAt ≠ some windowsOpen.hubTime
    ∧ (run (.blockWindowWrite cleatCtrl 0x11 0xF) { windowsOpen with cleat := { tx := [300, 1] } }).cleat.released = 2
    ∧ tget 0 (run (.blockWindowWrite 0x472004 0xAB00 0x2) windowsOpen).sfc.buf 5 = 0xAB ∧ windowOpen windowsOpen 0x472000 = true
    ∧ bits (reg (run (.blockWindowWrite cleatFlow 0x820 0xF) windowsOpen) cleatFlow).toNat 0 7 = 32
    ∧ bits (reg (run (.blockWindowWrite cleatFlow 0x2020 0xF) windowsOpen) cleatFlow).toNat 0 7 = bits (reg windowsOpen cleatFlow).toNat 0 7
    ∧ (reg testLocked staTestCtrl).getLsbD 31 = true ∧ reg (run (.blockWindowWrite staTestCtrl 1 0xF) testLocked) staLockErr = 1
    ∧ reg (run (.responseWindowWrite 0 16 1 0xF) ready) (instBase 0 + mbxErrOff) = 2
    ∧ reg (run (.bar2Atomicop 64) ready) hubErr = 16 := by decide +kernel

/-- Four bytes of device memory above the firmware reserve. -/
def filled : State := { ready with mem := mwrite [] 0x20000100 [1, 2, 3, 4] }

theorem w_bar2 : 0 + 8 ≤ bar2Size filled ∧ diePwr filled ((bar2Base filled + 0x20000100) / 2 ^ 36 % 8) = .awake
    ∧ (run (.bar2Read 0x20000100 4) filled).out = [.completion 0 [1, 2, 3, 4] false]
    ∧ homeRead (run (.bar2Write 0x20000102 [9]) filled) 0x20000100 4 = [1, 2, 9, 4]
    ∧ (run (.bar2Read 0x20000100 4) { filled with start := { filled.start with phase := .service } }).out = [.completion 0 [0, 0, 0, 0] false] := by
  decide +kernel

/-- Die C0 in retention. -/
def asleep : State := { filled with power := { dies := [(0, .retention)] } }

theorem w_bar2_sleep : diePwr asleep ((bar2Base asleep + 0x20000100) / 2 ^ 36 % 8) = .retention
    ∧ diePwr (run (.bar2Read 0x20000100 4) asleep) 0 = .waking ∧ (run (.bar2Read 0x20000100 4) asleep).out = []
    ∧ (run (.bar2Read 0x20000100 4) asleep).power.held.length = 1 := by decide +kernel

/-- A later write to a die that is awake waits behind the access that is held. -/
theorem w_bar2_behind : barWaits.power.held ≠ [] ∧ (run (.bar2Write 0x20000100 [9]) barWaits).mem = barWaits.mem
    ∧ (run (.bar2Write 0x20000100 [9]) barWaits).power.held.length = 2 ∧ inReserve (bar2Base filled + 0x20000100) = false
    ∧ inReplica filled (bar2Base filled + 0x20000100) = false := by decide +kernel

theorem w_bar2_reserve : populated filled (bar2Base filled + 0x1000) = true ∧ inReserve (bar2Base filled + 0x1000) = true
    ∧ reg (run (.bar2Read 0x1000 4) filled) hubErr = 8 ∧ reg (run (.bar2Write 0x1000 [1]) filled) hubErr = 8
    ∧ (run (.bar2Write 0x1000 [1]) filled).mem = filled.mem := by decide +kernel
/-! ### Start-up (O10 to O13) -/

/-- RST_SEL is latched at 1; RESET_N is held low; VDD_AON is browned out; REFCLK25 is lost. -/
def perstResets : State := { ready with board := { rstSel := true } }
def heldLow : State := { State.reset with board := { resetN := true } }
def browned : State := { State.reset with board := { brownout := true } }
def clockLost : State := { State.reset with board := { refclkLost := true } }

theorem w_package_reset : ready.board.powered = true ∧ ready.board.resetN = false ∧ ballsTaken ready = false ∧ inReset ready = false
    ∧ (run .powerOn ready).start = {} ∧ inReset (run .powerOn ready) = true ∧ (run (.resetNAssert 10000) filled).mem = []
    ∧ (run (.resetNAssert 10000) ready).fuse = ready.fuse ∧ run (.resetNAssert 999) ready = ready
    ∧ inReset (run .vddAonBrownout ready) = true ∧ (run .refclk25Loss ready).regs = []
    ∧ inReset perstResets = false ∧ (run .perstAssert perstResets).start = { watchdog := true } ∧ (run .perstAssert perstResets).dies = []
    ∧ (run .perstAssert ready).dies = ready.dies := by decide +kernel

theorem w_reset_release : heldLow.board.powered = true ∧ ballsTaken heldLow = false ∧ (run (.resetNRelease true 2) heldLow).board.tmode = 2
    ∧ (run (.resetNRelease true 2) heldLow).start.watchdog = true ∧ (run (.vddAonRecovery false 0) browned).board.brownout = false
    ∧ (run (.refclk25Return true 0) clockLost).board.rstSel = true
    ∧ inReset (run (.vddAonRecovery true 1) { heldLow with board := { resetN := true, brownout := true } }) = true
    ∧ State.reset.start.phase = .reset ∧ inReset State.reset = false ∧ (run .resetPhaseEnd State.reset).start.phase = .rom
    ∧ (run .resetPhaseEnd { State.reset with board := { tmode := 1 } }).start.phase = .reset := by decide +kernel

/-- The start in a phase, with PCF running. -/
def inPhase (p : Phase) : State := { State.reset with start := { phase := p, pcfRunning := true, hubReady := true, watchdog := true } }
/-- The start at the end of phase ROM, with boot records that leave nothing to try, and that name bank B as NEXT. -/
def romEven : State := writeBoot (inPhase .rom) 0 0 0
def romTry : State := writeBoot (inPhase .rom) 1 1 0

theorem w_rom : (bootRec romEven).next = (bootRec romEven).confirmed ∧ (bootRec romEven).confirmed = 0 ∧ (bootRec romTry).next = 1
    ∧ (bootRec romTry).confirmed = 0 ∧ (bootRec romTry).tries = 1 ∧ (run .romPhaseEnd romEven).start.bank = false
    ∧ (run .romPhaseEnd romTry).start.bank = true ∧ (bootRec (run .romPhaseEnd romTry)).tries = 2
    ∧ (run .romPhaseEnd romTry).start.phase = .secure := by decide +kernel

theorem w_secure_recovery : imageValid (inPhase .secure) false = false ∧ imageValid (inPhase .secure) true = false
    ∧ (run .securePhaseEnd (inPhase .secure)).start.phase = .recovery ∧ (run .securePhaseEnd (inPhase .secure)).windows = 1 := by
  decide +kernel

theorem w_settings_failed : factoryValid (inPhase .settings) = false ∧ (run .settingsPhaseEnd (inPhase .settings)).start.failCode = 2
    ∧ (mbx (run .settingsPhaseEnd (inPhase .settings)) 0).fwReady = true := by decide +kernel

/-- Phase DIES with every link up or ended, and with no link up. -/
def linksUp : State := { inPhase .dies with lnt := { ports := (List.range 40).map fun k => (k, { state := 2, bundles := 15 }) } }
def linksDown : State := { inPhase .dies with lnt := { ports := (List.range 40).map fun k => (k, { state := 5 }) } }

theorem w_dies : dieCond linksUp 3 = .notDiscovered ∧ dieCond (run (.dieDiscoveryTimeout 3) linksUp) 3 = .failedAtStart
    ∧ (run (.dieDiscoveryTimeout 3) linksUp).start.diesFailed = 8 ∧ linksTested linksUp = true ∧ [8, 9, 10, 11].any (linkUp linksUp) = true
    ∧ (run .diesPhaseEnd linksUp).start.phase = .stackIds ∧ dieCond (run .diesPhaseEnd linksUp) 7 = .inService
    ∧ linksTested linksDown = true ∧ [8, 9, 10, 11].any (linkUp linksDown) = false ∧ (run .diesPhaseEnd linksDown).start.failCode = 3 := by
  decide +kernel

/-- Phase STACKS, with one die in service, its stack in service and filled, or not yet trained. -/
def stacksDone : State := { inPhase .stackIds with dies := [(2, .inService)], stackIds := [(2, { cond := .inService })] }
def stacksNew : State := { inPhase .stackIds with dies := [(2, .inService)] }

theorem w_stacks : degradedFail stacksDone = none ∧ dieInService stacksDone 2 = true ∧ (tget {} stacksDone.stackIds 2).cond = .inService
    ∧ (stackCtl stacksDone 2).fill = false ∧ (run .stacksPhaseEnd stacksDone).start.phase = .service
    ∧ (tget {} stacksNew.stackIds 2).cond = .notTrained
    ∧ (stackCtl (run (.stackTrainingComplete 2 true 9 8 1 ⟨0, 0, 16⟩) stacksNew) 2).fill = true
    ∧ (tget {} (run (.stackTrainingComplete 2 true 9 8 1 ⟨0, 0, 16⟩) stacksNew).stackIds 2).mfr = 9
    ∧ dieCond (run (.stackTrainingComplete 2 false 9 8 1 ⟨0, 0, 16⟩) stacksNew) 2 = .failedAtStart := by decide +kernel

theorem w_ready : (run .readyTransition (inPhase .service)).start.phase = .ready
    ∧ (run .readyTransition (inPhase .service)).start.result = .complete ∧ (mbx (run .readyTransition (inPhase .service)) 0).fwReady = true
    ∧ bootRec (run .readyTransition (inPhase .service)) = { gen := 1, next := 0, tries := 0, confirmed := 0 }
    ∧ b2n (inPhase .stackIds).start.bank ≠ (bootRec (inPhase .stackIds)).confirmed
    ∧ (run .startWatchdogExpiry (inPhase .stackIds)).start.phase = .rom
    ∧ b2n (writeBoot (inPhase .stackIds) 0 0 0).start.bank = (bootRec (writeBoot (inPhase .stackIds) 0 0 0)).confirmed
    ∧ (run .startWatchdogExpiry (writeBoot (inPhase .stackIds) 0 0 0)).start.failCode = 6 := by decide +kernel

theorem w_watchdog_early : (inPhase .rom).start.watchdog = true ∧ inReset (inPhase .rom) = false ∧ (inPhase .rom).board.tmode = 0
    ∧ (run .startWatchdogExpiry (inPhase .rom)).start.phase = .failed ∧ (run .startWatchdogExpiry (inPhase .reset)).start.failCode = 6 := by
  decide +kernel

/-- The hub's window is open and SFC_ADDR names an unprotected page; a byte of the next page is programmed. -/
def sfcOpen : State := { ready with windows := 1, regs := [(sfcAddr, 0x3400010)], flash := { bytes := [(0x3400000, 0xF0), (0x3401000, 0x11)] } }
def sfcBusy (k : Nat) : State := { sfcOpen with sfc := { running := some { cmd := k, addr := 0x3400000 }, buf := [(0, 0x3C)] } }

theorem w_sfc : memSpaceOn sfcOpen 0 = true ∧ windowOpen sfcOpen 0x471004 = true ∧ sfcOpen.sfc.running = none
    ∧ flashProtected sfcOpen (sfcTarget sfcOpen 4096) = false ∧ flashProtected sfcOpen (sfcTarget sfcOpen 65536) = false
    ∧ (run .sfcProgram sfcOpen).sfc.running = some { cmd := 2, addr := 0x3400000 }
    ∧ (run .sfcErase sfcOpen).sfc.running = some { cmd := 3, addr := 0x3400000 } ∧ (run .sfcRead sfcOpen).sfc.running.isSome
    ∧ flashProtected { sfcOpen with regs := [] } (sfcTarget { sfcOpen with regs := [] } 4096) = true
    ∧ reg (run .sfcProgram { sfcOpen with regs := [] }) sfcStatus = 4 ∧ (sfcBusy 1).sfc.running ≠ none
    ∧ reg (run .sfcRead (sfcBusy 1)) sfcStatus = 2 := by decide +kernel

theorem w_sfc_complete : (sfcBusy 1).sfc.running = some { cmd := 1, addr := 0x3400000 }
    ∧ (sfcBusy 2).sfc.running = some { cmd := 2, addr := 0x3400000 } ∧ (sfcBusy 3).sfc.running = some { cmd := 3, addr := 0x3400000 }
    ∧ flashByte (run (.sfcCommandComplete false) (sfcBusy 3)) 0x3401000 = 0xFF
    ∧ (run (.sfcCommandComplete false) (sfcBusy 3)).sfc.running = none := by decide +kernel
/-! ### SHA-256 over equal blocks: the rounds on evaluated numbers, for the digests of large images -/

/-- Applies a function to a number once the number is evaluated. -/
def forced (f : Nat → List Nat) : Nat → List Nat
  | 0 => f 0
  | n + 1 => f (n + 1)
theorem forced_eq (f : Nat → List Nat) (n : Nat) : forced f n = f n := by cases n <;> rfl

/-- A rotation: a quotient, and a remainder moved up. -/
def rot (x d m : Nat) : Nat := Nat.add (Nat.div x d) (Nat.mul (Nat.mod x d) m)
/-- The rounds of a block on its eight values, each evaluated in its turn, and their sums with the values before it. -/
def rounds (h0 : List Nat) : List Nat → Nat → Nat → Nat → Nat → Nat → Nat → Nat → Nat → List Nat
  | [], a, b, c, d, e, f, g, h => (h0.zip [a, b, c, d, e, f, g, h]).map fun p => (p.1 + p.2) % 2 ^ 32
  | kw :: l, a, b, c, d, e, f, g, h =>
    forced (fun t1 => forced (fun x => forced (fun y => rounds h0 l x a b c y e f g)
        (Nat.mod (Nat.add d t1) 4294967296))
      (Nat.mod (Nat.add t1 (Nat.add (Nat.xor (Nat.xor (rot a 4 1073741824) (rot a 8192 524288)) (rot a 4194304 1024))
        (Nat.xor (Nat.xor (Nat.land a b) (Nat.land a c)) (Nat.land b c)))) 4294967296))
      (Nat.add (Nat.add (Nat.add h (Nat.xor (Nat.xor (rot e 64 67108864) (rot e 2048 2097152)) (rot e 33554432 128)))
        (Nat.xor (Nat.land e f) (Nat.land (Nat.sub 4294967295 e) g))) kw)

theorem rounds_eq (h0 : List Nat) (l : List Nat) : ∀ a b c d e f g h, rounds h0 l a b c d e f g h
    = (h0.zip (l.foldl shaRound [a, b, c, d, e, f, g, h])).map fun p => (p.1 + p.2) % 2 ^ 32 := by
  induction l with
  | nil => intros; rfl
  | cons kw l ih =>
    intro a b c d e f g h
    rw [rounds, forced_eq, forced_eq, forced_eq, ih, List.foldl_cons]
    rfl

/-- A block's message schedule with the round constants. -/
def sched (bs : List Byte) : List Nat :=
  (shaK.zip (shaExtend 48 ((List.range 16).map fun i => beNat ((bs.drop (4 * i)).take 4)).reverse).reverse).map fun p => p.1 + p.2


/-- A block on a hash, by its schedule. -/
def blockBy (bs : List Byte) (kw : List Nat) : List Nat → List Nat
  | [a, b, c, d, e, f, g, h] =>
    forced (fun a => forced (fun b => forced (fun c => forced (fun d => forced (fun e => forced (fun f => forced (fun g => forced (fun h =>
      rounds [a, b, c, d, e, f, g, h] kw a b c d e f g h) h) g) f) e) d) c) b) a
  | v => shaBlock v bs

theorem blockBy_eq {bs : List Byte} {kw : List Nat} (h : sched bs = kw) (v : List Nat) : shaBlock v bs = blockBy bs kw v := by
  subst h
  unfold blockBy
  split
  · simp only [forced_eq, rounds_eq]
    rfl
  · rfl

/-- `n` equal blocks. -/
def blocksBy (bs : List Byte) (kw : List Nat) : Nat → List Nat → List Nat
  | 0, v => v
  | n + 1, v => blocksBy bs kw n (blockBy bs kw v)

theorem shaBlocks_replicate {x : Byte} {kw : List Nat} (h : sched (List.replicate 64 x) = kw) (m : Nat) (r : List Byte) :
    ∀ (n : Nat) (v : List Nat), shaBlocks (n + m) v (List.replicate (64 * n) x ++ r) = shaBlocks m (blocksBy (List.replicate 64 x) kw n v) r
  | 0, v => by simp [blocksBy]
  | n + 1, v => by
    have e : List.replicate (64 * (n + 1)) x = List.replicate 64 x ++ List.replicate (64 * n) x := by
      rw [List.replicate_append_replicate]; congr 1; omega
    rw [Nat.add_right_comm, shaBlocks, e, List.append_assoc, List.take_left' (by simp), List.drop_left' (by simp), blockBy_eq h,
      shaBlocks_replicate h m r n, blocksBy]

/-- The schedule of a block of zeros. -/
def kwZ : List Nat :=
  [1116352408, 1899447441, 3049323471, 3921009573, 961987163, 1508970993, 2453635748, 2870763221, 3624381080, 310598401,
 607225278, 1426881987, 1925078388, 2162078206, 2614888103, 3248222580, 3835390401, 4022224774, 264347078, 604807628,
 770255983, 1249150122, 1555081692, 1996064986, 2554220882, 2821834349, 2952996808, 3210313671, 3336571891, 3584528711,
 113926993, 338241895, 666307205, 773529912, 1294757372, 1396182291, 1695183700, 1986661051, 2177026350, 2456956037,
 2730485921, 2820302411, 3259730800, 3345764771, 3516065817, 3600352804, 4094571909, 275423344, 430227734, 506948616,
 659060556, 883997877, 958139571, 1322822218, 1537002063, 1747873779, 1955562222, 2024104815, 2227730452, 2361852424,
 2428436474, 2756734187, 3204031479, 3329325298]
theorem sched_zero : sched (List.replicate 64 0) = kwZ := by decide +kernel
/-! ### A firmware image (O11, O13) -/

/-- Bytes laid out from an address. -/
def tabAt : Nat → List Byte → Tab Byte
  | _, [] => []
  | a, b :: bs => (a, b) :: tabAt (a + 1) bs

theorem tget_tabAt_below (d : Byte) : ∀ (bs : List Byte) (a k : Nat), k < a → tget d (tabAt a bs) k = d
  | [], _, _, _ => rfl
  | b :: bs, a, k, h => by
    have h1 : ¬ a = k := by omega
    simp only [tabAt, tget, h1, if_false]
    exact tget_tabAt_below d bs (a + 1) k (by omega)

theorem tget_tabAt (d : Byte) : ∀ (bs : List Byte) (a i : Nat), tget d (tabAt a bs) (a + i) = bs.getD i d
  | [], _, _ => rfl
  | b :: bs, a, 0 => by simp [tabAt, tget]
  | b :: bs, a, i + 1 => by
    have h1 : ¬ a = a + (i + 1) := by omega
    have h2 : a + (i + 1) = a + 1 + i := by omega
    simp only [tabAt, tget, h1, if_false]
    rw [h2, tget_tabAt d bs (a + 1) i]
    rfl

theorem flashRead_at {s : State} {a k n : Nat} {bs : List Byte} (h : s.flash.bytes = tabAt a bs) :
    flashRead s (a + k) n = (List.range n).map fun i => bs.getD (k + i) 0xFF := by
  unfold flashRead flashByte
  rw [h]
  refine List.map_congr_left fun i _ => ?_
  rw [Nat.add_assoc, tget_tabAt]

/-- A firmware image of 4,096 bytes, its body erased flash, signed under the part's key. -/
def fwImage : List Byte :=
  [80, 67, 70, 87, 1, 0, 0, 0, 33, 0, 1, 8, 0, 16, 0, 0, 135, 126, 254, 65, 63, 179, 156, 170, 248, 104, 194, 88, 121, 65, 28, 165, 86, 73, 38, 29, 175, 222, 108, 229, 48, 27, 254, 108, 231, 19, 24, 11, 87, 66, 161, 124, 39, 103, 60, 170, 144, 231, 22, 66, 142, 184, 93, 158]
    ++ [102, 1, 117, 214, 12, 48, 222, 137, 0, 251, 25, 29, 248, 53, 34, 163, 44, 145, 221, 67, 143, 107, 41, 50, 60, 34, 87, 139, 122, 36, 238, 48, 94, 83, 162, 10, 208, 43, 39, 25, 60, 160, 141, 2, 1, 190, 128, 84, 0, 0, 0, 0, 0, 0, 0, 0, 0, 0, 0, 0, 0, 0, 0, 0]
    ++ [0, 0, 0, 0, 0, 0, 0, 0, 0, 0, 0, 0, 0, 0, 0, 0, 0, 0, 0, 0, 0, 0, 0, 0, 0, 0, 0, 0, 0, 0, 0, 0, 0, 0, 0, 0, 0, 0, 0, 0, 0, 0, 0, 0, 0, 0, 0, 0, 0, 0, 0, 0, 0, 0, 0, 0, 0, 0, 0, 0, 0, 0, 0, 0]
    ++ [8, 139, 185, 255, 34, 171, 41, 26, 116, 200, 111, 198, 119, 186, 137, 123, 170, 222, 227, 112, 204, 97, 41, 184, 45, 23, 11, 163, 252, 38, 65, 92, 143, 189, 73, 68, 124, 117, 100, 189, 145, 226, 149, 243, 13, 130, 84, 63, 153, 238, 228, 117, 4, 231, 179, 94, 252, 228, 112, 57, 30, 161, 3, 77]
def fwHash : List Byte := [66, 48, 209, 208, 212, 136, 235, 164, 222, 71, 88, 171, 42, 84, 248, 4, 24, 253, 142, 165, 55, 64, 23, 219, 185, 213, 252, 88, 168, 64, 72, 59]

/-- The image in bank A, in a phase, with a bank chosen. -/
def withImage (p : Phase) (b : Bool) : State :=
  { State.reset with
    fuse := { fwKeyHash := fwHash }
    start := { phase := p, bank := b, hubReady := true }
    pcie := { fns := [(0, { memSpace := true })] }
    windows := 1
    flash := { bytes := tabAt (flBank false) fwImage } }

theorem image_body : (List.range 3840).map (fun i => fwImage.getD (256 + i) 0xFF) = List.replicate 3840 0xFF := by
  rw [List.eq_replicate_iff]
  refine ⟨by simp, fun b hb => ?_⟩
  obtain ⟨i, _, rfl⟩ := List.mem_map.mp hb
  have : fwImage.length ≤ 256 + i := by have : fwImage.length = 256 := by decide +kernel
                                        omega
  simp [List.getD, List.getElem?_eq_none this]

theorem image_head : (List.range 256).map (fun i => fwImage.getD (0 + i) 0xFF) = fwImage := by decide +kernel

theorem erased_blocks : (shaBlock (blocksBy (List.replicate 64 0xFF) (sched (List.replicate 64 0xFF)) 60 shaH0)
    ([0x80] ++ zeros 55 ++ beBytes 8 30720)).flatMap (beBytes 4) = (fwImage.drop 16).take 32 := by decide +kernel

theorem image_digest : sha256 (List.replicate 3840 0xFF) = (fwImage.drop 16).take 32 := by
  have e1 : (119 - (List.replicate 3840 (0xFF : Byte)).length % 64) % 64 = 55 := by rw [List.length_replicate]
  have e2 : 8 * (List.replicate 3840 (0xFF : Byte)).length = 30720 := by rw [List.length_replicate]
  have e3 : (List.replicate 3840 (0xFF : Byte) ++ ([0x80] ++ zeros 55 ++ beBytes 8 30720)).length / 64 = 60 + 1 := by
    rw [List.length_append, List.length_replicate]; rfl
  unfold sha256
  simp only [e1, e2, List.append_assoc]
  rw [← List.append_assoc [0x80], e3, show (3840 : Nat) = 64 * 60 from rfl, shaBlocks_replicate rfl, shaBlocks, shaBlocks,
    List.take_of_length_le (by decide +kernel), erased_blocks]

theorem image_signed : ecdsaOk ((fwImage.drop 48).take 64) ((fwImage.drop 192).take 64) (sha256 (fwImage.take 192)) = true := by decide +kernel

theorem image_valid (p : Phase) (b : Bool) : imageValid (withImage p b) false = true := by
  have h1 : flashRead (withImage p b) (flBank false) 256 = fwImage := by
    have := flashRead_at (s := withImage p b) (k := 0) (n := 256) rfl
    rw [image_head] at this
    exact this
  have h2 : flashRead (withImage p b) (flBank false + 256) 3840 = List.replicate 3840 0xFF := by
    rw [flashRead_at (s := withImage p b) (k := 256) (n := 3840) rfl, image_body]
  have hn : field fwImage 12 4 = 4096 := by decide +kernel
  have hh : hubGen (withImage p b) = 3 := rfl
  have hk : (withImage p b).fuse.fwKeyHash = fwHash := rfl
  have hf : (withImage p b).fuse.fusedMin = 0 := rfl
  unfold imageValid
  simp only [h1, hn, h2, hh, hk, hf, image_signed, image_digest, Nat.reduceSub]
  decide +kernel

theorem image_other (p : Phase) (b : Bool) : imageValid (withImage p b) true = false := by
  have h : flashRead (withImage p b) (flBank true) 256 = List.replicate 256 0xFF := by
    have e : flBank true = flBank false + 0x1800000 := rfl
    rw [e, flashRead_at (s := withImage p b) rfl, List.eq_replicate_iff]
    refine ⟨by simp, fun x hx => ?_⟩
    obtain ⟨i, _, rfl⟩ := List.mem_map.mp hx
    have : fwImage.length ≤ 0x1800000 + i := by have : fwImage.length = 256 := by decide +kernel
                                                omega
    simp [List.getD, List.getElem?_eq_none this]
  have hm : decide (field (List.replicate 256 (0xFF : Byte)) 0 4 = 0x57464350) = false := by decide +kernel
  unfold imageValid
  simp only [h, hm, Bool.false_and]

theorem w_secure : imageValid (withImage .secure false) false = true ∧ (withImage .secure true).start.bank = true
    ∧ imageValid (withImage .secure true) true = false ∧ imageValid (withImage .secure true) false = true
    ∧ (withImage .secure false).live ∧ (withImage .secure false).start.phase = .secure :=
  ⟨image_valid _ _, rfl, image_other _ _, image_valid _ _, rfl, rfl⟩

theorem w_reboot : validBank (withImage .recovery false) = some false ∧ memSpaceOn (withImage .recovery false) 0 = true
    ∧ windowOpen (withImage .recovery false) 0x471004 = true ∧ (withImage .recovery false).sfc.running = none := by
  refine ⟨?_, by decide +kernel, by decide +kernel, rfl⟩
  simp [validBank, image_valid]

/-- A factory layer without entries, as the fuses name it. -/
def layerFlash : State := flashProgram (inPhase .settings) flFactory (leBytes 4 0x5347544C ++ leBytes 2 1 ++ zeros 2 ++ zeros 4 ++ zeros 4 ++ zeros 16 ++ sha256 [])
def nameLayer (s : State) : State := { s with fuse := { factoryDigest := sha256 (flashRead s flFactory 65536) } }

theorem factory_named (s : State) (h : layerValid (nameLayer s) flFactory 0 = true) : factoryValid (nameLayer s) = true := by
  unfold factoryValid
  rw [h, Bool.true_and]
  exact decide_eq_true rfl

theorem w_settings : (nameLayer layerFlash).live ∧ (nameLayer layerFlash).start.phase = .settings
    ∧ (nameLayer layerFlash).start.pcfRunning = true ∧ factoryValid (nameLayer layerFlash) = true :=
  ⟨rfl, rfl, rfl, factory_named _ (by decide +kernel)⟩
/-! ### Power, errors and tests (O14 to O18) -/

/-- Cluster 9 in a state. -/
def clusterIs (p : ClusterPwr) : State := { ready with power := { clusters := [(9, p)] } }

theorem w_clusters : clusterPwr (clusterIs .run) 9 = .run ∧ clusterIdle (clusterIs .run) 9 = true
    ∧ clusterPwr (run (.clusterClockGate 9) (clusterIs .run)) 9 = .cg ∧ clusterPwr (run (.clusterWakeComplete 9) (clusterIs .waking)) 9 = .run
    ∧ setting (clusterIs .cg) idPwrPgIdle ≠ 0 ∧ setting (clusterIs .cg) idPwrAwakeClusters ≤ 9 % 8 ∧ clusterLines (clusterIs .cg) 9 = []
    ∧ clusterPwr (run (.clusterPowerGate 9) (clusterIs .cg)) 9 = .pg := by decide +kernel

theorem w_dies_sleep : diePresent ready 3 = true ∧ dieAwake ready 3 = true ∧ setting ready idPwrRetIdle ≠ 0 ∧ dieIdle ready 3 = true
    ∧ diePwr (run (.dieRetentionEntry 3) ready) 3 = .retention ∧ (stackCtl (run (.dieRetentionEntry 3) ready) 3).selfRefresh = true
    ∧ diePwr (setDiePwr ready 3 .waking) 3 = .waking ∧ diePwr (run (.dieWakeComplete 3) (setDiePwr ready 3 .waking)) 3 = .awake := by
  decide +kernel

/-- Die 0 wakes with a BAR2 read held for it. -/
def wakesHolding : State := { filled with power := { dies := [(0, .waking)], held := [.bar2 0x20000100 4 none] } }

theorem w_wake_serves : diePwr wakesHolding 0 = .waking ∧ 0x20000100 / 2 ^ 36 % 8 = 0 ∧ (run (.dieWakeComplete 0) wakesHolding).power.held = []
    ∧ (run (.dieWakeComplete 0) wakesHolding).out = [.completion 0 [1, 2, 3, 4] false] := by decide +kernel

/-- All dies in retention with DEEP_IDLE_AUTO set; in deep idle; waking from it. -/
def restful : State := { ready with power := { dies := (List.range 8).map fun d => (d, .retention) }, settings := { run := [(idPwrDeepAuto, 1)] } }
def deepIdle : State := run .deepIdleEntryComplete { restful with power := { restful.power with entering := true } }
def deepWaking : State := { deepIdle with power := { deepIdle.power with waking := true } }

theorem w_deep : served ready 0x0801 (leBytes 4 1) = true ∧ workRemains ready = false
    ∧ (run (.enterDeepIdle (.mbx 0)) (ask ready 0x0801 (leBytes 4 1))).power.entering = true
    ∧ served (setSession ready 4 { state := .active }) 0x0801 (leBytes 4 1) = true ∧ workRemains (setSession ready 4 { state := .active }) = true
    ∧ answeredAs (run (.enterDeepIdle (.mbx 0)) (ask (setSession ready 4 { state := .active }) 0x0801 (leBytes 4 1))) stBusy = true
    ∧ setting restful idPwrDeepAuto ≠ 0 ∧ workRemains restful = false ∧ (run .deepIdleAutoEntry restful).power.entering = true
    ∧ entryClear restful = true ∧ deepIdle.power.deep = true ∧ deepIdle.uc = {} ∧ (stackCtl deepIdle 5).selfRefresh = true := by decide +kernel

theorem w_wake : served { deepIdle with power := { deepIdle.power with scp := true } } 0x0801 (leBytes 4 2) = true
    ∧ (run (.wakeToIdle (.mbx 0)) (ask { deepIdle with power := { deepIdle.power with scp := true } } 0x0801 (leBytes 4 2))).power.waking = true
    ∧ deepWaking.power.deep = true ∧ (run .packageWakeComplete deepWaking).power.deep = false
    ∧ diePwr (run .packageWakeComplete deepWaking) 5 = .awake ∧ reg (run .packageWakeComplete deepWaking) pwrWakeCnt = 1
    ∧ pcfIdle ready = true ∧ (run .scpHalt ready).power.scp = false ∧ pcfIdle (ask ready 1 []) = false
    ∧ (run .scpWake (run .scpHalt ready)).power.scp = true := by decide +kernel

/-- The trip is engaged and may be released. -/
def tripped : State := { ready with power := { trip := true, releasing := true, coreMhz := 400 } }

theorem w_thermal : (run (.thermalSensorSample [1100]) ready).power.trip = true ∧ (run (.thermalSensorSample [1100]) ready).power.coreMhz = 400
    ∧ (run (.thermalSensorSample [1099]) ready).power.trip = false ∧ (run (.thermalSensorSample [0, 1250]) ready).power.shutdown = true
    ∧ (run (.thermalSensorSample [0, 1250]) ready).board.thermShdn = true ∧ (run (.thermalSensorSample [0, 1249]) ready).power.shutdown = false
    ∧ (run (.thermalSensorSample [999]) tripped).power.releasing = true ∧ (run .thermalTripRelease tripped).power.coreMhz = 1500
    ∧ diePresent ready (17 / 8) = true ∧ dieInService ready (17 / 8) = true ∧ dieCond (run (.coreRailDroop 17) ready) 2 = .quarantined
    ∧ reg (run (.coreRailDroop 17) ready) pwrDroopLast = 0x80000011 := by decide +kernel

theorem w_shutdown : (run (.thermalSensorSample [1250]) ready).power.shutdown = true
    ∧ run .hotReset (run (.thermalSensorSample [1250]) ready) = run (.thermalSensorSample [1250]) ready := by decide +kernel

/-- The PF's log has a hold of code 0x1032 with nothing held, and with two occurrences held. -/
def holdEmpty : State := setErrLog ready 0 { next := 5, holds := [(0x1032, {})] }
def holdTwo : State := setErrLog ready 0 { next := 5, holds := [(0x1032, { count := 2, last := some { code := 0x1032, cls := 6 } })] }

theorem w_holds : (errLog holdEmpty 0).holds.find? (fun h => h.1 == 0x1032) = some (0x1032, {})
    ∧ (errLog (run (.coalesceHoldEnd 0 0x1032) holdEmpty) 0).holds = []
    ∧ (errLog holdTwo 0).holds.find? (fun h => h.1 == 0x1032) = some (0x1032, { count := 2, last := some { code := 0x1032, cls := 6 } })
    ∧ (errLog (run (.coalesceHoldEnd 0 0x1032) holdTwo) 0).recs = [{ index := 5, code := 0x1032, cls := 6, count := 2 }]
    ∧ (run .ceWindowEnd { ready with err := { ce := [(1, {})] } }).err.ce = [] := by decide +kernel

theorem w_jtag : ready.board.powered = true ∧ ready.board.brownout = false ∧ (run .extest ready).jtag.ir = .extest
    ∧ (run .idcode ready).out.length = 1 ∧ bits (idcodeWord ready) 0 12 = 0x9CF ∧ (run (.samplePreload 5) ready).jtag.boundary = 5
    ∧ (run .bypass browned).jtag = browned.jtag := by decide +kernel

/-- LINK_TEST of Lenot link 8 with pattern 1 for 10 ms; the link under test. -/
def testReq : List Byte := [0, 8, 1, 0, 0, 0, 0, 0, 10, 0, 0, 0, 0, 0, 0, 0]
def underTest : State := { ready with linkTests := [(8, { op := (req 0x0601 testReq).op, pattern := 1, laneMask := 0, durationMs := 10 })] }

theorem w_link_test : served ready 0x0601 testReq = true ∧ testing (ask ready 0x0601 testReq) 0 8 = false
    ∧ linkHeld (ask ready 0x0601 testReq) 0 8 = false ∧ answeredAs (run (.linkTest (.mbx 0)) (ask ready 0x0601 testReq)) stAccepted = true
    ∧ testing (run (.linkTest (.mbx 0)) (ask ready 0x0601 testReq)) 0 8 = true ∧ served underTest 0x0601 testReq = true
    ∧ testing (ask underTest 0x0601 testReq) 0 8 = true ∧ answeredAs (run (.linkTest (.mbx 0)) (ask underTest 0x0601 testReq)) stBusy = true
    ∧ underTest.linkTests.find? (fun p => p.1 == 16 * 0 + 8) = some (8, { op := (req 0x0601 testReq).op, pattern := 1, laneMask := 0, durationMs := 10 })
    ∧ linkDrained underTest 8 = true ∧ testing (run (.linkTestComplete 0 8 [] [] [] []) underTest) 0 8 = false := by decide +kernel

/-- DIE_CTRL of die 3: quarantine, and return. -/
def quarantineReq : List Byte := [3, 1, 0, 0, 0, 0, 0, 0]
def returnReq : List Byte := [3, 2, 0, 0, 0, 0, 0, 0]
def noDie3 : State := { ready with dies := tput ready.dies 3 .quarantined }
def draining3 : State := { ready with twin := { dieOps := [(3, { op := (req 0x0703 quarantineReq).op, back := false, drainMs := 0 })] } }
def returning3 : State := { noDie3 with windows := 0x1FF, twin := { dieOps := [(3, { op := (req 0x0703 returnReq).op, back := true, drainMs := 0 })] } }

theorem w_quarantine : served ready 0x0703 quarantineReq = true ∧ dieCtrlRefusal (ask ready 0x0703 quarantineReq) 3 .quarantined .inService = none
    ∧ (dieOp (run (.dieQuarantine (.mbx 0)) (ask ready 0x0703 quarantineReq)) 3).isSome = true ∧ served noDie3 0x0703 returnReq = true
    ∧ dieCtrlRefusal (ask noDie3 0x0703 returnReq) 3 .inService .quarantined = none
    ∧ (dieOp (run (.dieReturnToService (.mbx 0)) (ask noDie3 0x0703 returnReq)) 3).isSome = true
    ∧ (dieOp draining3 3).isSome = true ∧ draining3.serving.step = none ∧ sessionsOn draining3 3 = [] ∧ drained draining3 3 = true
    ∧ dieCond (run (.quarantineDrainComplete 3) draining3) 3 = .quarantined ∧ dieCond (run (.quarantineDrainExpiry 3) draining3) 3 = .quarantined
    ∧ (dieOp returning3 3).isSome = true ∧ dieCond (run (.returnToServiceComplete 3) returning3) 3 = .inService
    ∧ (run (.returnToServiceComplete 3) returning3).windows = 0x1EF := by decide +kernel

theorem w_uncontained : dieInService ready 3 = true ∧ ready.err.fatal = false
    ∧ dieCond (run (.uncontainedDieError 3 none 0) ready) 3 = .quarantined ∧ dieCond (run (.uncontainedDieError 3 none 0) ready) 4 = .inService
    ∧ (run (.uncontainedPackageError 9 true) ready).err.fatal = true ∧ (run (.uncontainedPackageError 9 true) ready).err.fatalCode = 0x1043
    ∧ (run (.uncontainedPackageError 9 true) ready).start.pcfRunning = false := by decide +kernel
/-! ### Sessions (O19 to O21) -/

theorem w_fatal_stays : (run (.uncontainedPackageError 9 false) ready).err.fatal = true
    ∧ (run (.uncontainedDieError 3 none 0) (run (.uncontainedPackageError 9 false) ready)).err.fatalCode = 0x1043
    ∧ (run (.uncontainedPackageError 9 false) ready).start.pcfRunning = true := by decide +kernel

/-- Kernel mode, four free rows on stack 0 last held by the PF, and session 7 of the PF, with no history. -/
def kernel : State :=
  { ready with
    serving := { mode := 2 }
    sess := { table := [(7, { state := .active, net := net1, maxTokens := 1000 })],
              pools := [(0, { rows := 4, free := [2, 0, 1, 3], owner := (List.range 4).map fun r => (r, 1) })] } }

/-- RESERVE of 100 + 4 positions for session 7, and one that needs a row of an empty pool, in class 1. -/
def reserveCmd (cls : Nat) : List Byte := fields 64 [(0, 1, 0x31), (8, 4, 7), (12, 1, cls), (13, 1, 0xFF), (14, 2, 5), (16, 1, 4)]
def reserving : State := withCmd kernel 3 2 0 (reserveCmd 0)
def poolEmpty : State := withCmd (setPool kernel 0 { rows := 4 }) 3 2 0 (reserveCmd 1)

theorem w_reserve : (startedCmd reserving 3 0 0x31).isSome = true ∧ reserveRefusal reserving 0 7 0 0xFF 5 4 = none
    ∧ sourceStack (session reserving 7) 0xFF = 0 ∧ popServed reserving 0 0 (entriesNeeded (session reserving 7) 5 4).length = true
    ∧ ((pool reserving 0).free.take 1).all (fun r => tget 0 (pool reserving 0).owner r == 1) = true
    ∧ (session (run (.reserve 3 0) reserving) 7).resv = .opened ∧ (session (run (.reserve 3 0) reserving) 7).t = 9
    ∧ (pool (run (.reserve 3 0) reserving) 0).free = [0, 1, 3]
    ∧ cmdStage (run (.reserve 3 0) reserving) 3 0 = some (.ended { status := stOk, result := 1 + 2 ^ 16 })
    ∧ reserveRefusal poolEmpty 0 7 1 0xFF 5 4 = none ∧ popServed poolEmpty 0 1 (entriesNeeded (session poolEmpty 7) 5 4).length = false
    ∧ cmdStage (run (.reserve 3 0) poolEmpty) 3 0 = some (.ended { status := stPoolEmpty, detail := 0 }) := by decide +kernel

/-- Row 2 of stack 0 is being zero-filled for session 7. -/
def filling : State :=
  { setPool (setSession kernel 7 { session kernel 7 with resv := .filling { cls := 0, stack := 0, f := 5, d := 4, queue := 3, index := 0, rows := [2] } })
      0 { rows := 4, free := [0, 1, 3], owner := [(2, 4)] } with
    mem := mset [] (rowBase kernel 0 2 + 5) 9 }

theorem w_row_zero_fill : (session filling 7).state = .active ∧ rowForeign filling 0 (session filling 7).owner 2 = true ∧ filling.uc = {} ∧ mget filling.mem (rowBase filling 0 2 + 5) = 9
    ∧ (session (run (.rowZeroFillComplete 7) filling) 7).f = 5 ∧ (run (.rowZeroFillComplete 7) filling).mem = [] := by decide +kernel

/-- Session 7 with an open reservation of 9 positions beyond C = 600, the second row tentative. -/
def opened : Session := { state := .active, net := net1, maxTokens := 1000, c := 600, f := 609, t := 609, gen := 4, resv := .opened,
                          rowMap := [(0, { stack := 0, row := 2 }), (1, { stack := 0, row := 0 })], tent := [1] }
def commitCmd (op k : Nat) : List Byte := fields 64 [(0, 1, op), (8, 4, 7), (12, 2, k)]
def committing (op k : Nat) : State := withCmd (setSession kernel 7 opened) 3 2 0 (commitCmd op k)

theorem w_commit : ownSession (committing 0x32 9) 0 7 = true ∧ (committing 0x32 9).serving.mode ≠ 1
    ∧ (startedCmd (committing 0x32 9) 3 0 0x32).isSome = true ∧ (committing 0x32 9).twin.fenced = false
    ∧ (session (run (.commit 3 0) (committing 0x32 9)) 7).c = 609 ∧ (session (run (.commit 3 0) (committing 0x32 9)) 7).rowMap.length = 2
    ∧ cmdStage (run (.commit 3 0) (committing 0x32 9)) 3 0 = some (.ended { status := stOk, result := 609 })
    ∧ cmdStage (run (.commit 3 0) (committing 0x32 10)) 3 0 = some (.ended { status := stBadRequest, detail := 12 })
    ∧ (startedCmd (committing 0x33 0) 3 0 0x33).isSome = true ∧ (session (run (.rollback 3 0) (committing 0x33 0)) 7).t = 600
    ∧ (startedCmd (withCmd kernel 3 2 0 (commitCmd 0x33 0)) 3 0 0x33).isSome = true ∧ (session kernel 7).resv = .none
    ∧ cmdStage (run (.rollback 3 0) (withCmd kernel 3 2 0 (commitCmd 0x33 0))) 3 0 = some (.ended { status := stWrongState, detail := 1 }) := by
  decide +kernel

/-- A command of session 7 behind a zero-fill; session 7 parked by a RESERVE. -/
def fillingCmd (op : Nat) : State := withCmd filling 3 2 0 (if op = 0x31 then reserveCmd 0 else commitCmd op 1)
def parked : State :=
  withCmd (setSession kernel 7 { session kernel 7 with
    state := .waitPage, resv := .pending { cls := 0, stack := 0, f := 5, d := 4, queue := 3, index := 9, rows := [] } }) 3 2 0 (commitCmd 0x33 0)

theorem w_behind_fill : behindFill (session (fillingCmd 0x31) 7) = true ∧ ownSession (fillingCmd 0x31) 0 7 = true
    ∧ (startedCmd (fillingCmd 0x31) 3 0 0x31).isSome = true ∧ (startedCmd (fillingCmd 0x32) 3 0 0x32).isSome = true
    ∧ (startedCmd (fillingCmd 0x33) 3 0 0x33).isSome = true ∧ run (.commit 3 0) (fillingCmd 0x32) = fillingCmd 0x32
    ∧ run (.rollback 3 0) (fillingCmd 0x33) = fillingCmd 0x33 ∧ (startedCmd parked 3 0 0x33).isSome = true
    ∧ (session (run (.rollback 3 0) parked) 7).state = .active
    ∧ cmdStage (run (.rollback 3 0) parked) 3 0 = some (.ended { status := stOk, detail := 1 }) := by decide +kernel

/-- STAT of session 7 at 0x30000000. -/
def stating : State := withCmd kernel 3 2 0 (fields 64 [(0, 1, 0x34), (8, 4, 7), (16, 8, direct 0x30000000)])

theorem w_stat : (startedCmd stating 3 0 0x34).isSome = true ∧ ownSession stating 0 7 = true ∧ (session stating 7).state ≠ .shadow
    ∧ behindFill (session stating 7) = false
    ∧ ((startedCmd stating 3 0 0x34).map fun c => (writeBuf stating (queue stating 3) c 16 (direct 0x30000000) (statBytes (session stating 7))).2) = some none
    ∧ cmdStage (run (.stat 3 0) stating) 3 0 = some (.ended { status := stOk })
    ∧ homeRead (run (.stat 3 0) stating) 0x30000010 4 = [0, 2, 0, 0] := by decide +kernel

/-- MERGE_ARM of slot 2 on C1 for two vectors of 64 elements, whose masks name sources 0 and 1, and 2; the slot armed; MERGE_ABORT. -/
def armCmd : List Byte :=
  fields 64 [(0, 1, 0x35), (8, 1, 2), (10, 2, 64), (12, 4, 2), (16, 8, direct 0x30001000), (24, 8, 256), (32, 8, direct 0x30002000),
             (40, 8, direct 0x30003000), (48, 2, 5)]
def arming : State := withCmd { kernel with mem := mwrite [] 0x30002000 [3, 4] } 3 2 1 armCmd
def armed : State := run (.mergeArm 3 0) arming
def aborting : State := withCmd armed 3 2 1 (fields 64 [(0, 1, 0x36), (8, 1, 2)])

theorem w_merge_arm : (startedCmd arming 3 0 0x35).isSome = true ∧ (startedCmd arming 3 0 0x35).bind (mergeArmRange arming 0) = none
    ∧ mergeSlot arming 1 2 = none ∧ ((startedCmd arming 3 0 0x35).bind fun c => mergeOutFault arming (queue arming 3) c) = none
    ∧ ((startedCmd arming 3 0 0x35).bind fun c => (readBuf arming (queue arming 3) c 32 (direct 0x30002000) 2).2.toOption) = some [3, 4]
    ∧ (mergeSlot armed 1 2).map (·.masks) = some [3, 4] ∧ (mergeSlot armed 1 2).map (·.vectors) = some 2
    ∧ (startedCmd aborting 3 0 0x36).isSome = true ∧ (mergeSlot aborting 1 2).map (·.owner) = some 0
    ∧ mergeSlot (run (.mergeAbort 3 0) aborting) 1 2 = none := by decide +kernel

/-- MERGE_ABORT of slot 66, of a free slot, and in serving mode. -/
def abortOf (n : Nat) : State := withCmd armed 3 2 1 (fields 64 [(0, 1, 0x36), (8, 1, n)])
def abortServing : State := { aborting with serving := { mode := 1 } }

theorem w_merge_abort : (startedCmd (abortOf 66) 3 0 0x36).isSome = true
    ∧ cmdStage (run (.mergeAbort 3 0) (abortOf 66)) 3 0 = some (.ended { status := stBadRequest, detail := 8 })
    ∧ cmdStage (run (.mergeAbort 3 0) (abortOf 63)) 3 0 = some (.ended { status := stWrongState })
    ∧ (startedCmd abortServing 3 0 0x36).isSome = true
    ∧ cmdStage (run (.mergeAbort 3 0) abortServing) 3 0 = some (.ended { status := stWrongState, detail := 1 }) := by decide +kernel

/-- A record of source 0 for vector 0, and records that are stray. -/
def part (source : Nat) : MergeRec := { slot := 2, vector := 0, source := source, m := 0, l := 0, o := List.replicate 64 0 }

theorem w_merge_write : armed.posted = [] ∧ mergeSlot armed 1 2 ≠ none ∧ mergeSlot armed 1 3 = none
    ∧ bit 3 0 = true ∧ bit 3 1 = true ∧ bit 3 2 = false
    ∧ (mergeSlot (run (.mergeWrite 1 5 (part 0)) armed) 1 2).map (fun m => m.got.map (·.1)) = some [0]
    ∧ reg (run (.mergeWrite 1 5 (part 2)) armed) (dieReg 1 sesErr) = 4
    ∧ reg (run (.mergeWrite 0 5 { part 0 with slot := 66 }) armed) (dieReg 0 sesErr) = 4
    ∧ reg (run (.mergeWrite 2 5 (part 0)) armed) (dieReg 2 sesErr) = 4 := by decide +kernel

/-- An append of sixteen ones at position 605. -/
def tag16 (gen : Half) : AppendTag := { session := 7, layer := 0, kv := 0, head := 0, position := 605, dimFirst := 16, count := 16, srcFormat := 0, gen := gen }
def ones : List Word := List.replicate 16 0x3F800000
def reserved7 : State := setSession kernel 7 opened

theorem w_append : reserved7.posted = [] ∧ (session reserved7 7).state = .active ∧ mayAccess reserved7 (session reserved7 7) 5 = true
    ∧ (session reserved7 7).c ≤ 605 ∧ 605 < (session reserved7 7).t ∧ appendInRange (session reserved7 7) (tag16 4) 16 = true
    ∧ elemAddr reserved7 (session reserved7 7) 0 0 0 605 16 = some (rowBase reserved7 0 0 + 93 * 64 + 16)
    ∧ homeRead (run (.appendWrite 5 (tag16 4) ones) reserved7) (rowBase reserved7 0 0 + 93 * 64 + 16) 2 = [0x38, 0x38]
    ∧ (run (.appendWrite 5 (tag16 3) ones) reserved7).mem = [] ∧ reg (run (.appendWrite 5 (tag16 3) ones) reserved7) (dieReg 0 sesErr) = 2 := by
  decide +kernel

/-- A pair with both twin ports in service, and session 7 mirrored with five committed positions. -/
def pair : State :=
  { ready with
    twin := { state := 2, partner := 6 }
    settings := { run := [(idTwinCleatPeer, 2)] }
    hws := { ports := [(6, { state := 2, trained := true }), (7, { state := 2, trained := true })] }
    sess := { table := [(7, { state := .active, net := net1, maxTokens := 1000, sflags := 1, c := 5, f := 5, t := 5, shOpen := true,
                              rowMap := [(0, { stack := 0, row := 2 })] })] } }

theorem w_mirror : isMirrored (session kernel 7) = false ∧ run (.mirrorSend 7) kernel = kernel ∧ isMirrored (session pair 7) = true
    ∧ paired pair = true ∧ (session pair 7).shOpen = true ∧ (twinPort pair (session pair 7).home).isSome = true
    ∧ (List.range 5).all (fun p => !posPoisoned pair (session pair 7) p) = true ∧ (session (run (.mirrorSend 7) pair) 7).m = 5
    ∧ (session (run (.mirrorSend 7) pair) 7).a = 0 := by decide +kernel
/-! ### A bundle image of one encoder without weights: a header, zeros, and a trailer signed under the customer root key (O22) -/

def bunHead : List Byte :=
  [66, 78, 68, 76, 1, 0, 1, 0, 128, 0, 1, 0, 0, 0, 0, 0, 0, 0, 0, 0, 0, 0, 0, 0, 0, 3, 0, 0, 0, 0, 0, 0, 0, 0, 0, 0, 0, 0, 0, 0, 0,
   0, 0, 0, 0, 0, 0, 0, 0, 0, 0, 0, 0, 0, 0, 0, 0, 0, 0, 0, 0, 0, 0, 0, 1, 0, 0, 0, 1, 0, 0, 0, 0, 0, 1, 0, 0, 0, 0, 0, 0, 0, 0, 0,
   0, 0, 0, 0, 0, 0, 0, 0, 0, 0, 0, 0, 0, 0, 0, 0, 0, 0, 0, 0, 0, 0, 0, 0, 0, 0, 0, 0, 0, 0, 0, 0, 0, 0, 0, 0, 0, 0, 0, 0, 0, 0, 0,
   0]
def bunKey : List Byte :=
  [106, 29, 77, 74, 175, 75, 25, 232, 69, 227, 66, 114, 152, 245, 93, 26, 182, 55, 80, 186, 145, 43, 24, 50, 86, 94, 39, 216, 5,
   152, 119, 241, 117, 102, 63, 232, 24, 225, 190, 119, 24, 178, 232, 88, 217, 246, 229, 22, 144, 132, 75, 203, 1, 192, 249, 53, 66,
   240, 221, 51, 11, 140, 60, 243]
def bunSig : List Byte :=
  [145, 148, 154, 235, 239, 88, 246, 77, 186, 20, 127, 102, 170, 31, 4, 81, 196, 94, 227, 186, 205, 140, 255, 31, 64, 218, 81, 124,
   11, 231, 47, 98, 145, 148, 154, 235, 239, 88, 246, 77, 186, 20, 127, 102, 170, 31, 4, 81, 196, 94, 227, 186, 205, 140, 255, 31,
   64, 218, 81, 124, 11, 231, 47, 98]
def bunDigest : List Byte :=
  [145, 148, 154, 235, 239, 88, 246, 77, 186, 20, 127, 102, 170, 31, 4, 81, 196, 94, 227, 186, 205, 140, 255, 31, 64, 218, 81, 124,
   11, 231, 47, 98]

theorem bundle_blocks : blocksBy (List.replicate 64 0) kwZ 1022
  [2500829888, 2000042810, 832603740, 3529371796, 2793995534, 1617119776, 3821002107, 3875750056]
    =
  [4232693481, 702215618, 1392470392, 4183909803, 1630939213, 2493543333, 1303845705, 2728172211] := by decide +kernel

theorem bundle_first : shaBlock (shaBlock shaH0 (bunHead.take 64)) (bunHead.drop 64) =
  [2500829888, 2000042810, 832603740, 3529371796, 2793995534, 1617119776, 3821002107, 3875750056] := by decide +kernel

theorem bundle_last : (shaBlock
  [4232693481, 702215618, 1392470392, 4183909803, 1630939213, 2493543333, 1303845705, 2728172211]
    ([0x80] ++ zeros 55 ++ beBytes 8 524288)).flatMap (beBytes 4) = bunDigest := by decide +kernel

/-- The image to its trailer. -/
def bunBody : List Byte := bunHead ++ List.replicate (64 * 1022) 0

theorem bunBody_length : bunBody.length = 65536 := by
  rw [bunBody, List.length_append, List.length_replicate]; rfl

theorem bundle_digest : sha256 bunBody = bunDigest := by
  have e1 : (119 - bunBody.length % 64) % 64 = 55 := by rw [bunBody_length]
  have e2 : 8 * bunBody.length = 524288 := by rw [bunBody_length]
  have e3 : (bunBody ++ ([0x80] ++ zeros 55 ++ beBytes 8 524288)).length / 64 = 1022 + 1 + 1 + 1 := by
    rw [List.length_append, bunBody_length]; rfl
  have eb : bunBody = bunHead.take 64 ++ (bunHead.drop 64 ++ List.replicate (64 * 1022) 0) := by
    rw [← List.append_assoc, List.take_append_drop]; rfl
  have l1 : (bunHead.take 64).length = 64 := rfl
  have l2 : (bunHead.drop 64).length = 64 := rfl
  unfold sha256
  simp only [e1, e2, List.append_assoc]
  rw [← List.append_assoc [0x80], e3, shaBlocks, eb, List.append_assoc, List.append_assoc, List.take_left' l1, List.drop_left' l1,
    shaBlocks, List.take_left' l2, List.drop_left' l2, bundle_first,
    shaBlocks_replicate sched_zero, bundle_blocks, shaBlocks, shaBlocks, List.take_of_length_le (by decide +kernel), bundle_last]

theorem bundle_signed : ecdsaOk bunKey bunSig bunDigest = true := by decide +kernel

/-- Serving mode, the image at 0x20000100 of stack 0, its key's digest in force as the customer root key's. -/
def bunBase : Nat := 0x20000100
def bunTop : Nat := 0x20010100
@[irreducible] def bunMem : Tab Byte := mwrite (mwrite [] bunBase bunHead) bunTop (bunKey ++ bunSig)
def withBundle : State :=
  { ready with
    serving := { mode := 1 }
    settings := { written := [1], run := [(1, 2537099490141281450), (2, 6995511022500271023), (3, 7538084327218198460), (4, 16789661472074373892)] }
    mem := bunMem }
def bunLoad : LoadOp := { op := { issuer := 0, seq := 1, tag := 7, opcode := 0x0201 }, handle := 1, dpa := bunBase, bytes := 65664, repl := 1 }

theorem bun_reachable {a : Nat} (h1 : 0x20000000 ≤ a) (h2 : a < 0x20100000) : reachable withBundle a = true := by
  have e1 : a / 2 ^ 39 = 0 := by omega
  have e2 : a % 2 ^ 36 = a := by omega
  have e3 : a / 2 ^ 36 % 8 = 0 := by omega
  simp only [reachable, populated, inReserve, e1, e2, e3]
  have h3 : a < 0xC00000000 := by omega
  have h4 : ¬ a < 0x20000000 := by omega
  have hc : (tget ({} : StackId) withBundle.stackIds 0).cond ≠ .failed := by decide +kernel
  have hl : withBundle.linkTests = [] := rfl
  simp [h3, h4, hl]
  exact hc

theorem mread_zeros (t : Tab Byte) : ∀ (n a : Nat), (∀ b, a ≤ b → b < a + n → mget t b = 0) → mread t a n = List.replicate n 0
  | 0, _, _ => rfl
  | n + 1, a, h => by
    rw [mread, h a (by omega) (by omega), mread_zeros t n (a + 1) (fun b h1 h2 => h b (by omega) (by omega)), List.replicate_succ]

theorem bun_line (l : Nat) : lineValue withBundle l = mread bunMem (128 * l) 128 := by
  rw [Nat.mul_comm]; rfl

theorem mget_between {t : Tab Byte} (x y : List Byte) (a c b : Nat) (h : t = mwrite (mwrite [] a x) c y) (h1 : a + x.length ≤ b)
    (h2 : b < c) : mget t b = 0 := by
  rw [h, mget_mwrite_outside _ _ _ _ (Or.inl h2), mget_mwrite_outside _ _ _ _ (Or.inr h1), mget, tget]

theorem bunMem_eq : bunMem = mwrite (mwrite [] bunBase bunHead) bunTop (bunKey ++ bunSig) := by unfold bunMem; rfl

theorem bun_zero {b : Nat} (h1 : bunBase + 128 ≤ b) (h2 : b < bunTop) : mget bunMem b = 0 :=
  mget_between bunHead (bunKey ++ bunSig) bunBase bunTop b bunMem_eq (by
    rw [show bunHead.length = 128 from by decide +kernel]; exact h1) h2

theorem bun_step {fuel c n : Nat} (h1 : 4194306 ≤ c) (h2 : c < 4194306 + 512) (hn : 128 ≤ n) :
    valueFrom withBundle (fuel + 1) (128 * c) n
      = mread bunMem (128 * c) 128 ++ valueFrom withBundle fuel (128 * (c + 1)) (n - 128) := by
  have e1 : 128 * c % 128 = 0 := by omega
  have e2 : min n (128 - 0) = 128 := by omega
  have e3 : lineOf (128 * c) = c := by simp [lineOf]
  have e4 : (mread bunMem (128 * c) 128).length = 128 := by simp [mread]
  have e5 : n ≠ 0 := by omega
  simp only [valueFrom, e1, e2, e3, e5, if_false, bun_reachable (a := 128 * c) (by omega) (by omega), if_true, bun_line, List.drop_zero,
    List.take_of_length_le (Nat.le_of_eq e4), Nat.mul_add, Nat.mul_one]

theorem bun_zeros : ∀ (k fuel c : Nat), 4194307 ≤ c → c + k ≤ 4194306 + 512 →
    valueFrom withBundle (k + fuel) (128 * c) (128 * k) = List.replicate (128 * k) 0
  | 0, fuel, c, _, _ => by cases fuel <;> rfl
  | k + 1, fuel, c, h1, h2 => by
    rw [Nat.add_right_comm, bun_step (by omega) (by omega) (by omega), show 128 * (k + 1) - 128 = 128 * k by omega,
      bun_zeros k fuel (c + 1) (by omega) (by omega),
      mread_zeros _ _ _ (fun b hb1 hb2 => bun_zero (by unfold bunBase; omega) (by unfold bunTop; omega)),
      List.replicate_append_replicate, Nat.add_comm 128, ← Nat.mul_succ]

theorem bun_head : mread bunMem (128 * 4194306) 128 = bunHead := by decide +kernel

theorem bun_read (k : Nat) (h : k ≤ 511) : homeRead withBundle bunBase (128 * (k + 1)) = bunHead ++ List.replicate (128 * k) 0 := by
  have e : 128 * (k + 1) / 128 + 2 = k + 2 + 1 := by omega
  have hb : bunBase = 128 * 4194306 := by decide +kernel
  rw [homeRead, devValue, hb, e, bun_step (by omega) (by omega) (by omega), bun_head, show 128 * (k + 1) - 128 = 128 * k by omega,
    bun_zeros k 2 _ (by omega) (by omega)]

theorem bun_trailer : homeRead withBundle bunTop 128 = bunKey ++ bunSig := by decide +kernel

theorem bun_header_zero : headerZero (bunHead ++ List.replicate (128 * 31) 0) 1 = true := by
  have z : ∀ n, allZero (List.replicate n 0) = true := fun n => by simp [allZero]
  have e1 : ((bunHead ++ List.replicate (128 * 31) (0 : Byte)).drop 576).take 3520 = List.replicate 3520 0 := by
    rw [List.drop_append, List.drop_of_length_le (by decide +kernel), List.nil_append, List.drop_replicate, List.take_replicate]
    exact congrArg (List.replicate · 0) (by decide +kernel)
  unfold headerZero
  rw [e1, z]
  decide +kernel

/-- A load of that image: with no active bundle its replication starts, else it is staged. -/
def verifying (act : Option Bundle) : State :=
  { withBundle with serving := { withBundle.serving with load := some bunLoad, active := act } }

theorem verifying_reads (a n : Nat) (act : Option Bundle) : homeRead (verifying act) a n = homeRead withBundle a n := by
  have h : ∀ f a n, valueFrom (verifying act) f a n = valueFrom withBundle f a n := by
    intro f
    induction f with
    | zero => intros; rfl
    | succ f ih => intro a n; simp only [valueFrom, ih]; rfl
  exact h _ a n

theorem bundle_verified (act : Option Bundle) (h : weightsFit (verifying act) 0 1 = true) :
    (verifyBundle (verifying act) bunLoad).isSome = true := by
  have b : bunLoad.dpa = bunBase := rfl
  have n : bunLoad.bytes = 65664 := rfl
  have eh : homeRead withBundle bunBase 4096 = bunHead ++ List.replicate (128 * 31) 0 := bun_read 31 (by omega)
  have eb : homeRead withBundle bunBase 65536 = bunBody := bun_read 511 (by omega)
  have ek : field (bunHead ++ List.replicate (128 * 31) (0 : Byte)) 6 1 = 1 := by decide +kernel
  have ew : field (bunHead ++ List.replicate (128 * 31) (0 : Byte)) 16 8 = 0 := by decide +kernel
  have es : sha256 bunKey = bundleKeyHash withBundle := by decide +kernel
  have ev : bundleKeyHash (verifying act) = bundleKeyHash withBundle := rfl
  have er : bunLoad.repl = 1 := rfl
  have t1 : (bunKey ++ bunSig).take 64 = bunKey := by decide +kernel
  have t2 : (bunKey ++ bunSig).drop 64 = bunSig := by decide +kernel
  unfold verifyBundle netEntry
  simp only [b, n, verifying_reads, eh, show bunBase + 65664 - 128 = bunTop from rfl, show 65664 - 128 = 65536 from rfl, bun_trailer, ek,
    eb, ew, er, h, ev, bundle_digest, bun_header_zero, es, t1, t2, bundle_signed]
  decide +kernel

/-! ### Serving mode (O22 to O26) -/

/-- A network without history, and a bundle of it that is active on both halves. -/
def net0 : Network := { kind := 1, maxTokens := 100 }
def bun0 : Bundle := { handle := 4, dpa := bunBase, bytes := 0, repl := 8, nets := [net0], digest := sha256 [] }
def serving : State := { ready with serving := { mode := 1, active := some bun0, halfA := some bun0, halfB := some bun0, nextHandle := 5 } }
def bun1 : Bundle := { bun0 with handle := 5, repl := 1 }

def loadReq : List Byte := fields 24 [(0, 8, 0x20000000), (8, 8, 65664), (16, 1, 2)]
def staged : State := { serving with serving := { serving.serving with staged := some bun1 } }
def swapReq : List Byte := fields 8 [(0, 4, 5), (4, 4, 9)]
/-- A load of an image of no bytes, which is replicating or not. -/
def loadingNow (b : Option Bundle) : State :=
  { ready with serving := { mode := 1, load := some { bunLoad with bytes := 0, replicating := b } } }
def swapping (st : SwapStage) (w : Bool) : State :=
  { staged with serving := { staged.serving with swap := some { op := bunLoad.op, bundle := bun1, drainMs := 9, stage := st, written := w } } }

theorem w_bundle : serving.power.deep = false ∧ served serving 0x0201 loadReq = true ∧ bundleBusy (ask serving 0x0201 loadReq) = none
    ∧ answeredAs (run (.bundleLoad (.mbx 0)) (ask serving 0x0201 loadReq)) stAccepted = true
    ∧ ((run (.bundleLoad (.mbx 0)) (ask serving 0x0201 loadReq)).serving.load.map (·.handle)) = some 5
    ∧ served staged 0x0202 swapReq = true ∧ bundleBusy (ask staged 0x0202 swapReq) = none ∧ bun1.handle = field swapReq 0 4
    ∧ ((run (.bundleSwap (.mbx 0)) (ask staged 0x0202 swapReq)).serving.swap.map (·.drainMs)) = some 9
    ∧ pcfUp (loadingNow none) = true ∧ (verifyBundle (loadingNow none) { bunLoad with bytes := 0 }).isNone = true
    ∧ (run .bundleLoadVerifyComplete (loadingNow none)).serving.load = none
    ∧ digestHolds (loadingNow none) bun1 = true
    ∧ (run .bundleReplicationComplete (loadingNow (some bun1))).serving.active = some bun1
    ∧ digestHolds (loadingNow none) { bun1 with digest := [] } = false
    ∧ (run .bundleReplicationComplete (loadingNow (some { bun1 with digest := [] }))).serving.active = none := by decide +kernel

theorem w_bundle_verified : (∃ b, verifyBundle (verifying none) bunLoad = some b) ∧ (verifying none).live ∧ pcfUp (verifying none) = true
    ∧ (verifying none).serving.load = some bunLoad ∧ (verifying none).serving.active = none ∧ bunLoad.replicating = none
    ∧ (∃ b, verifyBundle (verifying (some bun0)) bunLoad = some b) ∧ (verifying (some bun0)).serving.active ≠ none := by
  refine ⟨?_, rfl, rfl, rfl, rfl, rfl, ?_, by decide +kernel⟩
  all_goals exact Option.isSome_iff_exists.mp (bundle_verified _ (by decide +kernel))

theorem w_swap : pcfUp (swapping .drainA false) = true ∧ loadStage .drainA ≠ .drainA
    ∧ drainCount (swapping .drainA false) bun0 (draining (swapping .drainA false)) = []
    ∧ ((run .swapDrainEnd (swapping .drainA false)).serving.swap.map (·.stage)) = some .loadA
    ∧ ((run .swapDrainExpiry (swapping .drainA false)).serving.swap.map (·.expired)) = some true
    ∧ (run .swapHalfReplicated (swapping .loadA true)).serving.halfA = some bun1
    ∧ (run .swapHalfReplicated (swapping .loadA true)).serving.halfB = some bun0
    ∧ ((run .swapHalfReplicated (swapping .loadA true)).serving.swap.map (·.stage)) = some .drainB
    ∧ (run .swapHalfReplicated (swapping .loadB false)).serving.active = some bun1
    ∧ (run .swapHalfReplicated (swapping .loadB false)).serving.swap = none := by decide +kernel

/-- Swaps while a step is in flight, of a bundle of factor 1 or 8, and with no active bundle. -/
def stepBusy (s : State) : State :=
  { s with serving := { s.serving with step := some { epoch := 1, start := 100, entries := [{ session := 1, gen := 0, decode := false, tokens := [] }] } } }
def swapStage (s : State) : Option SwapStage := (run (.bundleSwap (.mbx 0)) (ask s 0x0202 swapReq)).serving.swap.map (·.stage)
def noActive : State := { staged with serving := { staged.serving with active := none } }
def allOnce : State := { staged with serving := { staged.serving with active := some bun1 } }
/-- A swap whose new bundle's digest does not hold. -/
def badSwap : State :=
  { staged with serving := { staged.serving with swap := some { op := bunLoad.op, bundle := { bun1 with digest := [] }, drainMs := 9, stage := .loadA } } }

theorem w_swap_begins : swapStage staged = some .drainA ∧ swapStage allOnce = some .drainAll
    ∧ served (stepBusy staged) 0x0202 swapReq = true ∧ bundleBusy (ask (stepBusy staged) 0x0202 swapReq) = none
    ∧ swapStage (stepBusy staged) = some .accepted
    ∧ served noActive 0x0202 swapReq = true ∧ noActive.power.deep = false ∧ noActive.serving.mode = 1
    ∧ answeredAs (run (.bundleSwap (.mbx 0)) (ask noActive 0x0202 swapReq)) stWrongState = true
    ∧ (run .bundleReplicationComplete (swapping .loadA false)).serving.swap.map (·.written) = some true
    ∧ digestHolds (swapping .loadA false) bun1 = true
    ∧ digestHolds badSwap { bun1 with digest := [] } = false
    ∧ (run .bundleReplicationComplete badSwap).serving.swap = none ∧ (run .bundleReplicationComplete badSwap).serving.halfA = some bun0
    ∧ (run .swapHalfReplicated (swapping .loadA true)).serving.transient = true
    ∧ (run .swapHalfReplicated (swapping .loadAll true)).serving.active = some bun1
    ∧ ((swapping .loadA true).serving.swap.map halfLoaded) = some true
    ∧ (run .swapHalfReplicated (stepBusy (swapping .loadA true))).serving.swap.map (·.loaded) = some true
    ∧ (run .swapHalfReplicated (stepBusy (swapping .loadA true))).serving.halfA = some bun0 := by decide +kernel

def createReq : List Byte := fields 16 [(2, 1, 3), (4, 4, 100), (8, 8, 77)]
/-- Session 7 of the PF on die 0, bound to the active bundle. -/
def inService : Session := { state := .active, net := net0, maxTokens := 100, bundle := 4, bundleDigest := sha256 [], gen := 6 }
def servingOne (x : Session) : State := setSession serving 7 x
def endReq : List Byte := fields 8 [(0, 4, 7)]
def reserved : Session := { inService with resv := .opened }

theorem w_session_create : served serving 0x0301 createReq = true ∧ serving.twin.state ≠ 7
    ∧ admitBundle (ask serving 0x0301 createReq) = some bun0
    ∧ (placeHome (ask serving 0x0301 createReq) 0 3).toOption = some 3 ∧ freeNumber (ask serving 0x0301 createReq) = some 0
    ∧ (ownSessions (ask serving 0x0301 createReq) 0).length < sessionQuota (ask serving 0x0301 createReq) 0
    ∧ networkFits (ask serving 0x0301 createReq) net0 = true
    ∧ serving.serving.admq.length < setting serving idAdmqDepth
    ∧ (session (run (.sessionCreate (.mbx 0)) (ask serving 0x0301 createReq)) 0).home = 3
    ∧ (session (run (.sessionCreate (.mbx 0)) (ask serving 0x0301 createReq)) 0).userTag = 77
    ∧ served (servingOne reserved) 0x0302 endReq = true ∧ (ownedSession (servingOne reserved) 0 7).toOption = some reserved
    ∧ (session (run (.sessionEnd (.mbx 0)) (ask (servingOne reserved) 0x0302 endReq)) 7).state = .ending
    ∧ served (servingOne inService) 0x0302 endReq = true ∧ isMirrored inService = false
    ∧ (session (run (.sessionEnd (.mbx 0)) (ask (servingOne inService) 0x0302 endReq)) 7) = { gen := 6 } := by decide +kernel

/-- Sessions that SESSION_END treats otherwise, and packages that take no session. -/
def shadowed : Session := { inService with state := .shadow }
def frozenOne : Session := { inService with state := .frozen }
def fillingRows : Session := { inService with resv := .filling { cls := 0, stack := 0, f := 0, d := 1, queue := 3, index := 0 } }
def waitingFill : Session := { fillingRows with state := .waitPage }
def endOf (x : Session) (m : Nat) : Session :=
  session (run (.sessionEnd (.mbx 0)) (ask (servingOne x) 0x0302 (fields 8 [(0, 4, 7), (4, 1, m)]))) 7
def refusesEnd (x : Session) (st : Nat) : Bool := answeredAs (run (.sessionEnd (.mbx 0)) (ask (servingOne x) 0x0302 endReq)) st
def createAt (s : State) : State := run (.sessionCreate (.mbx 0)) (ask s 0x0301 createReq)
def noHome : State := { serving with dies := tput serving.dies 3 .quarantined }
def twin7 : State := { serving with twin := { serving.twin with state := 7 } }

theorem w_session_refused : (endOf fillingRows 0).state = .ending ∧ endOf fillingRows 1 = { gen := 6 } ∧ endOf waitingFill 0 = { gen := 6 }
    ∧ endOf { inService with resv := .pending { cls := 0, stack := 0, f := 0, d := 1, queue := 3, index := 0 } } 0 = { gen := 6 } ∧ endOf reserved 1 = { gen := 6 }
    ∧ refusesEnd shadowed stWrongState = true ∧ refusesEnd frozenOne stWrongState = true
    ∧ (ownedSession (servingOne shadowed) 0 7).toOption = some shadowed ∧ (ownedSession (servingOne frozenOne) 0 7).toOption = some frozenOne
    ∧ served serving 0x0302 endReq = true ∧ (ownedSession serving 0 7).toOption = none
    ∧ answeredAs (run (.sessionEnd (.mbx 0)) (ask serving 0x0302 endReq)) stNotFound = true
    ∧ served ready 0x0301 createReq = true ∧ ready.serving.mode ≠ 1 ∧ answeredAs (createAt ready) stWrongState = true
    ∧ served twin7 0x0301 createReq = true ∧ twin7.twin.state = 7 ∧ answeredAs (createAt twin7) stWrongState = true
    ∧ served noHome 0x0301 createReq = true ∧ admitBundle noHome = some bun0 ∧ (placeHome (ask noHome 0x0301 createReq) 0 3).toOption = none
    ∧ answeredAs (createAt noHome) stWrongState = true := by decide +kernel

/-- A TURN of session 7 whose prompt of three tokens lies at 0x20000100. -/
def turnCmd : List Byte :=
  fields 64 [(0, 1, 0x30), (8, 4, 7), (12, 4, 3), (16, 8, direct 0x20000100), (24, 8, direct 0x20001000), (32, 4, 50)]
def turning : State :=
  { withCmd (servingOne inService) 3 2 0 turnCmd with mem := mwrite [] 0x20000100 (leBytes 4 11 ++ leBytes 4 12 ++ leBytes 4 13) }
def turningFull : State := { turning with serving := { turning.serving with admq := [1] }, settings := { run := [(idAdmqDepth, 1)] } }

def decoder : Session := { inService with net := { net0 with kind := 0, vocab := 13 } }
def turnAs (s : State) : State := { turning with sess := s.sess, serving := s.serving }
/-- How the started TURN ends in a state: the status of its error record. -/
def turnEnds (s : State) (st d : Nat) : Bool := match cmdStage (run (.turn 3 0) s) 3 0 with
  | some (.ended r) => r.status == st && r.detail == d
  | _ => false
def turnBad : State := withCmd (servingOne inService) 3 2 0 (fields 64 [(0, 1, 0x30), (8, 4, 7)])
def turnFrozen : State :=
  { turning with tenants := tput turning.tenants 0 { tenant turning 0 with state := .freezing } }
def turnPoisoned : State :=
  { turning with stackPoison := [0x20000100 / 32] }
def openTurn : Turn := { queue := 3, index := 0, prompt := [11], outVA := 0, outMax := 50, progressVA := 0, asid := 5 }
/-- What the readable prompt and writable output of a started TURN are. -/
def turnReaches (s : State) : Bool := match (s.eng.queues.lookup 3).bind (·.cmds.head?) with
  | some c => match readBuf s (queue s 3) c 16 (field c.bytes 16 8) (4 * field c.bytes 12 4) with
    | (s1, .ok bs) => (turnOutFault s1 (queue s 3) c).isNone && bs == leBytes 4 11 ++ leBytes 4 12 ++ leBytes 4 13
    | _ => false
  | none => false

theorem w_turn : (startedCmd turning 3 0 0x30).isSome = true
    ∧ (startedCmd turning 3 0 0x30).all (fun c => (turnRange c).isNone) = true ∧ turning.serving.mode = 1
    ∧ ownSession turning 0 7 = true ∧ (session turning 7).state ≠ .shadow ∧ (session turning 7).turn = none
    ∧ turnReaches turning = true ∧ turnReaches turnFrozen = true ∧ turning.serving.admq.length < setting turning idAdmqDepth
    ∧ (tenant turning 0).state ≠ .freezing
    ∧ (session (run (.turn 3 0) turning) 7).turn.map (·.prompt) = some [11, 12, 13]
    ∧ (run (.turn 3 0) turning).serving.admq = [7] ∧ cmdStage (run (.turn 3 0) turning) 3 0 = some .running
    ∧ (tenant turnFrozen 0).state = .freezing ∧ (run (.turn 3 0) turnFrozen).serving.admq = []
    ∧ (tenant (run (.turn 3 0) turnFrozen) 0).heldTurns = [7]
    ∧ setting turningFull idAdmqDepth ≤ turningFull.serving.admq.length
    ∧ (match cmdStage (run (.turn 3 0) turningFull) 3 0 with | some (.ended r) => r.status == stOverloaded | _ => false) = true
    ∧ (run (.turn 3 0) turningFull).serving.cnt.turnsOverloaded = 1 := by decide +kernel

theorem w_turn_refused : turnReaches (turnAs (servingOne decoder)) = true ∧ turnEnds (turnAs (servingOne decoder)) stBadRequest 16 = true
    ∧ (startedCmd turnBad 3 0 0x30).any (fun c => (turnRange c).isSome) = true
    ∧ (match cmdStage (run (.turn 3 0) turnBad) 3 0 with | some (.ended r) => r.status == stBadRequest | _ => false) = true
    ∧ turnEnds (turnAs (setSession ready 7 inService)) stWrongState 0 = true
    ∧ ownSession (turnAs serving) 0 7 = false ∧ turnEnds (turnAs serving) stNotFound 0 = true
    ∧ turnEnds (turnAs (servingOne shadowed)) stWrongState (sessCode .shadow) = true
    ∧ turnEnds (turnAs (servingOne { inService with turn := some openTurn })) stBusy 0 = true
    ∧ turnEnds (turnAs (servingOne { inService with maxTokens := 3 })) stBadRequest 12 = true
    ∧ turnEnds turnPoisoned stPoisoned 0 = true := by decide +kernel

/-- No session, a step in flight of 50 ticks, a rolling change staged everywhere; and session 7 with an admitted turn. -/
def bounding (staged : BitVec 8) : State :=
  { serving with hubTime := 150, serving := { serving.serving with step := some { epoch := 1, start := 100, entries := [] } },
                 settings := { epoch := { issuing := 1, target := 2, phase := 1, part := 0xFF, staged := staged,
                                          staging := [(idStepTokens, 600)] } } }
/-- A tunable that waits for the boundary. -/
def waitingDue : State := { bounding 0x7F with settings := { (bounding 0x7F).settings with due := [(idAdmqDepth, 77)] } }
def oneTurn : Turn := { queue := 3, index := 0, prompt := [11, 12, 13], outVA := 0, outMax := 50, progressVA := 0, asid := 5 }
def forming : State :=
  { servingOne { inService with turn := some oneTurn } with
    serving := { serving.serving with admq := [7] }, settings := { run := [(idPrefillChunk, 2)] } }
def formed : State := run .stepBoundary forming

theorem w_boundary : (bounding 0xFF).sess.table = [] ∧ (bounding 0xFF).twin.state ≠ 7 ∧ pcfUp (bounding 0xFF) = true
    ∧ allStaged (bounding 0xFF).settings.epoch = true ∧ allStaged (bounding 0x7F).settings.epoch = false
    ∧ (run .stepBoundary (bounding 0xFF)).settings.epoch.issuing = 2 ∧ setting (run .stepBoundary (bounding 0xFF)) idStepTokens = 600
    ∧ (run .stepBoundary (bounding 0x7F)).settings = (bounding 0x7F).settings
    ∧ (run .stepBoundary (bounding 0x7F)).serving.stepUsLast = 2 ∧ (run .stepBoundary (bounding 0x7F)).serving.cnt.steps = 1
    ∧ (bounding 0xFF).start.phase = .ready ∧ (bounding 0xFF).serving.retire = [] ∧ (bounding 0xFF).power.deep = false
    ∧ setting (run .stepBoundary waitingDue) idAdmqDepth = 77 ∧ (run .stepBoundary waitingDue).settings.due = []
    ∧ ready.serving.mode ≠ 1 ∧ run .stepBoundary ready = ready := by
  decide +kernel

theorem w_form : dieInService forming 0 = true ∧ mayStep forming (session forming 7) = true ∧ rowRoom forming 0 0 0 = true
    ∧ (session forming 7).resv = .none ∧ forming.settings.epoch.phase = 0 ∧ 0 < setting forming idPrefillChunk
    ∧ setting forming idPrefillChunk ≤ setting forming idStepTokens ∧ forming.twin.state ≠ 7
    ∧ (formed.serving.step.map (·.entries)) = some [{ session := 7, gen := 7, decode := false, tokens := [11, 12] }]
    ∧ formed.serving.prefill = [7] ∧ (session formed 7).f = 2 := by decide +kernel

/-! ### Settings and epochs (O26, O27) -/

def setReq (id v : Nat) : List Byte := fields 24 [(0, 2, 1), (8, 2, id), (16, 8, v)]
def setting1 (id v : Nat) : State := ask serving 0x0402 (setReq id v)
def rAdmq : Req := req 0x0402 (setReq idPlaceSpill 1)
def rStep : Req := req 0x0402 (setReq idStepTokens 600)

/-- The answer to a SETTING_SET and the state after it. -/
def setAs (id v : Nat) : State := run (.settingSet (.mbx 0) false false false) (setting1 id v)
def setWith (s : State) (id v : Nat) : State := run (.settingSet (.mbx 0) false false false) (ask s 0x0402 (setReq id v))
/-- A setting that may be written no more. -/
def fixedSpill : State := { ready with settings := { written := [idPlaceSpill] } }
def rOut : Req := req 0x0402 (setReq idStepTokens 0)

theorem w_setting : served serving 0x0402 (setReq idPlaceSpill 1) = true
    ∧ entryFault (setting1 idPlaceSpill 1) rAdmq 0 = none ∧ entryDenied (setting1 idPlaceSpill 1) idPlaceSpill = none
    ∧ isImmediate idPlaceSpill = true ∧ isRolling idPlaceSpill = false ∧ boundaryTunable idPlaceSpill = true
    ∧ setBusy (setting1 idPlaceSpill 1) [(idPlaceSpill, 1)] false = none
    ∧ (setAs idPlaceSpill 1).settings.due = [(idPlaceSpill, 1)] ∧ setting (setAs idPlaceSpill 1) idPlaceSpill = setting serving idPlaceSpill
    ∧ served ready 0x0402 (setReq idPlaceSpill 1) = true ∧ setting (setWith ready idPlaceSpill 1) idPlaceSpill = 1
    ∧ served serving 0x0402 (setReq idStepTokens 600) = true ∧ isRolling idStepTokens = true ∧ isImmediate idStepTokens = false
    ∧ entryFault (setting1 idStepTokens 600) rStep 0 = none ∧ entryDenied (setting1 idStepTokens 600) idStepTokens = none
    ∧ setBusy (setting1 idStepTokens 600) [(idStepTokens, 600)] false = none
    ∧ answeredAs (setAs idStepTokens 600) stTransition = true ∧ (setAs idStepTokens 600).settings.epoch.phase = 1 := by decide +kernel

theorem w_setting_refused : served serving 0x0402 (setReq idStepTokens 0) = true ∧ (entryFault (setting1 idStepTokens 0) rOut 0).isSome = true
    ∧ answeredAs (setAs idStepTokens 0) stBadRequest = true
    ∧ served fixedSpill 0x0402 (setReq idPlaceSpill 1) = true ∧ entryFault fixedSpill rAdmq 0 = none
    ∧ (entryDenied fixedSpill idPlaceSpill).isSome = true ∧ setBusy fixedSpill [(idPlaceSpill, 1)] false = none
    ∧ answeredAs (setWith fixedSpill idPlaceSpill 1) stDenied = true := by decide +kernel

/-- A superseded user layer's block is being erased. -/
def erasing : State := { ready with flash := { bytes := [(0x30001, 5), (0x40000, 6)], erasing := some 0x30000 } }

theorem w_user_erase : erasing.flash.erasing = some 0x30000 ∧ erasing.power.shutdown = false
    ∧ (run .userLayerEraseComplete erasing).flash.bytes = [(0x40000, 6)] := by decide +kernel

/-- Dies 0 to 2 take part, and the lower ones have staged. -/
def epochAt (m : Nat) (st : BitVec 8) : State :=
  { ready with serving := { mode := m },
               settings := { epoch := { issuing := 1, target := 2, phase := 1, part := 7, staged := st, staging := [(idStepTokens, 600)] } } }
def retiring (r : BitVec 9) : State := { ready with settings := { epoch := { issuing := 2, phase := 2, part := 7, retiring := r } } }

theorem w_epoch : (epochAt 1 1).settings.epoch.part.getLsbD 1 = true ∧ (epochAt 1 1).settings.epoch.staged.getLsbD 1 = false
    ∧ (run .epochDieStaged (epochAt 1 1)).settings.epoch.staged = 3 ∧ (run .epochDieStaged (epochAt 2 3)).settings.epoch.phase = 2
    ∧ setting (run .epochDieStaged (epochAt 2 3)) idStepTokens = 600 ∧ (run .epochDieStaged (epochAt 1 3)).settings.epoch.phase = 1
    ∧ liveOn (retiring 6) 1 2 = false ∧ (run (.epochRetire 2) (retiring 6)).settings.epoch.retiring = 2
    ∧ (run (.epochRetire 1) (retiring 2)).settings.epoch.phase = 0 := by decide +kernel

/-! ### PCF's queries, rings, windows and queues (O28 to O30) -/

def bigReady : State :=
  { serving with eng := { queues := [(20, { state := .opened, slot := 20, engine := 3, head := 6, errors := 2, epoch := 1 })] },
                 pcie := { fns := [(0, { memSpace := true }), (2, { memSpace := true })], numVFs := 2, vfEnable := true } }
def askMbx (op : Nat) (p : List Byte) : State := ask (setSession bigReady 7 { inService with c := 33 }) op p
def replyOf (s : State) : List Byte := match answered s with
  | some a => a.payload
  | none => []
def servesIt (op : Nat) (p : List Byte) : Bool := servesB (askMbx op p) (.mbx 0) op (req op p)
/-- A query is served, answered OK, and its answer holds a field. -/
def reports (op : Nat) (p : List Byte) (c : Issuer → State → Host.Outcome State Fault Refusal) (off size v : Nat) : Bool :=
  servesIt op p && answeredAs (nx (c (.mbx 0) (askMbx op p))) stOk && field (replyOf (nx (c (.mbx 0) (askMbx op p)))) off size == v
def refusesIt (op : Nat) (p : List Byte) (c : Issuer → State → Host.Outcome State Fault Refusal) : Bool :=
  servesIt op p && answeredAs (nx (c (.mbx 0) (askMbx op p))) stNotFound

theorem w_discover : reports 0x0001 [] execDiscover 28 2 0x0304 = true ∧ reports 0x0002 [] execCapsQuery 52 4 1 = true
    ∧ reports 0x0103 (fields 4 [(0, 2, 20)]) execQueueQuery 4 4 6 = true ∧ slotQueue bigReady 0 20 = some 20
    ∧ reports 0x0103 (fields 4 [(0, 2, 21)]) execQueueQuery 0 1 0 = true ∧ slotQueue bigReady 0 21 = none
    ∧ refusesIt 0x0103 (fields 4 [(0, 2, 1024)]) execQueueQuery = true ∧ slotQueue bigReady 0 1024 = none
    ∧ reports 0x0203 [] execBundleQuery 0 4 4 = true ∧ bigReady.serving.active = some bun0
    ∧ reports 0x0303 (fields 16 [(0, 4, 7)]) execSessionQuery 4 4 33 = true
    ∧ (ownedSession (askMbx 0x0303 (fields 16 [(0, 4, 7)])) 0 7).toOption = some { inService with c := 33 }
    ∧ reports 0x0401 (fields 4 [(0, 2, idStepTokens)]) execSettingGet 8 8 (setting bigReady idStepTokens) = true
    ∧ (settingDef idStepTokens).isSome = true
    ∧ reports 0x0403 [] execEpochQuery 0 4 1 = true := by decide +kernel

/-- Queries of objects that do not exist. -/
def asks (s : State) (op : Nat) (p : List Byte) (c : Issuer → State → Host.Outcome State Fault Refusal) (st : Nat) : Bool :=
  served s op p && answeredAs (nx (c (.mbx 0) (ask s op p))) st

/-- A SETTING_GET of an identifier that no chapter defines. -/
def noSetting : State := ask serving 0x0401 (fields 4 [(0, 2, 0x0FFF)])
def noSettingReq : Req := req 0x0401 (fields 4 [(0, 2, 0x0FFF)])

theorem w_discover_refused : asks kernel 0x0203 [] execBundleQuery stWrongState = true ∧ kernel.serving.mode ≠ 1
    ∧ asks { serving with serving := { mode := 1 } } 0x0203 [] execBundleQuery stOk = true
    ∧ asks serving 0x0303 (fields 16 [(0, 4, 0xFFFFFFFF), (8, 8, 9)]) execSessionQuery stNotFound = true ∧ taggedSession serving 0 9 = none
    ∧ taggedSession (servingOne { inService with userTag := 9 }) 0 9 = some 7
    ∧ asks (servingOne { inService with userTag := 9 }) 0x0303 (fields 16 [(0, 4, 0xFFFFFFFF), (8, 8, 9)]) execSessionQuery stOk = true
    ∧ pcfUp noSetting = true ∧ curReq noSetting 0 = some noSettingReq ∧ heldByFreeze noSetting noSettingReq = false
    ∧ firstChecks noSetting noSettingReq = none ∧ settingDef 0x0FFF = none
    ∧ answeredAs (run (.settingGet (.mbx 0)) noSetting) stBadRequest = true := by decide +kernel

theorem w_queries : reports 0x0503 (fields 4 [(0, 1, 2)]) execTenantQuery 0 1 0 = true ∧ fnEnabled bigReady 2 = true
    ∧ refusesIt 0x0503 (fields 4 [(0, 1, 9)]) execTenantQuery = true ∧ fnEnabled bigReady 9 = false
    ∧ reports 0x0602 (fields 4 [(0, 1, 0), (1, 1, 3)]) execLinkQuery 3 1 0 = true
    ∧ reports 0x0603 (fields 16 [(0, 1, 4)]) execTwinQuery 0 1 0 = true
    ∧ reports 0x0702 (fields 8 [(4, 2, 3)]) execErrRead 4 2 0 = true
    ∧ reports 0x0802 [] execPowerQuery 10 2 0 = true := by decide +kernel

def ringReq (n : Nat) : List Byte := fields 16 [(0, 8, 0x5000), (8, 4, n)]
def accessReq (act b : Nat) : List Byte := fields 4 [(0, 1, act), (1, 1, b)]
/-- Memory mode, the window of block 3 open. -/
def memMode : State := { ready with windows := 8 }
def quarant : State := { kernel with dies := tput kernel.dies 2 .quarantined }

theorem w_rings : served ready 0x0003 (ringReq 64) = true ∧ ((run (.eventRingSet (.mbx 0)) (ask ready 0x0003 (ringReq 64))).rings.map (·.1)) = [0]
    ∧ served ready 0x0003 (ringReq 0) = true ∧ (run (.eventRingSet (.mbx 0)) (ask ready 0x0003 (ringReq 0))).rings = []
    ∧ memMode.serving.mode = 0 ∧ served memMode 0x0701 (accessReq 1 0) = true
    ∧ (run (.blockAccessOpen (.mbx 0)) (ask memMode 0x0701 (accessReq 1 0))).windows = 9
    ∧ served quarant 0x0701 (accessReq 1 3) = true ∧ dieCond quarant 2 = .quarantined
    ∧ (run (.blockAccessOpen (.mbx 0)) (ask quarant 0x0701 (accessReq 1 3))).windows = 8
    ∧ served kernel 0x0701 (accessReq 1 0) = true
    ∧ answeredAs (run (.blockAccessOpen (.mbx 0)) (ask kernel 0x0701 (accessReq 1 0))) stWrongState = true
    ∧ served memMode 0x0701 (accessReq 0 3) = true
    ∧ (run (.blockAccessClose (.mbx 0)) (ask memMode 0x0701 (accessReq 0 3))).windows = 0 := by decide +kernel

def openReq : List Byte :=
  fields 32 [(0, 1, 3), (1, 1, 0xFF), (2, 2, 16), (4, 4, 64), (8, 8, direct 0x20000000), (16, 8, direct 0x20002000), (24, 2, 5), (26, 1, 2)]
def opening : State := ask kernel 0x0101 openReq
def closeReq : List Byte := fields 4 [(0, 2, 3)]
def closable (x : Queue) : State := setQueue kernel 3 { x with state := .opened, slot := 3, engine := 3 }
def busyQ : Queue := { head := 2, tail := 3, cmds := [{ index := 1, bytes := [], epoch := 1, gen := 0, stage := .fetched }] }
def drainedQ : State := setQueue kernel 3 { state := .closing, head := 2, tail := 2, closeOp := some bunLoad.op }

theorem w_queues : served kernel 0x0101 openReq = true
    ∧ (pinPages (readRoot opening 5) 5 (direct 0x20000000) 4096 false).isSome = true
    ∧ (pinPages (readRoot opening 5) 5 (direct 0x20002000) (64 + 2048) true).isSome = true
    ∧ (readRoot opening 5).eng.queues = [] ∧ 0 < queueQuota (readRoot opening 5) 0
    ∧ (queue (run (.queueOpen (.mbx 0) 20 0 0) opening) 20).entries = 64
    ∧ (queue (run (.queueOpen (.mbx 0) 20 0 0) opening) 20).priority = 2
    ∧ field (replyOf (run (.queueOpen (.mbx 0) 20 0 0) opening)) 2 2 = 20
    ∧ served (closable {}) 0x0102 closeReq = true ∧ slotQueue (closable {}) 0 3 = some 3 ∧ (queue (closable {}) 3).closeOp = none
    ∧ (queue (closable {}) 3).held = false ∧ (queue (closable {}) 3).head = (queue (closable {}) 3).tail
    ∧ (queue (run (.queueClose (.mbx 0)) (ask (closable {}) 0x0102 closeReq)) 3).state = .closed
    ∧ served (closable busyQ) 0x0102 closeReq = true ∧ slotQueue (closable busyQ) 0 3 = some 3 ∧ (queue (closable busyQ) 3).closeOp = none
    ∧ (queue (run (.queueClose (.mbx 0)) (ask (closable busyQ) 0x0102 closeReq)) 3).state = .closing
    ∧ answeredAs (run (.queueClose (.mbx 0)) (ask (closable busyQ) 0x0102 closeReq)) stAccepted = true
    ∧ queueDrained (queue drainedQ 3) = true ∧ (queue drainedQ 3).closeOp = some bunLoad.op
    ∧ (queue (run (.queueCloseDrainComplete 3) drainedQ) 3).state = .closed := by decide +kernel

/-- Packages that open no queue, and closes that are refused. -/
def unmapped : List Byte := fields 32 [(0, 1, 3), (1, 1, 0xFF), (2, 2, 16), (4, 4, 64), (8, 8, 0x1000), (16, 8, direct 0x20002000), (24, 2, 5)]
def copyEngine : List Byte :=
  fields 32 [(0, 1, 1), (1, 1, 2), (2, 2, 16), (4, 4, 64), (8, 8, direct 0x20000000), (16, 8, direct 0x20002000), (24, 2, 5)]
def openAs (s : State) (p : List Byte) (st : Nat) : Bool := served s 0x0101 p && answeredAs (run (.queueOpen (.mbx 0) 20 0 0) (ask s 0x0101 p)) st
def noDie2 : State := { kernel with dies := tput kernel.dies 2 .quarantined }
/-- All queues are a VF's; and a VF without a tag asks for one. -/
def noQuota : State := { kernel with tenants := [(1, { cfg := { queues := 1024 } })] }
def vfReq : List Byte :=
  fields 32 [(0, 1, 3), (1, 1, 0xFF), (2, 2, 0xFFFF), (4, 4, 64), (8, 8, direct 0x20000000), (16, 8, direct 0x20002000), (24, 2, 5)]
def vfOpening : State :=
  setMbx { kernel with pcie := { fns := [(1, { memSpace := true })], numVFs := 3, vfEnable := true } } 1
    { state := .busy, seq := 1, fwReady := true, outstanding := some (1, 7), held := [{ seq := 1, hdr := hdrOf 0x0101 vfReq, payload := vfReq }] }
def closingQ : State := setQueue kernel 3 { state := .closing, slot := 3, closeOp := some bunLoad.op }
def closeAs (s : State) (st : Nat) : Bool := served s 0x0102 closeReq && answeredAs (run (.queueClose (.mbx 0)) (ask s 0x0102 closeReq)) st

theorem w_queues_refused : tagless kernel 0 = false ∧ openAs kernel openReq stOk = true
    ∧ (match pinQueue (noteRange (noteRange opening 0 5 (direct 0x20000000) 4096) 0 5 (direct 0x20002000) 2112) openReq with
        | .ok _ => true | .error _ => false) = true
    ∧ openRefusal (noteRange (noteRange opening 0 5 (direct 0x20000000) 4096) 0 5 (direct 0x20002000) 2112) 3 0 = none
    ∧ (match pinQueue (noteRange (noteRange (ask kernel 0x0101 unmapped) 0 5 0x1000 4096) 0 5 (direct 0x20002000) 2112) unmapped with
        | .error _ => true | .ok _ => false) = true
    ∧ openAs kernel unmapped stBadRequest = true ∧ openAs noDie2 copyEngine stWrongState = true
    ∧ openAs noQuota openReq stQuota = true
    ∧ tagless vfOpening 1 = true ∧ servesB vfOpening (.mbx 1) 0x0101 { who := 1, seq := 1, hdr := hdrOf 0x0101 vfReq, payload := vfReq } = true
    ∧ ((mbx (run (.queueOpen (.mbx 1) 20 0 0) vfOpening) 1).held.head?.bind (·.answer)).map (·.status) = some stQuota
    ∧ closeAs closingQ stWrongState = true ∧ slotQueue closingQ 0 3 = some 3 ∧ (queue closingQ 3).closeOp ≠ none
    ∧ closeAs kernel stNotFound = true ∧ slotQueue kernel 0 3 = none := by decide +kernel

/-! ### Queues and the Copy Engines (O31 to O35) -/

/-- Queue 20 of the PF, of 64 entries in host memory at 0x10000: 6 fetched, 4 more published. -/
def openQ : Queue :=
  { state := .opened, slot := 20, engine := 1, asid := 5, head := 6, tail := 10, done := 6, ring := [.host 0 0x10000] }
def queued (x : Queue) : State := setQueue ready 20 x

theorem all_awake (s : State) (h : s.power.dies = []) (d : Nat) : diePwr s d = .awake := by rw [diePwr, h]; rfl

/-- A VF whose doorbells are asked, and a doorbell behind a BAR2 access that waits. -/
def vfBell : State := { vfSpace with start := { ready.start with phase := .failed } }

theorem w_doorbell : memSpaceOn (queued openQ) 0 = true ∧ (tenant (queued openQ) 0).resetting = none ∧ (queued openQ).power.held = []
    ∧ doorbellQueue (queued openQ) 0 20 = some 20
    ∧ (run (.qdbTailWrite 0 20 10 0xF) (queued openQ)).eng = (queued openQ).eng
    ∧ (queue (run (.qdbTailWrite 0 20 70 0xF) (queued openQ)) 20).tail = 70
    ∧ (queue (run (.qdbTailWrite 0 20 71 0xF) (queued openQ)) 20).tail = 10
    ∧ (queue (run (.qdbTailWrite 0 20 71 0xF) (queued openQ)) 20).dbRange = true
    ∧ doorbellQueue (queued openQ) 0 21 = none ∧ (reg (run (.qdbTailWrite 0 21 1 0xF) (queued openQ)) hubErr).getLsbD 2 = true
    ∧ memSpaceOn vfBell 3 = true ∧ doorbellQueue vfBell 3 5 = none ∧ (tenant vfBell 3).resetting = none
    ∧ ((errLog (run (.qdbTailWrite 3 5 1 0xF) vfBell) 3).recs.map (·.code)) = [0x1032]
    ∧ run (.qdbTailWrite 0 20 70 0x3) (queued openQ) = bar0Size (queued openQ) 0 (doorbellAddr 0 20)
    ∧ barWaits.power.held ≠ [] ∧ (run (.qdbTailWrite 0 20 70 0xF) barWaits).power.held.length = 2 := by
  decide +kernel

def nopBytes : List Byte := fields 64 []
def inRing (x : Queue) (bs : List Byte) : State := { queued x with hostMem := mwrite [] (0x10000 + 6 * 64) bs }
def badOp : List Byte := fields 64 [(0, 1, 0x30)]
def fetchedCmd (bs : List Byte) : Cmd := { index := 6, bytes := bs, epoch := 1, gen := 0 }
def startable : State := queued { openQ with head := 7, cmds := [fetchedCmd nopBytes] }

def sigAt (va : Nat) : List Byte := fields 64 [(0, 1, 3), (8, 8, va), (16, 8, 7)]
def hwsQ : Queue := { openQ with engine := 3 }
/-- What the fetch of a command of engine 3 finds of its fields. -/
def fieldsOk (va : Nat) : Bool :=
  match translateFields (noteFields (locTouch (inRing hwsQ (sigAt va)) (.host 0 0x10180) 64) hwsQ (sigAt va) (allFields (sigAt va))) hwsQ
    (sigAt va) (allFields (sigAt va)) with
  | .ok _ => true
  | .error _ => false

theorem w_fetch : canFetch (queue (inRing openQ nopBytes) 20) = true ∧ engineUp (inRing openQ nopBytes) openQ = true
    ∧ pinnedLoc openQ.ring (openQ.head % openQ.entries * 64) = some (.host 0 0x10180) ∧ malformed 1 nopBytes = none
    ∧ (allFields nopBytes).length = 0
    ∧ locRead (inRing openQ nopBytes) (.host 0 0x10180) 64 = nopBytes
    ∧ (queue (run (.commandFetch 20) (inRing openQ nopBytes)) 20).head = 7
    ∧ ((queue (run (.commandFetch 20) (inRing openQ nopBytes)) 20).cmds.map (·.index)) = [6]
    ∧ locRead (inRing openQ badOp) (.host 0 0x10180) 64 = badOp ∧ malformed 1 badOp = some 0
    ∧ (queue (run (.commandFetch 20) (inRing openQ badOp)) 20).stopIndex = 6
    ∧ (queue (run (.commandFetch 20) (inRing openQ badOp)) 20).state = .stopped
    ∧ malformed 3 (sigAt (direct 0x20000100)) = none ∧ fieldsOk (direct 0x20000100) = true
    ∧ ((queue (run (.commandFetch 20) (inRing hwsQ (sigAt (direct 0x20000100)))) 20).cmds.map (·.xl)) = [[(8, some (.dev 0x20000100))]]
    ∧ malformed 3 (sigAt 0x1000) = none ∧ fieldsOk 0x1000 = false ∧ engineUp (inRing hwsQ (sigAt 0x1000)) hwsQ = true
    ∧ (queue (run (.commandFetch 20) (inRing hwsQ (sigAt 0x1000))) 20).state = .stopped
    ∧ (readyCmd (queue startable 20)).isSome = true ∧ arbitrate startable 1 0 = some 20 ∧ copyFull startable 1 0 = false
    ∧ genNow startable openQ nopBytes = (0, 0) ∧ readyQueues startable 1 0 = [(20, queue startable 20)]
    ∧ (queue (run (.commandStart 20 6) startable) 20).started = 7
    ∧ cmdStage (run (.commandStart 20 6) startable) 20 6 = some .started := by decide +kernel

def ended (r : CmdRes) : State :=
  queued { openQ with head := 8, cmds := [{ fetchedCmd nopBytes with stage := .ended r }, { fetchedCmd nopBytes with index := 7 }] }

/-- A started command of a stopped queue ends in an error too. -/
def endedLate : State :=
  queued { openQ with state := .stopped, stopIndex := 5, errors := 1, head := 8,
                      cmds := [{ fetchedCmd nopBytes with stage := .ended { status := stBadRequest, error := true } }] }

theorem w_complete : (findCmd (queue (ended { status := stOk }) 20) 6).isSome = true ∧ cmdFlags (fetchedCmd nopBytes) = 0
    ∧ ((queue (run (.commandComplete 20 6) (ended { status := stOk })) 20).cmds.map (·.index)) = [7]
    ∧ (queue (run (.commandComplete 20 6) (ended { status := stOk })) 20).done = 7
    ∧ (findCmd (queue (ended { status := stBadRequest, error := true }) 20) 6).isSome = true ∧ stBadRequest ≠ stPoisoned
    ∧ (queue (run (.commandComplete 20 6) (ended { status := stBadRequest, error := true })) 20).state = .stopped
    ∧ (queue (run (.commandComplete 20 6) (ended { status := stBadRequest, error := true })) 20).errors = 1
    ∧ (queue (run (.commandComplete 20 6) (ended { status := stBadRequest, error := true })) 20).stopIndex = 6
    ∧ (queue (run (.commandComplete 20 6) (ended { status := stBadRequest, error := true })) 20).cmds = []
    ∧ (queue (run (.commandComplete 20 6) endedLate) 20).stopIndex = 5 ∧ (queue (run (.commandComplete 20 6) endedLate) 20).errors = 2
    ∧ endedLate.memWaits = [] ∧ endedLate.uc.waitq = [] ∧ endedLate.uc.msgs = [] ∧ endedLate.uc.txns = [] := by decide +kernel

/-- What `Reached` asks for, as a test, with a test of what is reached. -/
def reachedB (s : State) (q i op : Nat) (range : Cmd → Option CmdRes) (f : State → Cmd → List (Nat × List (Loc × Nat)) → Bool) : Bool :=
  match startedCmd s q i op with
  | none => false
  | some c0 => (range c0).isNone && match copyStop (noteHeld s (queue s q) c0) (queue (noteHeld s (queue s q) c0) q) c0 with
    | .clear l =>
      let s0 := noteHeld s (queue s q) c0
      let s1 := keepReached s0 q (queue s0 q) c0 l
      match findCmd (queue s1 q) i with
      | some c => f s1 c l
      | none => false
    | _ => false

theorem reached_of {s : State} {q i op : Nat} {range : Cmd → Option CmdRes} {f : State → Cmd → List (Nat × List (Loc × Nat)) → Bool}
    (hl : s.live) (h : reachedB s q i op range f = true) : ∃ l s1 c, Reached s q i op range l s1 c ∧ f s1 c l = true := by
  unfold reachedB at h
  split at h
  · cases h
  · rename_i c0 hs
    simp only [Bool.and_eq_true, Option.isNone_iff_eq_none] at h
    obtain ⟨hr, h⟩ := h
    split at h
    · rename_i l hc
      split at h
      · rename_i c hf
        exact ⟨l, _, c, ⟨hl, ⟨c0, _, hs, hr, rfl, hc, rfl⟩, hf⟩, h⟩
      · cases h
    · cases h

/-- A command on host memory at 0x3000, at a stage; 8 bytes there hold 50. -/
def onHost (bs : List Byte) (st : CmdStage) : State :=
  { queued { openQ with head := 7, cmds := [{ fetchedCmd bs with stage := st, xl := [(8, some (.host 0 0x3000))] }] } with
    hostMem := mwrite [] 0x3000 (leBytes 8 50) }
def sigCmd (op v : Nat) : List Byte := fields 64 [(0, 1, 3), (4, 4, op), (8, 8, 2 ^ 48 + 0x3000), (16, 8, v)]
def waitBytes (v t : Nat) : List Byte := fields 64 [(0, 1, 2), (8, 8, 2 ^ 48 + 0x3000), (16, 8, v), (24, 4, t)]
def endedWith (s : State) (r : CmdRes) : Bool := cmdStage s 20 6 == some (.ended r)

/-- What a command on host memory reaches. -/
def atHost (op v : Nat) (range : Cmd → Option CmdRes) (bs : List Byte) : Bool :=
  reachedB (onHost bs .started) 20 6 op range fun s1 c _ => cmdLoc c 8 == some (.host 0 0x3000) && locPoison s1 (.host 0 0x3000) == none
    && leNat (locRead s1 (.host 0 0x3000) 8) == v
def free1 (_ : Cmd) : Option CmdRes := none

theorem w_common : reachedB (onHost nopBytes .started) 20 6 0 free1 (fun _ _ _ => true) = true
    ∧ endedWith (run (.nop 20 6) (onHost nopBytes .started)) { status := stOk } = true
    ∧ reachedB (onHost (fields 64 [(0, 1, 1)]) .started) 20 6 1 free1 (fun s1 _ _ => isOldest (queue s1 20) 6) = true
    ∧ endedWith (run (.fence 20 6) (onHost (fields 64 [(0, 1, 1)]) .started)) { status := stOk } = true
    ∧ atHost 3 50 free1 (sigCmd 0 7) = true ∧ (tenant (onHost (sigCmd 0 7) .started) 0).log = none
    ∧ leNat (mread (run (.signal 20 6) (onHost (sigCmd 0 7) .started)).hostMem 0x3000 8) = 7
    ∧ leNat (mread (run (.signal 20 6) (onHost (sigCmd 1 7) .started)).hostMem 0x3000 8) = 57
    ∧ leNat (mread (run (.signal 20 6) (onHost (sigCmd 2 7) .started)).hostMem 0x3000 8) = 50
    ∧ endedWith (run (.signal 20 6) (onHost (sigCmd 2 7) .started)) { status := stOk, result := 50 } = true := by decide +kernel

/-- A FENCE behind a NOP that still runs. -/
def fencing : State :=
  queued { openQ with head := 8, cmds := [{ fetchedCmd nopBytes with stage := .running },
                                          { fetchedCmd (fields 64 [(0, 1, 1)]) with index := 7, stage := .started }] }

/-- A WAIT that runs, having read 49, while its 8 bytes hold 50. -/
def waiting (v t : Nat) : State :=
  { onHost (waitBytes v t) .running with
    memWaits := [{ who := .cmd 20 6, loc := .host 0 0x3000, cond := 0, value := v, seen := 49 }] }

theorem w_wait : reachedB fencing 20 7 1 free1 (fun s1 _ _ => !isOldest (queue s1 20) 7 && s1 == fencing) = true
    ∧ run (.fence 20 7) fencing = fencing
    ∧ atHost 2 50 waitRange (waitBytes 50 0) = true ∧ atHost 2 50 waitRange (waitBytes 51 9) = true
    ∧ waitCond 0 50 50 = true ∧ waitCond 0 50 51 = false
    ∧ endedWith (run (.waitCmd 20 6) (onHost (waitBytes 50 0) .started)) { status := stOk, result := 50 } = true
    ∧ cmdStage (run (.waitCmd 20 6) (onHost (waitBytes 51 9) .started)) 20 6 = some .running
    ∧ ((run (.waitCmd 20 6) (onHost (waitBytes 51 9) .started)).memWaits.map (·.seen)) = [50]
    ∧ endedWith (run (.waitCmd 20 6) (onHost (waitBytes 51 16777216) .started)) { status := stBadRequest, detail := 24 } = true
    ∧ (runningCmd (waiting 51 9) 20 6 2).isSome = true ∧ (waitOf (waiting 51 9) 20 6).isSome = true
    ∧ endedWith (run (.waitTimeout 20 6) (waiting 51 9)) { status := stOk, detail := 1, result := 49 } = true
    ∧ run (.waitTimeout 20 6) (waiting 51 0) = waiting 51 0
    ∧ endedWith (run (.waitHostPoll 20 6) (waiting 50 9)) { status := stOk, result := 50 } = true
    ∧ cmdStage (run (.waitHostPoll 20 6) (waiting 51 9)) 20 6 = some .running
    ∧ ((run (.waitHostPoll 20 6) (waiting 51 9)).memWaits.map (·.seen)) = [50] := by decide +kernel

/-! ### The Copy Engines and translation (O35 to O37) -/

def copyCmd (src dst n rows : Nat) : List Byte := fields 64 [(0, 1, 0x20), (8, 8, src), (16, 8, dst), (24, 8, n), (32, 4, rows)]
def copying (bs : List Byte) : State := { onHost bs .started with hostMem := mwrite [] 0x3000 [9, 8, 7, 6] }
def theCmd (bs : List Byte) : Cmd := { fetchedCmd bs with stage := .started, xl := [(8, some (.host 0 0x3000))] }
def copy4 : List Byte := copyCmd (2 ^ 48 + 0x3000) (2 ^ 48 + 0x5000) 4 1
def fillCmd (n : Nat) : List Byte := fields 64 [(0, 1, 0x21), (8, 8, 2 ^ 48 + 0x5000), (16, 8, n), (24, 8, 0x0807060504030201)]
def invalCmd (n : Nat) : List Byte := fields 64 [(0, 1, 0x22), (8, 8, direct 0x20000100), (16, 8, n)]

/-- A COPY from poisoned device memory to host memory. -/
def copyDev : List Byte := copyCmd (direct 0x20000100) (2 ^ 48 + 0x5000) 4 1
def poisoned (s : State) : State := { s with stackPoison := [0x20000100 / 32] }
def piecesAt (bs : List Byte) (op off : Nat) (p : List (Loc × Nat)) : Bool :=
  reachedB (copying bs) 20 6 op copyRange fun _ _ l => piecesOf l off == p

theorem w_copy : piecesAt copy4 0x20 8 [(.host 0 0x3000, 4)] = true ∧ piecesAt copy4 0x20 16 [(.host 0 0x5000, 4)] = true
    ∧ (tenant (copying copy4) 0).log = none
    ∧ mread (run (.copy 20 6) (copying copy4)).hostMem 0x5000 4 = [9, 8, 7, 6]
    ∧ endedWith (run (.copy 20 6) (copying copy4)) { status := stOk, result := 4 } = true
    ∧ piecesAt (fillCmd 16) 0x21 8 [(.host 0 0x5000, 16)] = true
    ∧ mread (run (.fill 20 6) (copying (fillCmd 16))).hostMem 0x5006 4 = [7, 8, 1, 2]
    ∧ copyRange (theCmd (copyCmd 0 0 0 1)) = some { status := stBadRequest, detail := 24 }
    ∧ endedWith (run (.copy 20 6) (copying (copyCmd 0 0 0 1))) { status := stBadRequest, detail := 24 } = true
    ∧ copyRange (theCmd (fillCmd 12)) = some { status := stBadRequest, detail := 16 }
    ∧ endedWith (run (.fill 20 6) (copying (fillCmd 12))) { status := stBadRequest, detail := 16 } = true
    ∧ copyRange (theCmd (invalCmd 16)) = some { status := stBadRequest, detail := 16 }
    ∧ endedWith (run (.ucInval 20 6) (copying (invalCmd 16))) { status := stBadRequest, detail := 16 } = true
    ∧ piecesAt (invalCmd 64) 0x22 8 [(.dev 0x20000100, 64)] = true
    ∧ endedWith (run (.ucInval 20 6) (copying (invalCmd 64))) { status := stOk } = true
    ∧ reachedB (poisoned (copying copyDev)) 20 6 0x20 copyRange (fun s1 _ l =>
        piecesPoison (touchPieces s1 (piecesOf l 8)) (piecesOf l 8) == some 0x20000100) = true
    ∧ endedWith (run (.copy 20 6) (poisoned (copying copyDev))) { status := stPoisoned, result := 0x20000100, error := true } = true := by
  decide +kernel

/-- ATS on for the PF; the COPY suspended. -/
def withAts (bs : List Byte) : State :=
  { copying bs with pcie := { fns := [(0, { memSpace := true, ats := true, pri := true, pasid := true })] } }
def suspP (w : FaultWait) : Suspended := { queue := 20, index := 6, inst := 0, fn := 0, asid := 5, off := 8, va := 2 ^ 48 + 0x3000, wait := w }
/-- A suspended UC_INVAL of the host window, which has no destination. -/
def inval1 : List Byte := fields 64 [(0, 1, 0x22), (8, 8, 2 ^ 48 + 0x3000), (16, 8, 32)]
def suspend (w : FaultWait) : State :=
  { setQueue (withAts inval1) 20 { openQ with head := 7, cmds := [{ theCmd inval1 with stage := .running }] } with
    xlat := { susp := [suspP w] } }
/-- A load of thread 2 of slot 1, core 3, waits for four bytes of host memory. -/
def hostAcc : MemAcc := { slot := 1, lane := 2, seq := 11, dpa := 0, size := 4, op := .load 40 false, host := some (.host 0 0x3000) }
def threadRead : State := { copying nopBytes with cores := [(3, { accs := [hostAcc] })] }

/-- Eight commands of the instance are suspended already; a page that has had four requests; many pages asked for; no PRI. -/
def eightHeld : State := { withAts copy4 with xlat := { susp := (List.range 8).map fun i => { suspP .pri with index := 20 + i } } }
def suspendAs (c : Cmd) (w : FaultWait) : State :=
  { setQueue (withAts copy4) 20 { openQ with head := 7, cmds := [c] } with xlat := { susp := [suspP w] } }
def asked4 : State := suspendAs { theCmd inval1 with stage := .running, pri := [(3, 4)] } .ats
def noPri : State := { suspend .ats with pcie := { fns := [(0, { memSpace := true, ats := true, pasid := true })] } }
def noRoom : State :=
  { suspend .ats with xlat := { susp := [{ suspP .pri with index := 20, pages := List.range 1024 }, suspP .ats] } }
def faultAns (s : State) (r : CmdRes) (c : Instr) : Bool := endedWith (run c s) r
def pageFault : CmdRes := { status := stPageFault, detail := 8, result := 2 ^ 48 + 0x3000, error := true }
/-- A UC_INVAL of a range that is not mapped. -/
def noMap : List Byte := fields 64 [(0, 1, 0x22), (8, 8, 0x1000), (16, 8, 32)]
def misses (s : State) (bs : List Byte) (va : Nat) : Bool :=
  match copyStop (noteHeld s (queue s 20) (theCmd bs)) (queue (noteHeld s (queue s 20) (theCmd bs)) 20) (theCmd bs) with
  | .miss a v => a.off == 8 && v == va && !a.w
  | _ => false
/-- An LDWAIT of thread 2 of slot 1, core 3, on host memory. -/
def hostWait : State :=
  { threadRead with memWaits := [{ who := .thread 3 1 2 40, loc := .host 0 0x3000, cond := 0, value := 1, va := 2 ^ 48 + 0x3000 }] }

theorem w_fault : misses (withAts copy4) copy4 (2 ^ 48 + 0x3000) = true
    ∧ (pcieFn (withAts copy4) (tagOwner (withAts copy4) 5)).ats = true ∧ findCmd (queue (withAts copy4) 20) 6 = some (theCmd copy4)
    ∧ (run (.copyFault 20 6) (withAts copy4)).xlat.susp = [suspP .ats]
    ∧ (run (.copyFault 20 6) (withAts copy4)).out = [.atsRequest 0 (some 5) 3]
    ∧ misses eightHeld copy4 (2 ^ 48 + 0x3000) = true ∧ suspendedOn eightHeld 0 = 8 ∧ (run (.copyFault 20 6) eightHeld).out = []
    ∧ misses (copying noMap) noMap 0x1000 = true
    ∧ faultAns (copying noMap) { pageFault with result := 0x1000 } (.copyFault 20 6) = true
    ∧ suspended (suspend .ats) 20 6 = some (suspP .ats) ∧ (findCmd (queue (suspend .ats) 20) 6).isSome = true
    ∧ (run (.atsCompletion 20 6 true true) (suspend .ats)).xlat.granted = [{ fn := 0, pasid := some 5, page := 3, w := true }]
    ∧ cmdStage (run (.atsCompletion 20 6 true true) (suspend .ats)) 20 6 = some .started
    ∧ (run (.atsCompletion 20 6 false true) (suspend .ats)).out = [.pageRequest 0 (some 5) [3]]
    ∧ ((run (.atsCompletion 20 6 false true) noRoom).xlat.susp.map (·.wait)) = [.pri, .room]
    ∧ faultAns noPri pageFault (.atsCompletion 20 6 false true) = true ∧ faultAns asked4 pageFault (.atsCompletion 20 6 false true) = true
    ∧ suspended (suspend .pri) 20 6 = some (suspP .pri)
    ∧ (run (.priResponse 20 6 true) (suspend .pri)).xlat.susp = [suspP .ats]
    ∧ faultAns (suspend .pri) pageFault (.priResponse 20 6 false) = true ∧ faultAns (suspend .pri) pageFault (.priTimeout 20 6) = true := by
  decide +kernel

theorem w_host_read : readsField (theCmd (sigCmd 0 7)) 8 = true
    ∧ faultAns (copying (sigCmd 0 7)) pageFault (.hostReadCompletion (.cmd 20 6 8 (2 ^ 48 + 0x3000)) false) = true
    ∧ run (.hostReadCompletion (.cmd 20 6 8 (2 ^ 48 + 0x3000)) true) (copying copy4) = copying copy4
    ∧ (coreAt threadRead 3).accs.find? (fun x => x.seq == 11) = some hostAcc
    ∧ (coreAt (run (.hostReadCompletion (.thread 3 11) true) threadRead) 3).accs = []
    ∧ (coreAt (run (.hostReadCompletion (.thread 3 11) false) threadRead) 3).accs = []
    ∧ (ldwaitOf hostWait 3 1 2).isSome = true ∧ (run (.hostReadCompletion (.wait 3 1 2) false) hostWait).memWaits = []
    ∧ run (.hostReadCompletion (.wait 3 1 2) true) hostWait = hostWait := by decide +kernel

/-- Tables of tag 5: a root directory at 0x20000000 and a leaf of 2 MiB at 0x20200000 for VA 0x600000. -/
def tables : State :=
  { ready with
    settings := { run := [(idPfRootDir, 0x20000000)] }
    mem := mwrite (mwrite (mwrite (mwrite [] 0x20000028 (leBytes 8 0x20010001)) 0x20010000 (leBytes 8 0x20011001))
      0x20011000 (leBytes 8 0x20012001)) 0x20012018 (leBytes 8 0x20200017) }
def leaf5 : TlbEntry := { asid := 5, va := 0x600000, size := 0x200000, dpa := 0x20200000, w := true, x := false, pin := true }
def leaf6 : TlbEntry := { leaf5 with asid := 6 }
/-- XLAT_INVAL of all of tag 5, from a started command. -/
def xinvCmd : List Byte := fields 64 [(0, 1, 0x23), (8, 2, 5), (10, 1, 1), (16, 8, 0x600000), (24, 8, 0x10000)]
def invaling : State := { onHost xinvCmd .started with xlat := { tlb := [leaf5, leaf6] } }
def overlapping (c : Option (Nat × Nat)) : State :=
  { onHost xinvCmd .running with xlat := { invals := [{ cmd := c, fn := 0, cmds := [(20, 3)], accs := [], waits := [] }] } }
def atsGrants : State := { ready with xlat := { granted := [{ fn := 0, pasid := some 5, page := 3, w := true }, { fn := 0, pasid := none, page := 3, w := true }] } }

/-- An XLAT_INVAL that waits for a COPY, and commands that are refused. -/
def waitsFor : State := { overlapping (some (20, 6)) with xlat := { invals := [{ cmd := some (20, 6), cmds := [(20, 6)], accs := [], waits := [] }] } }
def xinvAs (mode : Nat) (asid n : Nat) : List Byte := fields 64 [(0, 1, 0x23), (8, 2, asid), (10, 1, mode), (16, 8, b2n (mode == 1) * 0x600000), (24, 8, n)]
def invalAs (bs : List Byte) : State := { onHost bs .started with xlat := { tlb := [leaf5, leaf6] } }
/-- Queue 21 has pinned its ring in the leaf. -/
def pinned : State := setQueue invaling 21 { openQ with leaves := [leaf5] }
def xreach (s : State) : Bool := reachedB s 20 6 0x23 free1 fun s1 _ _ => s1 == s
def badTables : State := { tables with mem := mwrite tables.mem 0x20012018 (leBytes 8 0x20200016) }

theorem w_xlat : (match (fullWalk (readRoot tables 5) 5 0x612345).1 with | .leaf e => e == leaf5 | _ => false) = true
    ∧ (run (.tableWalk 2 5 0x612345) tables).xlat.tlb = [leaf5] ∧ reg (run (.tableWalk 2 5 0x612345) tables) (dieReg 2 xltWalkCnt) = 1
    ∧ (run (.tableWalk 2 5 0x612345) tables).xlat.ptrs.length = 2
    ∧ (match (fullWalk (readRoot badTables 5) 5 0x612345).1 with | .miss _ => true | _ => false) = true
    ∧ (run (.tableWalk 2 5 0x612345) badTables).xlat.tlb = []
    ∧ xreach invaling = true ∧ asidMayName invaling 0 5 = true
    ∧ leafInUse invaling 5 0x600000 0x10000 = false
    ∧ (run (.xlatInval 20 6) invaling).xlat.tlb = [leaf6] ∧ tagGen (run (.xlatInval 20 6) invaling) 5 = 1
    ∧ (run (.xlatInval 20 6) invaling).xlat.invals.length = 1
    ∧ xreach (invalAs (xinvAs 0 5 0)) = true ∧ (run (.xlatInval 20 6) (invalAs (xinvAs 0 5 0))).xlat.tlb = [leaf6]
    ∧ xreach (invalAs (xinvAs 1 0 65536)) = true ∧ asidMayName (invalAs (xinvAs 1 0 65536)) 0 0 = false
    ∧ endedWith (run (.xlatInval 20 6) (invalAs (xinvAs 1 0 65536))) { status := stBadRequest, detail := 8 } = true
    ∧ endedWith (run (.xlatInval 20 6) (invalAs (xinvAs 1 5 4096))) { status := stBadRequest, detail := 24 } = true
    ∧ xreach pinned = true ∧ leafInUse pinned 5 0x600000 0x10000 = true
    ∧ endedWith (run (.xlatInval 20 6) pinned) { status := stBusy } = true := by decide +kernel

theorem w_xlat_end : (overlapping (some (20, 6))).xlat.invals.all (invalOver (overlapping (some (20, 6)))) = true
    ∧ (findCmd (queue (overlapping (some (20, 6))) 20) 6).isSome = true
    ∧ endedWith (run (.xlatInvalWaitEnd 0) (overlapping (some (20, 6)))) { status := stOk } = true
    ∧ waitsFor.xlat.invals.all (invalOver waitsFor) = false ∧ run (.xlatInvalWaitEnd 0) waitsFor = waitsFor
    ∧ (overlapping none).xlat.invals.all (invalOver (overlapping none)) = true
    ∧ (run (.xlatInvalWaitEnd 0) (overlapping none)).out = [.atsInvalDone 0]
    ∧ fnEnabled atsGrants 0 = true ∧ atsGrants.xlat.invals = []
    ∧ (run (.atsInvalidateRequest 0 (some 5) 0x3000 4096) atsGrants).xlat.granted = [{ fn := 0, pasid := none, page := 3, w := true }] := by
  decide +kernel

/-! ### Stacks (O38, O39) -/

def writeAsk : StackAsk := { use := .bypassWrite, addr := 0x1020000105, data := [1, 2] }
def stackReq1 (a : Nat) (w : Option (Nat × List Byte)) : StackReq := { skink := false, line := a / 128, mask := 1, write := w }
def row32 : List Byte := fields 32 [(0, 4, 0x04030201)]
def stackQ (l : List StackReq) : State := { ready with hbm := [(1, { q := l })], stackPoison := [0x1020000100 / 32] }
def twoWrites : State := stackQ [stackReq1 0x1020000100 (some (0, row32)), stackReq1 0x1020000100 none]
def oneRead : State := stackQ [stackReq1 0x1020000200 none]
def fullPath : State := stackQ (List.replicate 48 (stackReq1 0x1020000100 none))
def stackFilling : State := { twoWrites with hbm := [(1, { q := (stackCtl twoWrites 1).q, fill := true })] }

theorem w_stack : populated ready 0x1020000105 = true ∧ inReserve 0x1020000105 = false
    ∧ queuedOn (stackCtl ready 1) false (reqPc (askReq ready writeAsk)) < 48
    ∧ (stackCtl (run (.stackRequestAccept 1 writeAsk) ready) 1).q
        = [{ skink := false, line := 0x1020000105 / 128, mask := 1, write := some (5, [1, 2]) }]
    ∧ 48 ≤ queuedOn (stackCtl fullPath 1) false (reqPc (askReq fullPath writeAsk)) ∧ run (.stackRequestAccept 1 writeAsk) fullPath = fullPath
    ∧ inReserve 0x1000000105 = true ∧ reg (run (.stackRequestAccept 1 { writeAsk with addr := 0x1000000105 }) ready) (dieReg 1 hbmUnpopCnt) = 1
    ∧ populated ready 0x1C00000105 = false
    ∧ reg (run (.stackRequestAccept 1 { writeAsk with addr := 0x1C00000105 }) ready) (dieReg 1 hbmUnpopCnt) = 1 := by decide +kernel

theorem w_stack_serve : (stackCtl twoWrites 1).q[0]? = some (stackReq1 0x1020000100 (some (0, row32))) ∧ row32.length = 32
    ∧ nextReq twoWrites (stackCtl twoWrites 1) (reqPc (stackReq1 0x1020000100 none)) = some 0
    ∧ mread (run (.stackRequestServe 1 0 ⟨.clean, 0⟩) twoWrites).mem 0x1020000100 4 = [1, 2, 3, 4]
    ∧ (run (.stackRequestServe 1 0 ⟨.clean, 0⟩) twoWrites).stackPoison = []
    ∧ heldBack twoWrites (stackCtl twoWrites 1) 1 (stackReq1 0x1020000100 none) = true
    ∧ run (.stackRequestServe 1 1 ⟨.clean, 0⟩) twoWrites = twoWrites
    ∧ (stackCtl stackFilling 1).fill = true ∧ run (.stackRequestServe 1 0 ⟨.clean, 0⟩) stackFilling = stackFilling
    ∧ nextReq oneRead (stackCtl oneRead 1) (reqPc (stackReq1 0x1020000200 none)) = some 0
    ∧ (stackCtl (run (.stackRequestServe 1 0 ⟨.clean, 0⟩) oneRead) 1).q = []
    ∧ (run (.stackRequestServe 1 0 ⟨.clean, 0⟩) oneRead).out = [.stackData 0x1020000200 (zeros 32) 0]
    ∧ (run (.stackRequestServe 1 0 ⟨.uncorrectable, 0⟩) oneRead).stackPoison = [0x1020000100 / 32, 0x1020000200 / 32] := by decide +kernel

def upkeep : State :=
  { ready with hbm := [(1, { marked := [0x1020010000], fill := true })], mem := [(0x0020000000, 7), (0x1020000000, 8)], stackPoison := [0x1020000000 / 32] }
def fullList : State := { ready with hbm := [(1, { marked := [0x1020010000], retired := List.replicate 1024 0x1020000000 })] }
/-- Open rows in banks 1 and 2 of pseudo-channel 0 of stack 1. -/
def twoRows (m : Nat) : State := { ready with hbm := [(1, { openRows := [(1, 5), (2, 6)], refMode := m })] }
def scrubbing : State := { ready with hbm := [(1, { scrubAt := 0x20000120 })] }

theorem w_upkeep : (tget {} upkeep.stackIds 1).cond = .inService ∧ (stackCtl upkeep 1).selfRefresh = false
    ∧ (stackCtl (run (.refresh 1) upkeep) 1).refreshes = 1
    ∧ (stackCtl (run (.refresh 1) (twoRows 0)) 1).openRows = [(2, 6)] ∧ (stackCtl (run (.refresh 1) (twoRows 1)) 1).openRows = []
    ∧ run (.refresh 1) { ready with hbm := [(1, { selfRefresh := true })] } = { ready with hbm := [(1, { selfRefresh := true })] }
    ∧ reg (run (.hbmTemperatureReadout 1 71) upkeep) (dieReg 1 hbmTemp) = 71
    ∧ reg (run (.ecsReadout 1 5) upkeep) (dieReg 1 hbmCeCnt) = 5
    ∧ (stackCtl (run (.retirementListUpdate 1) upkeep) 1).retired = [0x1020010000]
    ∧ 1024 ≤ (stackCtl fullList 1).retired.length ∧ (stackCtl (run (.retirementListUpdate 1) fullList) 1).retired.length = 1024
    ∧ (reg (run (.retirementListUpdate 1) fullList) (dieReg 1 hbmErr)).getLsbD 4 = true
    ∧ (run (.stackZeroFillComplete 1) upkeep).mem = [(0x0020000000, 7)]
    ∧ knownLines upkeep 0x1000000000 0xC00000000 = []
    ∧ (run (.stackZeroFillComplete 1) upkeep).stackPoison = [] ∧ (stackCtl (run (.stackZeroFillComplete 1) upkeep) 1).fill = false := by
  decide +kernel

/-- A pass under way when scrubbing is switched off. -/
def noScrub : State := { ready with hbm := [(1, { scrub := true })], settings := { run := [(idHbmScrubHours, 0)] } }

theorem w_scrub : setting scrubbing idHbmScrubHours ≠ 0 ∧ populated scrubbing 0x1020000120 = true
    ∧ pcReqs (stackCtl scrubbing 1) (pcOf 0x20000120) = []
    ∧ (run (.patrolScrubRead 1 0x1020000120 .clean) scrubbing).stackPoison = []
    ∧ (stackCtl (run (.patrolScrubRead 1 0x1020000120 .clean) scrubbing) 1).scrubAt = 0x20000140
    ∧ (run (.patrolScrubRead 1 0x1020000120 .uncorrectable) scrubbing).stackPoison = [0x1020000120 / 32]
    ∧ (stackCtl (run (.patrolScrubRead 1 0x1020000120 .uncorrectable) scrubbing) 1).marked = [0x1020000000]
    ∧ (stackCtl (run (.patrolScrubRead 1 0x1000000000 .clean) noScrub) 1).scrub = false := by decide +kernel

/-! ### Cores: instructions of a set (O40 to O44) -/

/-- Core 3 runs block 2 of launch 9, of one group in slot 1, of 64 registers to a thread; threads 0 and 1 as given, in one context, the
others exited. -/
def onCore (t0 t1 : Thread) : State :=
  { ready with
    power := { clusters := [(0, .run)] }
    eng := {
      queues := [(20, { openQ with head := 7, cmds := [{ index := 6, bytes := fields 64 [(0, 1, 0x10)], epoch := 1, gen := 0, stage := .running }] })]
      launches := [(9, { queue := 20, index := 6, entry := 0x1000, param := 5, blocks := 4, groups := 1, granules := 8, lsConfig := 0,
                         lsZero := false, epoch := 1 })]
      nextLaunch := 10 }
    cores := [(3, {
      blocks := [(0, { launch := 9, index := 2, slots := [1], banks := [0], granules := 8 })]
      groups := [(1, { block := 0, index := 0, threads := (0, t0) :: (1, t1) :: (List.range 62).map fun k => (k + 2, { exited := true }) })]
      ctxs := [(0, { slot := 1, threads := [0, 1] })] })] }
/-- Registers 10, 11 and 12 of thread 0, 20 in thread 1. -/
def thr (a b c : Nat) : Thread := { pc := 0x1000, regs := [(10, BitVec.ofNat 32 a), (11, BitVec.ofNat 32 b), (12, BitVec.ofNat 32 c)], flags := 1 }
def vals (a b c : Nat) : State := onCore (thr a b c) (thr c b a)
def i0 : Issue := { core := 3, slot := 1, lead := 0, next := 0x1010 }

/-- What `Issues` asks for, as a test. -/
def issuesB (s : State) (i : Issue) (regs set : List Nat) : Bool :=
  !s.power.shutdown && (tryIssue s i regs).map (·.1) == some set && decide set.Nodup

theorem issues_of {s : State} {i : Issue} {regs set : List Nat} (h : issuesB s i regs set = true) : ∃ s1, Issues s i regs set s1 := by
  simp only [issuesB, Bool.and_eq_true, Bool.not_eq_true', beq_iff_eq, decide_eq_true_eq, Option.map_eq_some_iff] at h
  obtain ⟨⟨a, ⟨st, s1⟩, b, c⟩, d⟩ := h
  exact ⟨s1, a, by rw [b]; exact congrArg some (Prod.ext c rfl), d⟩

/-- Threads 0 and 1 issue together, and the instruction leaves a value and raised flags in register 5 of thread 0. -/
def gives (s : State) (regs : List Nat) (o : State → Host.Outcome State Fault Refusal) (v fl : Nat) : Bool :=
  issuesB s i0 regs [0, 1] && (rd (nx (o s)) 3 1 0 5).toNat == v && (threadOf (nx (o s)) 3 1 0).flags == 1 ||| fl
    && (threadOf (nx (o s)) 3 1 1).pc == 0x1010

def f1 : Nat := 0x3F800000
def f2 : Nat := 0x40000000
def f3 : Nat := 0x40400000
def f4 : Nat := 0x40800000

theorem w_float : gives (vals f2 f3 f1) [5, 10, 11, 12] (execFma i0 .fp32 .rne 5 10 11 12) 0x40E00000 0 = true
    ∧ gives (vals f3 f2 0) [5, 10, 11] (execFpDiv i0 .fp32 .rne 5 10 11) 0x3FC00000 0 = true
    ∧ gives (vals f3 f2 0) [5, 10, 11] (execFpMin i0 .fp32 5 10 11) f2 0 = true
    ∧ gives (vals f3 f2 0) [5, 10, 11] (execFpMax i0 .fp32 5 10 11) f3 0 = true
    ∧ gives (vals f3 f2 0) [5, 10, 11] (execFpCompare i0 .fp32 .lt 5 10 11) 0 0 = true
    ∧ gives (vals f4 127 0) [5, 10, 11] (execScaledConvert i0 .e4m3 .fp32 .rne true 5 10 11) 0x48 0 = true
    ∧ gives (vals f4 0 0) [5, 10] (execSqrt i0 .fp32 .rne 5 10) f2 0 = true
    ∧ gives (vals f4 0 0) [5, 10] (execRcp i0 .fp32 .rne 5 10) 0x3E800000 0 = true
    ∧ gives (vals f4 0 0) [5, 10] (execRsqrt i0 .fp32 .rne 5 10) 0x3F000000 0 = true
    ∧ gives (vals f2 0 0) [5, 10] (execExp2 i0 .fp32 .rne 5 10) f4 0 = true
    ∧ gives (vals f4 0 0) [5, 10] (execLog2 i0 .fp32 .rne 5 10) f2 0 = true
    ∧ gives (vals f3 0 0) [5, 10] (execFpConvert i0 .bf16 .fp32 .rne false 5 10) 0x4040 0 = true
    ∧ gives (vals f3 0 0) [5, 10] (execConvertToInteger i0 .i32 .fp32 .rne 5 10) 3 0 = true
    ∧ gives (vals f3 0 0) [5, 6, 10] (execConvertToInteger i0 .i64 .fp32 .rne 5 10) 3 0 = true
    ∧ gives (vals 3 0 0) [5, 10] (execConvertFromInteger i0 .fp32 .i32 .rne false 5 10) f3 0 = true
    ∧ gives (vals 3 0 0) [5, 10, 11] (execConvertFromInteger i0 .fp32 .u64 .rne false 5 10) f3 0 = true := by decide +kernel

theorem w_integer : intRegs false 5 ++ (intRegs false 10 ++ intRegs false 12) = [5, 10, 12]
    ∧ intRegs true 5 ++ (intRegs true 10 ++ intRegs true 12) = [5, 6, 10, 11, 12, 13] ∧ intRegs false 5 ++ intRegs false 10 = [5, 10]
    ∧ gives (vals 0xFFFFFFFF 0 2) [5, 10, 12] (execIntAdd i0 false 5 10 12) 1 0 = true
    ∧ gives (vals 0xFFFFFFFF 0 2) [5, 6, 10, 11, 12, 13] (execIntAdd i0 true 5 10 12) 1 0 = true
    ∧ gives (vals 1 0 2) [5, 10, 12] (execIntSub i0 false 5 10 12) 0xFFFFFFFF 0 = true
    ∧ gives (vals 0x80000001 0 2) [5, 10, 12] (execIntMul i0 false 5 10 12) 2 0 = true
    ∧ gives (vals 0x80000000 0 4) [5, 10, 12] (execMulhi i0 false true 5 10 12) 0xFFFFFFFE 0 = true
    ∧ gives (vals 0x80000000 0 4) [5, 10, 12] (execMulhi i0 false false 5 10 12) 2 0 = true
    ∧ gives (vals 0x80000000 0 0) [5, 10] (execIntNeg i0 false 5 10) 0x80000000 0 = true
    ∧ gives (vals 0xFFFFFFFF 0 0) [5, 10] (execIntAbs i0 false 5 10) 1 0 = true := by decide +kernel

theorem w_shift : gives (vals 3 0 31) [5, 10, 12] (execShl i0 false 5 10 12) 0x80000000 0 = true
    ∧ gives (vals 3 0 32) [5, 10, 12] (execShl i0 false 5 10 12) 0 0 = true
    ∧ gives (vals 0x80000000 0 31) [5, 10, 12] (execShr i0 false 5 10 12) 1 0 = true
    ∧ gives (vals 0x80000000 0 99) [5, 10, 12] (execSar i0 false 5 10 12) 0xFFFFFFFF 0 = true
    ∧ gives (vals 0x80000001 0 33) [5, 10, 12] (execRol i0 false 5 10 12) 3 0 = true
    ∧ gives (vals 0x80000001 0 1) [5, 10, 12] (execRor i0 false 5 10 12) 0xC0000000 0 = true
    ∧ gives (vals 0 1 8) [5, 6, 10, 11, 12] (execShr i0 true 5 10 12) 0x1000000 0 = true
    ∧ gives (vals 0 0 0) [5, 10] (execClz i0 false 5 10) 32 0 = true ∧ gives (vals 1 0 0) [5, 6, 10, 11] (execClz i0 true 5 10) 63 0 = true
    ∧ gives (vals 0x50 0 0) [5, 10] (execCtz i0 false 5 10) 4 0 = true := by decide +kernel

theorem w_division : gives (vals 0xFFFFFFF9 0 2) [5, 10, 12] (execIntDiv i0 false true 5 10 12) 0xFFFFFFFD 0 = true
    ∧ gives (vals 7 0 0) [5, 10, 12] (execIntDiv i0 false true 5 10 12) 0xFFFFFFFF 64 = true
    ∧ gives (vals 0x80000000 0 0xFFFFFFFF) [5, 10, 12] (execIntDiv i0 false true 5 10 12) 0x80000000 32 = true
    ∧ gives (vals 0x80000000 0 0xFFFFFFFF) [5, 10, 12] (execDivSat i0 false true 5 10 12) 0x7FFFFFFF 32 = true
    ∧ gives (vals 0xFFFFFFF9 0 2) [5, 10, 12] (execRem i0 false true 5 10 12) 0xFFFFFFFF 0 = true
    ∧ gives (vals 7 0 0) [5, 10, 12] (execRem i0 false true 5 10 12) 7 64 = true
    ∧ gives (vals 0x7FFFFFFF 0 1) [5, 10, 12] (execAddSat i0 false true 5 10 12) 0x7FFFFFFF 32 = true
    ∧ gives (vals 1 0 2) [5, 10, 12] (execSubSat i0 false false 5 10 12) 0 32 = true
    ∧ gives (vals 0x10000 0 0x10000) [5, 10, 12] (execMulSat i0 false false 5 10 12) 0xFFFFFFFF 32 = true
    ∧ gives (vals 0x80000000 0 0) [5, 10] (execNegSat i0 false true 5 10) 0x7FFFFFFF 32 = true
    ∧ gives (vals 0xFFFFFFFE 0 0) [5, 10] (execAbsSat i0 false true 5 10) 2 0 = true := by decide +kernel

/-- Thread 0 alone in a set, with 32 FP32 elements of 1 at 0x400 of local store. -/
def alone (r10 r11 r12 : Nat) : State :=
  let s := onCore { thr r10 r11 r12 with flags := 0 } { exited := true }
  setCore s 3 { coreAt s 3 with banks := [(0, { bytes := mwrite [] 0x400 ((List.range 32).flatMap fun _ => leBytes 4 f1) })] }

theorem w_special : (launchOf (vals 0 0 0) 3 1).isSome = true ∧ gives (vals 0 0 0) [5] (execRdsr i0 .block 5) 2 0 = true
    ∧ gives (vals 0 0 0) [5] (execRdsr i0 .nblocks 5) 4 0 = true ∧ specialWords .param = 2
    ∧ gives (vals 0 0 0) [5, 6] (execRdsr i0 .param 5) 5 0 = true ∧ gives (vals 0 0 0) [5] (execRdsr i0 .flags 5) 1 0 = true
    ∧ issuesB (vals 0 0 0) i0 [5, 6] [0, 1] = true ∧ (threadOf (nx (execRdsr i0 .cycles 5 (vals 0 0 0))) 3 1 0).pc = 0x1010
    ∧ issuesB (vals 0 0 0) i0 [] [0, 1] = true ∧ (threadOf (nx (execClrflags i0 1 (vals 0 0 0))) 3 1 0).flags = 0
    ∧ (threadOf (nx (execClrflags i0 2 (vals 0 0 0))) 3 1 1).flags = 1
    ∧ issuesB (alone 0x400 0x40 0x20) i0 [10, 11, 12] [0] = true
    ∧ (lsGet (nx (execQmx i0 .e4m3 .rne 10 11 12 (alone 0x400 0x40 0x20))) 3 1 0x40 32).length = 32
    ∧ (lsGet (nx (execQmx i0 .e4m3 .rne 10 11 12 (alone 0x400 0x40 0x20))) 3 1 0x20 1)
        = [BitVec.ofNat 8 (qmxVal .e4m3 .rne (List.replicate 32 (fdecode .fp32 f1))).1] := by decide +kernel

/-- Threads 0 and 1 at different addresses: two sets of one context, in which 512 issues in a row were divergent. -/
def twoSets : State :=
  let s := onCore (thr 0 0 0) { thr 0 0 0 with pc := 0x2000 }
  setCore s 3 { coreAt s 3 with ctxs := [(0, { slot := 1, threads := [0, 1], divergent := 512 })] }
def grp (s : State) : Group := match groupAt (coreAt s 3) 1 with
  | some g => g
  | none => { block := 0, index := 0 }

theorem w_sets : issuesB (vals 0 0 0) i0 [] [0, 1] = true ∧ ((coreAt (nx (execYieldSet i0 (vals 0 0 0))) 3).ctxs.map (·.2.count)) = [16]
    ∧ issuesB twoSets i0 [] [0] = true
    ∧ setsOf (grp (advancePc twoSets i0 [0])) { slot := 1, threads := [0, 1], divergent := 512 } = [[0], [1]]
    ∧ ((coreAt (nx (execSplit i0 twoSets)) 3).ctxs.map (·.2.threads)) = [[0], [1]]
    ∧ setsOf (grp twoSets) { slot := 1, threads := [0, 1], divergent := 512 } = [[0], [1]]
    ∧ ((coreAt (nx (execAutoSplit 3 0 twoSets)) 3).ctxs.map (·.2.threads)) = [[0], [1]] := by decide +kernel

theorem w_converge : alive (grp (vals 0 0 0)) = [0, 1]
    ∧ (threadOf (nx (execConverge i0 3 (vals 0 0 0))) 3 1 1).pc = 0x1010 ∧ (threadOf (nx (execConverge i0 3 (vals 0 0 0))) 3 1 1).wait = none
    ∧ (threadOf (nx (execRepack i0 (vals 0 0 0))) 3 1 0).pc = 0x1010
    ∧ visibleAt (vals 0 0 0) .b 3 1 0 = true ∧ visibleAt (vals 0 0 0) .b 3 1 1 = true
    ∧ (threadOf (nx (execBarBlock i0 (vals 0 0 0))) 3 1 0).pc = 0x1010
    ∧ (threadOf (nx (execConverge i0 3 twoSets)) 3 1 0).wait = some (.converge 3) ∧ (thread (grp twoSets) 1).wait = none
    ∧ (threadOf (nx (execExitThread i0 (vals 0 0 0))) 3 1 1).exited = true ∧ (coreAt (nx (execExitThread i0 (vals 0 0 0))) 3).ctxs = [] := by
  decide +kernel

def launchBytes (aff blocks : Nat) : List Byte :=
  fields 64 [(0, 1, 0x10), (8, 8, direct 0x20001000), (16, 8, direct 0x20002000), (24, 4, blocks), (28, 1, 2), (29, 1, 4), (31, 1, aff)]
/-- Queue 20 of the Launch engine of die 0 has started a LAUNCH. -/
def launching (aff blocks : Nat) : State :=
  queued { openQ with engine := 0, head := 7, cmds := [{ fetchedCmd (launchBytes aff blocks) with stage := .started }] }
/-- A launch with blocks 1 and 2 to start on die 1, its clusters running. -/
def toStart : State :=
  { launching 3 5 with
    power := { clusters := [(8, .run)] }
    eng := { (launching 3 5).eng with
      launches := [(9, { queue := 20, index := 6, entry := 0x1000, param := 5, blocks := 3, groups := 2, granules := 4, lsConfig := 0,
                         lsZero := false, epoch := 1, next := [(0, (0, 1)), (1, (1, 3))] })] } }

theorem w_launch : (startedCmd (launching 3 5) 20 6 0x10).all (fun c => (launchRange c).isNone) = true
    ∧ (startedCmd (launching 3 5) 20 6 0x10).isSome = true
    ∧ (List.range 8).filter (fun d => bit 3 d && dieInService (launching 3 5) d && !dieDraining (launching 3 5) d) = [0, 1]
    ∧ ((launchAt (run (.launch 20 6) (launching 3 5)) 0).map (·.next)) = some [(0, (0, 3)), (1, (3, 5))]
    ∧ (startedCmd (launching 3 0) 20 6 0x10).all (fun c => launchRange c == some { status := stBadRequest, detail := 24 }) = true
    ∧ (startedCmd (launching 3 0) 20 6 0x10).isSome = true
    ∧ endedWith (run (.launch 20 6) (launching 3 0)) { status := stBadRequest, detail := 24 } = true := by decide +kernel

theorem w_block_start : dieAwake toStart 1 = true ∧ nextLaunchOn toStart 1 = some 9
    ∧ (launchAt toStart 9).bind (chooseCore toStart 1) = some 512 ∧ clusterRuns toStart 512 = true ∧ (coreAt toStart 512).l1 = []
    ∧ ((coreAt (run (.blockStart 9 1) toStart) 512).blocks.map (·.2.index)) = [1]
    ∧ ((launchAt (run (.blockStart 9 1) toStart) 9).map (·.next)) = some [(0, (0, 1)), (1, (2, 3))] := by decide +kernel

/-- The block of core 3, all of whose threads have exited; its launch has one more block to end, or none. -/
def finishing (ended : Nat) : State :=
  let s := onCore { exited := true } { exited := true }
  match launchAt s 9 with
  | some l => setLaunch s 9 { l with ended := ended }
  | none => s
/-- Thread 0 waits at a barrier. -/
def hanging : State := onCore { thr 0 0 0 with wait := some .bar } (thr 0 0 0)
/-- A launch without resident blocks that is to stop. -/
def stopping : State :=
  let s := onCore {} {}
  match launchAt s 9 with
  | some l => { setLaunch s 9 { l with stopping := some { status := stGroupHang, detail := 3, error := true } } with cores := [] }
  | none => s

theorem w_block_end : (launchAt (finishing 1) 9).isSome = true ∧ (coreAt (finishing 1) 3).blocks.any (fun p => blockBusy (finishing 1) 3 p.2) = false
    ∧ alive (grp (finishing 1)) = [] ∧ (coreAt (run (.blockEnd 3 0) (finishing 1)) 3).blocks = []
    ∧ ((launchAt (run (.blockEnd 3 0) (finishing 1)) 9).map (·.ended)) = some 2
    ∧ launchAt (run (.blockEnd 3 0) (finishing 3)) 9 = none ∧ endedWith (run (.blockEnd 3 0) (finishing 3)) { status := stOk } = true
    ∧ (grp hanging).hung = false ∧ alive (grp hanging) = [0, 1] ∧ (thread (grp hanging) 0).wait = some .bar
    ∧ reg (run (.groupWatchdogExpiry 3 1) hanging) (dieReg 0 coreHangLast) = 0x80010003
    ∧ ((launchAt (run (.groupWatchdogExpiry 3 1) hanging) 9).bind (·.stopping)).map (·.status) = some stGroupHang
    ∧ launchResident stopping 9 = false ∧ (findCmd (queue stopping 20) 6).isSome = true
    ∧ launchAt (run (.hangStopComplete 9) stopping) 9 = none ∧ (queue (run (.hangStopComplete 9) stopping) 20).stopIndex = 6 := by
  decide +kernel

/-- No die serves the launch; its die sleeps, or has no core for it; its blocks have ended but an access of theirs has not. -/
def unserved : State := { launching 1 5 with dies := tput ready.dies 0 .quarantined }
def sleeping : State := { toStart with power := { toStart.power with dies := [(1, .retention)] } }
def crowded : State :=
  match launchAt toStart 9 with
  | some l => setLaunch toStart 9 { l with groups := 40 }
  | none => toStart
def lateAcc : MemAcc := { slot := lateSlot 9, lane := 0, seq := 11, dpa := 0x20000100, size := 4, op := .load 40 false }
def endedLaunch (l : List MemAcc) : State :=
  let s := finishing 4
  setCore s 3 { accs := l }
def heard0 : State :=
  { hanging with hubTime := 8, cores := [(3, { coreAt hanging 3 with groups := [(1, { grp hanging with freed := some 8 })] })] }

theorem w_launch_waits : (startedCmd unserved 20 6 0x10).all (fun c => (launchRange c).isNone) = true
    ∧ (List.range 8).filter (fun d => bit 1 d && dieInService unserved d && !dieDraining unserved d) = []
    ∧ endedWith (run (.launch 20 6) unserved) { status := stWrongState } = true
    ∧ nextLaunchOn sleeping 1 = some 9 ∧ dieAwake sleeping 1 = false ∧ run (.blockStart 9 1) sleeping = wakeDie sleeping 1
    ∧ nextLaunchOn crowded 1 = some 9 ∧ (launchAt crowded 9).bind (chooseCore crowded 1) = none ∧ run (.blockStart 9 1) crowded = crowded
    ∧ lateOps (endedLaunch [lateAcc]) 9 = true ∧ run (.commandComplete 20 6) (endedLaunch [lateAcc]) = endedLaunch [lateAcc]
    ∧ lateOps (endedLaunch []) 9 = false ∧ launchAt (run (.commandComplete 20 6) (endedLaunch [])) 9 = none
    ∧ (queue (run (.commandComplete 20 6) (endedLaunch [])) 20).cmds = []
    ∧ (grp heard0).freed = some heard0.hubTime ∧ run (.groupWatchdogExpiry 3 1) heard0 = heard0
    ∧ launchResident { stopping with cores := (onCore {} {}).cores } 9 = true
    ∧ run (.hangStopComplete 9) { stopping with cores := (onCore {} {}).cores } = { stopping with cores := (onCore {} {}).cores } := by
  decide +kernel

/-! ### Matrix units (O45, O46) -/

def mtxRegs : List Nat := regSpan 10 4 ++ regSpan 14 4 ++ regSpan 20 16
def soloRegs : List Nat := [10, 11, 12, 13]
def mtx0 : State := vals 7 0x840 0x1000

theorem w_mmaj : (groupAt (coreAt mtx0 3) 1).isSome = true ∧ issuesB mtx0 i0 mtxRegs [0, 1] = true ∧ alive (grp mtx0) = [0, 1]
    ∧ chainsOn (coreAt mtx0 3) 1 20 = false ∧ tileFree (coreAt mtx0 3) 1 0 20 30 = true
    ∧ tileFree (coreAt mtx0 3) 1 1 20 30 = true ∧ mtxRoom (coreAt mtx0 3) = true ∧ mtxWellFormed 0 1 = true ∧ mtxWellFormed 0 5 = false
    ∧ ((coreAt (nx (execMmaj i0 0 1 30 10 14 20 none none mtx0)) 3).mtxQ.map (·.slot)) = [1]
    ∧ (coreAt (nx (execMmaj i0 0 5 30 10 14 20 none none mtx0)) 3).mtxQ = []
    ∧ reg (nx (execMmaj i0 0 5 30 10 14 20 none none mtx0)) (dieReg 0 mtxMalformedCnt) = 1
    ∧ issuesB mtx0 i0 soloRegs [0, 1] = true
    ∧ ((coreAt (nx (execMmas i0 5 5 10 11 12 13 none none mtx0)) 3).mtxQ.map (·.op))
        = [.solo 5 5 0 0x840 0x1000 0 none none 0, .solo 5 5 0x1000 0x840 0 0 none none 1]
    ∧ soloOf (coreAt mtx0 3) 1 0 = false ∧ soloOf (coreAt mtx0 3) 1 1 = false ∧ (threadOf (nx (execMfenceS i0 mtx0)) 3 1 1).pc = 0x1010
    ∧ issuesB mtx0 i0 (regSpan 10 4) [0, 1] = true ∧ loadsDone mtx0 3 1 0 = true ∧ loadsDone mtx0 3 1 1 = true
    ∧ (coreAt mtx0 3).mtxRun = [] ∧ (coreAt mtx0 3).intTiles = []
    ∧ ((coreAt (nx (execMappend i0 30 10 8 mtx0)) 3).mtxQ.map fun e => match e.op with | .append _ ws n u => (ws, n, u) | _ => ([], 0, 9))
        = [([7, 0x840, 0x1000, 0], 8, 0)]
    ∧ issuesB mtx0 i0 (11 :: regSpan 10 4) [0, 1] = true ∧ (coreAt mtx0 3).intLs = []
    ∧ ((coreAt (nx (execMappends i0 11 10 8 mtx0)) 3).mtxQ.map (·.op))
        = [.appendS 0x840 [7, 0x840, 0x1000, 0] 8 0, .appendS 0x840 [0x1000, 0x840, 7, 0] 8 1] := by decide +kernel

/-- The unit's queue holds a solo INT8 operation: A of ones at 0x1000, B of twos at 0x2000, C at 0x3000. -/
def soloOp : MtxOp := .solo 5 5 0x4000 0x1000 0x2000 0x3000 none none 0
def mtxQueued : State :=
  setCore mtx0 3 { coreAt mtx0 3 with
    mtxQ := [{ slot := 1, op := soloOp }]
    banks := [(0, { bytes := mwrite (mwrite (mwrite [] 0x1000 (List.replicate 32 1)) 0x2000 (List.replicate 32 2)) 0x3000 [9] })] }
def running1 (op : MtxOp) : State :=
  setCore mtx0 3 { coreAt mtx0 3 with mtxRun := [{ slot := 1, op := op, result := (List.range 1024).map fun k => BitVec.ofNat 32 k }] }
def jointOp : MtxOp := .joint 0 0 30 30 false [] [] [] [] [] [0, 1]
def appendOp : MtxOp := .append [] [7, 5, 0, 0] 2 0

/-- A full queue; a unit that runs a solo operation whose D the next one reads as A; an INT tile at register 30. -/
def mtxFull : State := setCore mtx0 3 { coreAt mtx0 3 with mtxQ := List.replicate 4 { slot := 1, op := soloOp } }
def reader : MtxOp := .solo 5 5 0x6000 0x4000 0x2000 0x3000 none none 0
def mtxBehind : State := setCore mtxQueued 3 { coreAt mtxQueued 3 with mtxQ := [{ slot := 1, op := reader }], mtxRun := [{ slot := 1, op := soloOp }] }
def mtxTwo : State := setCore mtx0 3 { coreAt mtx0 3 with mtxRun := [{ slot := 1, op := soloOp }, { slot := 1, op := reader }] }
def intTile : State := setCore mtx0 3 { coreAt mtx0 3 with intTiles := [(1, 30)] }
/-- The first word of the result of the unit's one operation. -/
def firstResult (s : State) (k : Nat) : Option Word := (coreAt s 3).mtxRun.head?.map fun e => e.result.getD k 0

theorem w_matrix_unit : (coreAt mtxQueued 3).mtxQ = [{ slot := 1, op := soloOp }] ∧ (coreAt mtxQueued 3).mtxRun = []
    ∧ (thread (grp mtxQueued) 0).wait = none ∧ (thread (grp mtxQueued) 1).wait = none
    ∧ firstResult (run (.matrixOpStart 3) mtxQueued) 0 = some 73 ∧ firstResult (run (.matrixOpStart 3) mtxQueued) 1 = some 0
    ∧ (coreAt (run (.matrixOpStart 3) mtxQueued) 3).mtxQ = []
    ∧ mayStart mtxBehind 3 (coreAt mtxBehind 3).mtxRun { slot := 1, op := reader } = false ∧ run (.matrixOpStart 3) mtxBehind = mtxBehind
    ∧ (coreAt (running1 jointOp) 3).mtxRun.map (·.op) = [jointOp] ∧ rd (run (.matrixOpComplete ⟨3, 0⟩) (running1 jointOp)) 3 1 1 33 = 97
    ∧ (coreAt (run (.matrixOpComplete ⟨3, 0⟩) (running1 jointOp)) 3).mtxRun = []
    ∧ (coreAt (running1 soloOp) 3).mtxRun.map (·.op) = [soloOp] ∧ (launchOf (running1 soloOp) 3 1).isSome = true
    ∧ (coreAt (running1 soloOp) 3).mtxRun.map (·.result.length) = [1024]
    ∧ run (.matrixOpComplete ⟨3, 1⟩) mtxTwo = mtxTwo
    ∧ (coreAt (running1 appendOp) 3).mtxRun.map (·.op) = [appendOp]
    ∧ (run (.matrixOpComplete ⟨3, 0⟩) (running1 appendOp)).posted.length = 2 := by decide +kernel

theorem w_matrix_issue : mtxRoom (coreAt mtxFull 3) = false ∧ issuesB mtxFull i0 soloRegs [0, 1] = true
    ∧ nx (execMmas i0 5 5 10 11 12 13 none none mtxFull) = mtxFull
    ∧ (coreAt (nx (execMmas i0 0 5 10 11 12 13 none none mtx0)) 3).mtxQ = []
    ∧ reg (nx (execMmas i0 0 5 10 11 12 13 none none mtx0)) (dieReg 0 mtxMalformedCnt) = 1
    ∧ (coreAt intTile 3).intTiles.contains (1, 30) = true ∧ issuesB intTile i0 (regSpan 10 4 ++ regSpan 30 16) [0, 1] = true
    ∧ acquired intTile 3 1 0 = true ∧ loadsDone intTile 3 1 1 = true
    ∧ (coreAt (nx (execMappend i0 30 10 8 intTile)) 3).mtxQ = []
    ∧ reg (nx (execMappend i0 30 10 8 intTile)) (dieReg 0 mtxMalformedCnt) = 1 := by decide +kernel

/-! ### Accesses of threads (O47 to O49) -/

/-- Registers 10 and 11 of threads 0 and 1 hold the address 0x20000100 of stack 0, seen directly, 12 and 13 the value 5; the store to
them queued, or an access outstanding. -/
def accThr : Thread := { pc := 0x1000, regs := [(10, 0x20000100), (11, 0x8000), (12, 5)] }
def acc0 : State := { onCore accThr accThr with mem := mwrite [] 0x20000100 (leBytes 8 50) }
def acc1 : State := { onCore accThr { exited := true } with mem := mwrite [] 0x20000100 (leBytes 8 50) }
def line1 : Nat := lineOf 0x20000100
/-- The line at 0x20000100, in the core's L1. -/
def inL1 (m : Bool) : State :=
  setCore acc0 3 { coreAt acc0 3 with l1 := [{ line := line1, m := m, data := leBytes 8 50 ++ List.replicate 120 1 }] }
def bothPc (s : State) : Bool := (threadOf s 3 1 0).pc == 0x1010 && (threadOf s 3 1 1).pc == 0x1010

theorem w_accesses : issuesB acc0 i0 (10 :: 11 :: regsFor 20 4) [0, 1] = true ∧ acquired acc0 3 1 0 = true ∧ acquired acc0 3 1 1 = true
    ∧ accsOf (coreAt acc0 3) 1 0 = [] ∧ unitAppends (coreAt acc0 3) 1 0 = []
    ∧ sameBytePending acc0 3 1 0 (.dev 0x20000100) 8 = false ∧ placeOf acc0 3 1 (rd64 acc0 3 1 0 10) = some (.dev 0x20000100)
    ∧ 4 ∈ atomSizes .add ∧ redWf .add .int32 4 = true ∧ allDone acc0 3 1 0 = true ∧ allDone acc0 3 1 1 = true
    ∧ bothPc (nx (execLd i0 20 10 4 acc0)) = true ∧ bothPc (nx (execLdAcq i0 .d 20 10 4 acc0)) = true
    ∧ issuesB acc0 i0 (10 :: 11 :: regsFor 12 4) [0, 1] = true
    ∧ (coreAt (nx (execSt i0 10 12 4 acc0)) 3).storeQ.length = 2 ∧ (coreAt (nx (execStRel i0 .d 10 12 4 acc0)) 3).storeQ.length = 2
    ∧ issuesB acc0 i0 (10 :: 11 :: (regsFor 20 4 ++ regsFor 12 4)) [0, 1] = true
    ∧ (coreAt (nx (execAtom i0 .add .rlx .d 20 10 12 4 acc0)) 3).accs.length = 2
    ∧ (coreAt (nx (execRed i0 .add .int32 10 12 4 acc0)) 3).accs.length = 2
    ∧ issuesB acc0 i0 [10, 11] [0, 1] = true ∧ (coreAt (nx (execCinv i0 10 acc0)) 3).accs.length = 2
    ∧ issuesB acc0 i0 (10 :: 11 :: 12 :: 13 :: regsFor 20 8) [0, 1] = true
    ∧ rd64 (nx (execLdwait i0 20 10 12 acc0)) 3 1 0 20 = 50
    ∧ issuesB acc0 i0 [] [0, 1] = true ∧ visibleAt acc0 .s 3 1 0 = true ∧ bothPc (nx (execThreadFence i0 .s acc0)) = true := by
  decide +kernel

theorem w_unit_accesses : issuesB acc0 i0 ((List.range 8).map (20 + ·) ++ (List.range 4).map (10 + ·)) [0, 1] = true
    ∧ bothPc (nx (execSgather i0 20 10 acc0)) = true
    ∧ issuesB acc1 i0 [12] [0] = true ∧ loadsDone acc1 3 1 0 = true ∧ (launchOf acc1 3 1).isSome = true
    ∧ ((nx (execMwrite i0 1 12 4 acc1)).posted.map (·.lane)) = [0]
    ∧ issuesB acc0 i0 (12 :: regsFor 20 4) [0, 1] = true ∧ bothPc (nx (execLdl i0 20 12 4 acc0)) = true
    ∧ issuesB (alone 0x40 77 0) i0 (10 :: regsFor 11 4) [0] = true
    ∧ lsGet (nx (execStl i0 10 11 4 (alone 0x40 77 0))) 3 1 0x40 4 = [77, 0, 0, 0] := by decide +kernel

/-- The launch that a state's aim stops. -/
def aimStops (a : Aim) (d : Nat) : Bool := match a with
  | .stop t => ((launchAt t 9).bind (·.stopping)).map (·.detail) == some d
  | _ => false
def aimsAt (a : Aim) (d : Nat) : Bool := match a with
  | .dev x _ => x == d
  | _ => false
/-- Thread 0 has an acquire outstanding; a load. -/
def acquiring (acq : Bool) : State :=
  setCore acc0 3 { coreAt acc0 3 with accs := [{ slot := 1, lane := 0, seq := 3, dpa := 0x20000200, size := 4, op := .load 50 acq }] }

theorem w_accesses_wait : issuesB (acquiring true) i0 (10 :: 11 :: regsFor 20 4) [0, 1] = true ∧ acquired (acquiring true) 3 1 0 = false
    ∧ nx (execLd i0 20 10 4 (acquiring true)) = acquiring true
    ∧ issuesB (acquiring false) i0 [] [0, 1] = true ∧ visibleAt (acquiring false) .d 3 1 0 = false
    ∧ nx (execThreadFence i0 .d (acquiring false)) = acquiring false ∧ forwardableAll acc0 3 1 0 = true ∧ forwardableAll acc0 3 1 1 = true := by
  decide +kernel

def hostThr : State := { onCore { accThr with regs := [(10, 0x3000), (11, 0x10000), (12, 5)] } accThr with mem := [] }

theorem w_one_access : rd64 acc0 3 1 0 10 = direct 0x20000100 ∧ rd64 acc0 3 1 0 10 % 512 ≠ 0 ∧ aimStops (aim acc0 3 1 (rd64 acc0 3 1 0 10) 512 512 false) 0xFFFE = true
    ∧ xlate acc0 5 (rd64 acc0 3 1 0 12) = .none ∧ aimStops (aim acc0 3 1 5 1 1 true) 0xFFFF = true
    ∧ aimsAt (aim acc0 3 1 (rd64 acc0 3 1 0 10) 4 4 false) 0x20000100 = true ∧ reachable acc0 0x20000100 = true
    ∧ (l1Line (coreAt (inL1 false) 3) line1).isSome = true ∧ poisonIn (inL1 false) 0x20000100 4 = none
    ∧ aimsAt (aim (inL1 false) 3 1 (rd64 (inL1 false) 3 1 0 10) 4 4 false) 0x20000100 = true
    ∧ rd (loadThread (inL1 false) 3 1 0 20 10 4 false) 3 1 0 20 = 50
    ∧ l1Line (coreAt acc0 3) line1 = none ∧ allForwarded (coreAt acc0 3) 1 0 0 0x20000100 4 = false
    ∧ l1Used (coreAt acc0 3) < l1Capacity (coreAt acc0 3) ∧ lineReq (coreAt acc0 3) line1 = none
    ∧ ((loadThread acc0 3 1 0 20 10 4 false).uc.msgs.map (·.kind)) = [.getS]
    ∧ ((coreAt (storeThread acc0 3 1 0 10 12 4 none) 3).storeQ.map (·.bytes)) = [[5, 0, 0, 0]] := by decide +kernel

/-- Thread 0's address has a cached translation to stack 1, whose interface has failed. -/
def unpopulated : State :=
  { onCore { accThr with regs := [(10, 0x600000), (12, 5), (20, 9)] } accThr with
    stackIds := [(1, { cond := .failed })], xlat := { tlb := [{ leaf5 with dpa := 0x1020200000 }] } }

theorem w_other_access : (match aim hostThr 3 1 (rd64 hostThr 3 1 0 10) 4 4 true with | .host f a _ => (f, a) | _ => (9, 9)) = (0, 0x3000)
    ∧ ((coreAt (loadThread hostThr 3 1 0 20 10 4 false) 3).accs.map (·.host)) = [some (.host 0 0x3000)]
    ∧ mread (storeThread hostThr 3 1 0 10 12 4 none).hostMem 0x3000 4 = [5, 0, 0, 0]
    ∧ reachable unpopulated 0x1020200000 = false
    ∧ aimsAt (aim unpopulated 3 1 (rd64 unpopulated 3 1 0 10) 4 4 false) 0x1020200000 = true
    ∧ rd (loadThread unpopulated 3 1 0 20 10 4 false) 3 1 0 20 = 0
    ∧ reg (loadThread unpopulated 3 1 0 20 10 4 false) (dieReg 1 hbmUnpopCnt) = 1
    ∧ (l1Line (coreAt (inL1 true) 3) line1).any (fun y => y.m && y.data.length == 128) = true
    ∧ aimsAt (aim (inL1 true) 3 1 (rd64 (inL1 true) 3 1 0 10) 4 4 true) 0x20000100 = true
    ∧ rd (atomThread (inL1 true) 3 1 0 .add false 20 10 12 4) 3 1 0 20 = 50
    ∧ ((l1Line (coreAt (atomThread (inL1 true) 3 1 0 .add false 20 10 12 4) 3) line1).map fun y => y.data.take 4) = some [55, 0, 0, 0] := by
  decide +kernel

/-! ### The store queue, waits, and the coherence protocol (O50 to O53) -/

def qStore (a : Nat) (bs : List Byte) : QueuedStore := { slot := 1, lane := 0, seq := 4, dpa := a, bytes := bs, rel := none }
def queuedStore (s : State) (e : QueuedStore) : State := setCore s 3 { coreAt s 3 with storeQ := [e] }
def oneStore : QueuedStore := qStore 0x20000104 [7, 8]
def fullStore : QueuedStore := qStore 0x20000100 (List.replicate 128 6)
/-- Thread 0 waits in an LDWAIT for 51, on device memory or on host memory. -/
def ldWaiting (l : Loc) (v : Nat) : State :=
  { onCore { accThr with wait := some .ldwait } accThr with
    mem := mwrite [] 0x20000100 (leBytes 8 50), hostMem := mwrite [] 0x3000 (leBytes 8 50)
    memWaits := [{ who := .thread 3 1 0 20, loc := l, cond := 0, value := v, seen := 50 }] }
def waitFor (v : Nat) : State := { onCore { accThr with regs := [(10, 0x20000100), (11, 0x8000), (12, BitVec.ofNat 32 v)] } accThr with
  mem := mwrite [] 0x20000100 (leBytes 8 50) }

/-- A store behind an acquire of its thread. -/
def blocked : State := setCore (acquiring true) 3 { coreAt (acquiring true) 3 with storeQ := [oneStore] }

theorem w_store_queue : (coreAt (queuedStore (inL1 true) oneStore) 3).storeQ.find? (fun f => f.seq == 4) = some oneStore
    ∧ drainReady (queuedStore (inL1 true) oneStore) 3 oneStore = true ∧ drainReady (queuedStore acc0 oneStore) 3 oneStore = true
    ∧ drainReady blocked 3 oneStore = false ∧ run (.storeQueueDrain 3 4) blocked = blocked
    ∧ lineOf 0x20000104 = line1
    ∧ ((l1Line (coreAt (run (.storeQueueDrain 3 4) (queuedStore (inL1 true) oneStore)) 3) line1).map fun y => (y.data.drop 3).take 4) = some [0, 7, 8, 0]
    ∧ (coreAt (run (.storeQueueDrain 3 4) (queuedStore (inL1 true) oneStore)) 3).storeQ = []
    ∧ ((run (.storeQueueDrain 3 4) (queuedStore acc0 oneStore)).uc.msgs.map (·.kind)) = [.getM]
    ∧ ((run (.storeQueueDrain 3 4) (queuedStore acc0 fullStore)).uc.msgs.map (·.kind)) = [.getMFull] := by decide +kernel

theorem w_ldwait : aimsAt (aim (waitFor 50) 3 1 (rd64 (waitFor 50) 3 1 0 10) 8 8 false) 0x20000100 = true ∧ poisonIn (waitFor 50) 0x20000100 8 = none
    ∧ waitRead (waitFor 50) (.thread 3 1 0 20) (.dev 0x20000100) = 50 ∧ rd64 (ldwaitThread (waitFor 50) i0 3 1 0 20 10 12) 3 1 0 20 = 50
    ∧ (ldwaitThread (waitFor 51) i0 3 1 0 20 10 12).memWaits.length = 1
    ∧ (threadOf (ldwaitThread (waitFor 51) i0 3 1 0 20 10 12) 3 1 0).wait = some .ldwait
    ∧ (ldwaitOf (ldWaiting (.dev 0x20000100) 51) 3 1 0).isSome = true ∧ 21 < allocated (ldWaiting (.dev 0x20000100) 51) 3 1
    ∧ (threadOf (run (.ldwaitTimeout 3 1 0) (ldWaiting (.dev 0x20000100) 51)) 3 1 0).wait = none
    ∧ rd64 (run (.ldwaitTimeout 3 1 0) (ldWaiting (.dev 0x20000100) 51)) 3 1 0 20 = 50
    ∧ (ldwaitOf (ldWaiting (.host 0 0x3000) 50) 3 1 0).isSome = true
    ∧ (run (.ldwaitHostPoll 3 1 0) (ldWaiting (.host 0 0x3000) 50)).memWaits = []
    ∧ run (.ldwaitHostPoll 3 1 0) (ldWaiting (.host 0 0x3000) 51) = ldWaiting (.host 0 0x3000) 51 := by decide +kernel

/-- Messages in flight for the line at 0x20000100, and what the directory says of it. -/
def flight (ms : List Msg) (d : Option DirSt) : State :=
  { acc0 with uc := { msgs := ms, dir := d.toList.map fun x => (line1, { way := 0, st := x }) } }
def toHome3 (k : MsgKind) : Msg := { src := .core 3, dst := .home, line := line1, kind := k }
def fromHome (c : Nat) (k : MsgKind) : Msg := { src := .home, dst := .core c, line := line1, kind := k }
def kinds (s : State) : List Msg := s.uc.msgs
def oldestB (s : State) (m : Msg) (o : List Msg) : Bool := takeMsg (fun x => x.line == m.line) s.uc.msgs == some (m, o)
def homeFreeB (s : State) (l : Nat) : Bool :=
  !s.power.shutdown && !s.power.deep && diePwr s (sliceOf l) != .retention && !busy s l && !s.uc.waitq.any (fun w => w.line == l)
    && reqRoom s l && decide ((s.uc.dir.filter fun p => dirSet p.1 == dirSet l).length < 16)
    && (match ucLine s l with
        | some x => x.data.length == 128
        | none => true)

theorem homeFree_of {s : State} {l : Nat} (h : homeFreeB s l = true) : HomeFree s l := by
  simp only [homeFreeB, Bool.and_eq_true, Bool.not_eq_true', bne_iff_ne, decide_eq_true_eq] at h
  obtain ⟨⟨⟨⟨⟨⟨⟨a, b⟩, c⟩, d⟩, e⟩, f⟩, g⟩, k⟩ := h
  refine ⟨a, b, c, d, e, f, g, fun x hx => ?_⟩
  rw [hx] at k
  exact beq_iff_eq.mp k

/-- A request of core 3 is the only message in flight, its home is free, and the home sends messages. -/
def homeSends (k : MsgKind) (d : Option DirSt) (o : State → Host.Outcome State Fault Refusal) (ms : List Msg) (after : Option DirSt) : Bool :=
  let s := flight [toHome3 k] d
  oldestB s (toHome3 k) [] && homeFreeB s line1 && kinds (nx (o s)) == ms && dirSt (nx (o s)) line1 == after
def lineData : List Byte := leBytes 8 50 ++ List.replicate 120 0

theorem w_home : homeSends .getS none (execGets 3 line1) [fromHome 3 (.data false 0 { bytes := lineData })] (some (.s [3])) = true
    ∧ homeSends .getS (some (.o 5)) (execGets 3 line1) [fromHome 5 (.fwdS (.core 3))] (some (.s [5, 3])) = true
    ∧ homeSends .getM none (execGetm 3 line1) [fromHome 3 (.data true 0 { bytes := lineData })] (some (.o 3)) = true
    ∧ homeSends .getM (some (.s [5])) (execGetm 3 line1) [fromHome 5 (.inv (.core 3)), fromHome 3 (.data true 1 { bytes := lineData })] (some (.o 3)) = true
    ∧ homeSends .getM (some (.o 5)) (execGetm 3 line1) [fromHome 5 (.fwdM (.core 3) false)] (some (.o 3)) = true
    ∧ homeSends .getMFull none (execGetmFull 3 line1) [fromHome 3 (.gnt 0)] (some (.o 3)) = true
    ∧ oldestB { flight [toHome3 .getS] none with uc := { msgs := [toHome3 .getS], txns := [(line1, { req := toHome3 .getM })] } }
        (toHome3 .getS) [] = true
    ∧ (run (.gets 3 line1) { flight [] none with uc := { msgs := [toHome3 .getS], txns := [(line1, { req := toHome3 .getM })] } }).uc.waitq
        = [toHome3 .getS] := by decide +kernel

/-- ATOM far, mode 1, and RED. -/
def farMode (s : State) : State := { s with settings := { run := [(idAtomMode, 1)] } }
def atomAcc (op : AccOp) : MemAcc := { slot := 1, lane := 0, seq := 4, dpa := 0x20000100, size := 4, op := op }
def atomMsg : Msg := toHome3 (.atom 4 0 .add [5, 0, 0, 0])
def redMsg : Msg := toHome3 (.red 4 0 .add .int32 [5, 0, 0, 0])
def redFlight : State :=
  setCore (flight [redMsg] none) 3 { coreAt acc0 3 with accs := [atomAcc (.red .add .int32 [5, 0, 0, 0])] }

theorem w_far : oldestB (farMode (flight [atomMsg] none)) atomMsg [] = true ∧ homeFreeB (farMode (flight [atomMsg] none)) line1 = true
    ∧ setting (farMode (flight [atomMsg] none)) idAtomMode = 1
    ∧ kinds (run (.atomMessage 3 line1) (farMode (flight [atomMsg] none))) = [fromHome 3 (.atomRes 4 [50, 0, 0, 0])]
    ∧ (ucBytes (run (.atomMessage 3 line1) (farMode (flight [atomMsg] none))) line1).take 4 = [55, 0, 0, 0]
    ∧ oldestB redFlight redMsg [] = true ∧ homeFreeB redFlight line1 = true ∧ redSize .int32 = 4
    ∧ (ucBytes (run (.redMessage 3 line1) redFlight) line1).take 4 = [55, 0, 0, 0]
    ∧ (coreAt (run (.redMessage 3 line1) redFlight) 3).accs = []
    ∧ homeFreeB acc0 line1 = true ∧ dirEnt acc0 line1 = none ∧ ucLine acc0 line1 = none
    ∧ (ucBytes (run (.farWrite 0x20000102 [1, 2]) acc0) line1).take 5 = [50, 0, 1, 2, 0]
    ∧ kinds (run (.coherentRead 0x20000100 2) acc0) = [{ src := .home, dst := .agent, line := line1, kind := .data false 0 { bytes := [50, 0] } }]
    ∧ mread (run (.bypassWrite 0x20000102 [1, 2]) acc0).mem 0x20000100 4 = [50, 0, 1, 2]
    ∧ reachable acc0 (lineAddr line1) = true ∧ (ucLine (run (.invalidation line1) acc0) line1) = none := by decide +kernel

def predicted : State :=
  { ready with windows := 4, uc := { pred := [(1024 + 5, { tag := 1, last := 2, ctr := 3 }), (5, { tag := 1, last := 2, ctr := 0 })] } }

theorem w_predictor : ((run .predictorDecay predicted).uc.pred.map (·.2.ctr)) = [2, 0] ∧ memSpaceOn predicted 0 = true
    ∧ predicted.windows.getLsbD (1 + 1) = true ∧ ((run (.ucPredFlush 1 1 0xF) predicted).uc.pred.map (·.1)) = [5] := by decide +kernel

/-- A message for core 3, which holds the line or has asked for it. -/
def held1 (m : Bool) (d : Nat) (hold : Bool) : L1Line := { line := line1, m := m, dirty := d, data := List.replicate 128 9, hold := hold }
def atCore (k : MsgKind) (y : Option L1Line) (r : Option LineReq) : State :=
  setCore (flight [fromHome 3 k] none) 3 { coreAt acc0 3 with l1 := y.toList, reqs := r.toList }
def nines : List Byte := List.replicate 128 9
def coreSays (k : MsgKind) (y : Option L1Line) (r : Option LineReq) (o : State → Host.Outcome State Fault Refusal) (ms : List Msg)
    (z : Option L1Line) : Bool :=
  oldestB (atCore k y r) (fromHome 3 k) [] && kinds (nx (o (atCore k y r))) == ms && l1Line (coreAt (nx (o (atCore k y r))) 3) line1 == z
def reqd (e : Option Nat) (a : Nat) (g : Option (Bool × LineCopy)) : LineReq := { line := line1, kind := 0, seq := 4, expected := e, acks := a, grant := g }

theorem w_core_answers : coreSays (.fwdS (.core 5)) (some (held1 true 3 false)) none (execFwdS 3 line1)
        [{ src := .core 3, dst := .core 5, line := line1, kind := .data false 0 { bytes := nines } }, toHome3 (.wb true { bytes := nines, dirty := 3 })]
        (some (held1 false 0 false)) = true
    ∧ coreSays (.fwdM (.core 5) false) (some (held1 true 3 false)) none (execFwdM 3 line1)
        [{ src := .core 3, dst := .core 5, line := line1, kind := .data true 0 { bytes := nines, dirty := 3 } }] none = true
    ∧ coreSays .recallLine (some (held1 true 3 false)) none (execRecallLine 3 line1) [toHome3 (.wb true { bytes := nines, dirty := 3 })] none = true
    ∧ coreSays (.inv (.core 5)) (some (held1 false 0 false)) none (execInv 3 line1)
        [{ src := .core 3, dst := .core 5, line := line1, kind := .invAck }] none = true
    ∧ coreSays .recallLine none none (execRecallLine 3 line1) [toHome3 .noline] none = true
    ∧ coreSays .recallLine (some (held1 true 3 true)) none (execRecallLine 3 line1) []
        (some { held1 true 3 true with deferred := [fromHome 3 .recallLine] }) = true
    ∧ kinds (run (.claimHoldEnd 3 line1) (setCore acc0 3 { coreAt acc0 3 with l1 := [{ held1 true 3 true with deferred := [fromHome 3 .recallLine] }] }))
        = [toHome3 (.wb true { bytes := nines, dirty := 3 })] := by decide +kernel

theorem w_core_grants : (heldBanks (coreAt acc0 3)).length ≤ 4 ∧ (coreAt acc0 3).accs = []
    ∧ lineReq (coreAt (atCore (.data false 0 { bytes := nines }) none (some (reqd none 0 none))) 3) line1 = some (reqd none 0 none)
    ∧ coreSays (.data false 0 { bytes := nines }) none (some (reqd none 0 none)) (execData (some 3) line1) [toHome3 .unblock] (some (held1 false 0 false)) = true
    ∧ coreSays (.data true 1 { bytes := nines }) none (some (reqd none 0 none)) (execData (some 3) line1) [] none = true
    ∧ lineReq (coreAt (run (.data (some 3) line1) (atCore (.data true 1 { bytes := nines }) none (some (reqd none 0 none)))) 3) line1
        = some (reqd (some 1) 0 (some (true, { bytes := nines })))
    ∧ kinds (run (.gnt 3 line1) (atCore (.gnt 0) none (some (reqd none 0 none)))) = [toHome3 .unblock]
    ∧ kinds (run (.invAck (some 3) line1) (atCore .invAck none (some (reqd (some 1) 0 (some (true, { bytes := nines })))))) = [toHome3 .unblock] := by
  decide +kernel

def resultAt : State :=
  setCore (flight [fromHome 3 (.atomRes 4 [50, 0, 0, 0])] none) 3
    { coreAt acc0 3 with accs := [atomAcc (.atom .add [5, 0, 0, 0] 20 false)], reqs := [{ line := line1, kind := 3, seq := 4 }] }
def openTxn (x : Txn) (k : MsgKind) : State := { flight [toHome3 k] (some (.o 3)) with uc := { (flight [toHome3 k] (some (.o 3))).uc with txns := [(line1, x)] } }

theorem w_home_answers : oldestB resultAt (fromHome 3 (.atomRes 4 [50, 0, 0, 0])) [] = true
    ∧ rd (run (.atomRes 3 line1) resultAt) 3 1 0 20 = 50 ∧ (coreAt (run (.atomRes 3 line1) resultAt) 3).accs = []
    ∧ (coreAt (run (.wbDone 3 line1) (setCore (flight [fromHome 3 .wbDone] none) 3 { coreAt acc0 3 with wbs := [line1] })) 3).wbs = []
    ∧ oldestB (flight [toHome3 (.wb false { bytes := nines, dirty := 5 })] (some (.o 3))) (toHome3 (.wb false { bytes := nines, dirty := 5 })) [] = true
    ∧ kinds (run (.wb 3 line1) (flight [toHome3 (.wb false { bytes := nines, dirty := 5 })] (some (.o 3)))) = [fromHome 3 .wbDone]
    ∧ (ucBytes (run (.wb 3 line1) (flight [toHome3 (.wb false { bytes := nines, dirty := 5 })] (some (.o 3)))) line1).take 2 = [9, 9]
    ∧ ((ucBytes (run (.wb 3 line1) (flight [toHome3 (.wb false { bytes := nines, dirty := 5 })] (some (.o 3)))) line1).drop 32).take 2 = [0, 0]
    ∧ busy (run (.unblock 3 line1) (openTxn { req := toHome3 .getM } .unblock)) line1 = false
    ∧ ((txnOf (run (.noline 3 line1) (openTxn { req := toHome3 .getM, owner := some 3, unblock := true } .noline)) line1).map (·.noline)) = some true
    ∧ ((txnOf (run (.invAck none line1) (openTxn { req := { toHome3 .getM with src := .agent, kind := .farWrite 0 [1] }, acks := 2 } .invAck)) line1).map
        (·.acks)) = some 1 := by decide +kernel

/-! ### Frames and flits whose checks hold, by their shape (O46 to O48) -/

theorem leNat_leBytes : ∀ (n x : Nat), leNat (leBytes n x) = x % 256 ^ n
  | 0, x => by simp [leBytes, leNat, Nat.mod_one]
  | n + 1, x => by
    have h : 256 ^ (n + 1) = 256 * 256 ^ n := by rw [Nat.pow_succ, Nat.mul_comm]
    rw [leBytes, leNat, leNat_leBytes n, h, Nat.mod_mul]
    simp

theorem leBytes_length : ∀ (n x : Nat), (leBytes n x).length = n
  | 0, _ => rfl
  | n + 1, x => by rw [leBytes, List.length_cons, leBytes_length n]

theorem leNat_lt : ∀ bs : List Byte, leNat bs < 256 ^ bs.length
  | [] => by simp [leNat]
  | b :: bs => by
    have h1 := leNat_lt bs
    have h2 := b.isLt
    rw [leNat, List.length_cons, Nat.pow_succ]
    omega

theorem field_at {a r : List Byte} {off n x : Nat} (h : a.length = off) (hx : x < 256 ^ n) : field (a ++ (leBytes n x ++ r)) off n = x := by
  rw [field, List.drop_left' h, List.take_left' (leBytes_length n x), leNat_leBytes, Nat.mod_eq_of_lt hx]

theorem field_lt (bs : List Byte) (off n : Nat) : field bs off n < 256 ^ n := by
  refine Nat.lt_of_lt_of_le (leNat_lt _) (Nat.pow_le_pow_right (by omega) ?_)
  rw [List.length_take]
  exact Nat.min_le_left _ _

theorem crc64Bits_lt : ∀ n c, c < 2 ^ 64 → crc64Bits n c < 2 ^ 64
  | 0, _, h => h
  | n + 1, c, h => by
    rw [crc64Bits]
    refine crc64Bits_lt n _ ?_
    split
    · exact Nat.xor_lt_two_pow (Nat.mod_lt _ (by decide)) (by decide)
    · omega

theorem crc64_lt (bs : List Byte) : crc64 bs < 2 ^ 64 := by
  have h : ∀ (bs : List Byte) (c : Nat), c < 2 ^ 64 → bs.foldl (fun c b => crc64Bits 8 (c ^^^ (b.toNat * 2 ^ 56))) c < 2 ^ 64 := by
    intro bs
    induction bs with
    | nil => exact fun c h => h
    | cons b bs ih =>
      intro c hc
      rw [List.foldl_cons]
      refine ih _ (crc64Bits_lt 8 _ (Nat.xor_lt_two_pow hc ?_))
      have := b.isLt
      omega
  exact Nat.xor_lt_two_pow (h bs _ (by decide)) (by decide)

theorem flit_good {c : Nat} {p : List Byte} (h : p.length ≤ 240) : flitGood (flitBytes c p) = true := by
  have hl : (leBytes 8 c ++ p ++ zeros (240 - p.length)).length = 248 := by
    rw [List.length_append, List.length_append, leBytes_length, zeros, List.length_replicate]; omega
  rw [flitGood, flitBytes, List.take_left' hl]
  have := field_at (n := 8) (r := []) hl (Nat.lt_of_lt_of_eq (crc64_lt (leBytes 8 c ++ p ++ zeros (240 - p.length))) (by decide))
  rw [List.append_nil] at this
  rw [this]
  exact decide_eq_true rfl

theorem rotBlock_lt {x k : Nat} (hx : x < 2 ^ 256) (hk : k ≤ 256) : rotBlock x k < 2 ^ 256 := by
  have e : 2 ^ 256 = 2 ^ k * 2 ^ (256 - k) := by rw [← Nat.pow_add]; congr 1; omega
  have h1 : x / 2 ^ k < 2 ^ (256 - k) := Nat.div_lt_of_lt_mul (by rw [← e]; exact hx)
  have h2 : x % 2 ^ k + 1 ≤ 2 ^ k := Nat.mod_lt _ (Nat.two_pow_pos k)
  have h3 := Nat.mul_le_mul_right (2 ^ (256 - k)) h2
  rw [Nat.add_mul, Nat.one_mul] at h3
  rw [rotBlock, e]
  omega

theorem rowSum_lt (row : Nat) (f : List Byte) : rowSum row f < 2 ^ 256 := by
  have h : ∀ (l : List Nat) (a : Nat), (∀ j ∈ l, j < 45) → a < 2 ^ 256 →
      l.foldl (fun a j => a ^^^ rotBlock (field f (32 * j) 32) (shiftAt row j)) a < 2 ^ 256 := by
    intro l
    induction l with
    | nil => exact fun a _ h => h
    | cons j l ih =>
      intro a hj ha
      rw [List.foldl_cons]
      refine ih _ (fun i hi => hj i (List.mem_cons_of_mem _ hi)) (Nat.xor_lt_two_pow ha (rotBlock_lt ?_ ?_))
      · exact Nat.lt_of_lt_of_eq (field_lt f (32 * j) 32) (by decide)
      · have := hj j List.mem_cons_self
        unfold shiftAt
        split <;> omega
  exact h _ _ (fun j hj => List.mem_range.mp hj) (by decide)

theorem encoded (f : List Byte) (h : f.length = 1440) : syndromeZero (encodeFrame f) = true := by
  have h0 : rowSum 0 f < 256 ^ 32 := Nat.lt_of_lt_of_eq (rowSum_lt 0 f) (by decide)
  have h1 : rotBlock (rowSum 0 f) 1 ^^^ rowSum 1 f < 2 ^ 256 := Nat.xor_lt_two_pow (rotBlock_lt (rowSum_lt 0 f) (by omega)) (rowSum_lt 1 f)
  have h2 : rotBlock (rotBlock (rowSum 0 f) 1 ^^^ rowSum 1 f) 1 ^^^ rowSum 2 f < 2 ^ 256 :=
    Nat.xor_lt_two_pow (rotBlock_lt h1 (by omega)) (rowSum_lt 2 f)
  have e : (256 : Nat) ^ 32 = 2 ^ 256 := by decide
  have hw : encodeFrame f = f ++ (leBytes 32 (rowSum 0 f) ++ (leBytes 32 (rotBlock (rowSum 0 f) 1 ^^^ rowSum 1 f)
      ++ leBytes 32 (rotBlock (rotBlock (rowSum 0 f) 1 ^^^ rowSum 1 f) 1 ^^^ rowSum 2 f))) := by
    simp only [encodeFrame, parity, List.append_assoc]
  have hl : (encodeFrame f).length = 1536 := by simp [hw, leBytes_length, h]
  have f0 : field (encodeFrame f) 1440 32 = rowSum 0 f := by rw [hw, field_at h h0]
  have f1 : field (encodeFrame f) 1472 32 = rotBlock (rowSum 0 f) 1 ^^^ rowSum 1 f := by
    rw [hw, ← List.append_assoc, field_at (by rw [List.length_append, leBytes_length, h]) (by rw [e]; exact h1)]
  have f2 : field (encodeFrame f) 1504 32 = rotBlock (rotBlock (rowSum 0 f) 1 ^^^ rowSum 1 f) 1 ^^^ rowSum 2 f := by
    have := field_at (r := []) (a := f ++ leBytes 32 (rowSum 0 f) ++ leBytes 32 (rotBlock (rowSum 0 f) 1 ^^^ rowSum 1 f)) (off := 1504)
      (by rw [List.length_append, List.length_append, leBytes_length, leBytes_length, h]) (by rw [e]; exact h2)
    rw [List.append_nil, List.append_assoc, List.append_assoc, ← hw] at this
    exact this
  have ht : (encodeFrame f).take 1440 = f := by rw [hw, List.take_left' h]
  rw [syndromeZero, Bool.and_eq_true]
  refine ⟨decide_eq_true hl, decide_eq_true ?_⟩
  rw [ht, f0, f1, f2]
  rfl

/-- A Hawser frame with a header and a payload from slot 0. -/
def hwsBody (h : Nat) (p : List Byte) : List Byte := leBytes 8 h ++ p ++ zeros (1424 - p.length)
def hwsFrame (h : Nat) (p : List Byte) : List Byte := encodeFrame (hwsBody h p ++ leBytes 8 (crc64 (hwsBody h p)))

theorem hwsFrame_good {h : Nat} {p : List Byte} (hp : p.length ≤ 1424) : syndromeZero (hwsFrame h p) = true ∧ frameGood (hwsFrame h p) = true := by
  have hl : (hwsBody h p).length = 1432 := by
    rw [hwsBody, List.length_append, List.length_append, leBytes_length, zeros, List.length_replicate]; omega
  refine ⟨encoded _ (by rw [List.length_append, leBytes_length, hl]), ?_⟩
  unfold frameGood hwsFrame encodeFrame
  rw [List.append_assoc, List.append_assoc, List.append_assoc, List.take_left' hl, field_at hl (Nat.lt_of_lt_of_eq (crc64_lt _) (by decide))]
  exact decide_eq_true rfl

/-! ### Lenot (O46): link 0, from port 0 of C-die 0 to port 1 of C-die 1 -/

def portA : PortNo := { node := 0, port := 0 }
def lnt (p q : LntPort) : State := setLntPort (setLntPort ready 0 p) 5 q
def upPort : LntPort := { state := 2, version := 3, bundles := 255, next := 9, expect := 4 }
def regMsg : LntMsg := { cls := 5, src := 1, dst := 0, type := 0xA0, txn := 6, addr := 0x404, arg := 0, body := [] }
def outMsg : LntMsg := { regMsg with src := 0, dst := 1, cls := 0, type := 1 }
def flitOf (kind ack seq heads : Nat) (p : List Byte) : List Byte := flitBytes (ctrlWord 11 0 heads false kind ack seq) p
def held9 : LntHeld := { seq := 9, heads := 1, payload := zeros 240 }
/-- A flit on its way on bundle 0, and the ports of link 0 with it on the wire to port 0; the scrambler registers at 0 give key bits of 0. -/
def onWire (f : List Byte) : LntFlight := { bundle := 0, lanes := toLanes (mapOf ready 0 0) (laneRegisters [] 0) f }
def inFlit (x : LntPort) (f : List Byte) : State := lnt { x with wire := [onWire f] } upPort

def ctrls (s : State) (k : Nat) : List Nat := (lntPort s k).wire.map fun f => field (ofLanes (mapOf s k f.bundle) (laneRegisters [] f.bundle) f.lanes) 0 8 % 2 ^ 28

theorem w_lenot_sends : portKey portA.node.val portA.port.val = 0 ∧ peerKey 0 = some 5 ∧ (lnt upPort upPort).power.shutdown = false
    ∧ ctrls (run (.lenotFlitRound portA []) (lnt upPort upPort)) 5 = List.replicate 8 (ctrlWord 0 0 0 false 1 3 9)
    ∧ ctrls (run (.lenotFlitRound portA []) (lnt { upPort with waiting := [{ msg := outMsg }] } upPort)) 5
        = ctrlWord 0 0 0 false 0 3 9 :: List.replicate 7 (ctrlWord 0 0 0 false 1 3 10)
    ∧ ((lntPort (run (.lenotFlitRound portA []) (lnt { upPort with waiting := [{ msg := outMsg }] } upPort)) 0).held.map
        fun h => (h.seq, h.heads, h.payload.take 16)) = [(9, 1, msgBytes outMsg)]
    ∧ popcount8 255 = 8 ∧ outMsg.body.length ≤ 128 := by decide +kernel

theorem w_lenot_credits_free : ∀ q, tget 0 upPort.used q = 0 := fun _ => rfl

/-- A map with a failing lane: its used lanes pass it over; byte 3 then travels on lane 4, and every lane's bytes come back. -/
def oddLanes : LaneMap := { skip := [1, 3] }
def count256 : List Byte := (List.range 256).map (BitVec.ofNat 8)

theorem w_lanes : (usedLanes oddLanes).length = 16 ∧ count256.length = 256
    ∧ ((toLanes oddLanes [] count256).getD 5 []).take 3 = [3, 19, 35] ∧ (toLanes oddLanes [] count256).getD 3 [] = zeros 16
    ∧ ofLanes oddLanes (List.replicate 16 5) (toLanes oddLanes (List.replicate 16 5) count256) = count256
    ∧ (toLanes oddLanes (List.replicate 16 5) count256).getD 5 [] ≠ (toLanes oddLanes [] count256).getD 5 [] := by decide +kernel

/-- PRBS23 by hand from its polynomial: where the newest bit alone is 1, the sequence is next 1 after 17 and 22 bits (R337). -/
theorem test_prbs23 : (prbs23 (1 <<< 22)).1 = 0 ∧ (prbs23 (prbs23 (1 <<< 22)).2).1 = 2 ^ 1 + 2 ^ 6 := by decide +kernel

theorem xor_plain {l : List Byte} (h : l.length = 16) : xorBytes l (zeros 16) = l := by
  refine List.ext_getElem ?_ fun i h1 h2 => ?_
  · rw [xorBytes, List.length_zipWith, zeros, List.length_replicate, h, Nat.min_self]
  · simp only [xorBytes, List.getElem_zipWith, zeros, List.getElem_replicate]
    exact BitVec.xor_zero

def plainMap : LaneMap := { skip := [] }

/-- Lanes whose keys are 0 carry the flit as it is. -/
theorem plain_lanes {f : List Byte} (h : f.length = 256) : ofLanes plainMap (List.replicate 16 0) (toLanes plainMap (List.replicate 16 0) f) = f := by
  have hk : flitKey 0 = zeros 16 := by decide +kernel
  have hu : ∀ i, i < 16 → (usedLanes plainMap).getD i 18 = i := by decide +kernel
  have hi : ∀ i, i < 18 → (usedLanes plainMap).idxOf? i = if i < 16 then some i else none := by decide +kernel
  have hw : ∀ i, (List.replicate 16 (0 : BitVec 23)).getD i 0 = 0 := by
    intro i; rw [List.getD_eq_getElem?_getD, List.getElem?_replicate]; split <;> rfl
  have hl : ∀ i, (laneOf f i).length = 16 := fun i => by rw [laneOf, List.length_map, List.length_range]
  have ht : ∀ i, i < 16 → (toLanes plainMap (List.replicate 16 0) f).getD i [] = laneOf f i := by
    intro i h16
    have h18 : i < 18 := by omega
    simp only [toLanes, List.getD_eq_getElem?_getD, List.getElem?_map, List.getElem?_range h18, Option.map_some, hi i h18, h16, if_true,
      Option.getD_some]
    rw [← List.getD_eq_getElem?_getD, hw, hk, xor_plain (hl i)]
  refine List.ext_getElem (by rw [ofLanes, List.length_map, List.length_range, h]) fun k h1 h2 => ?_
  have h16 : k % 16 < 16 := Nat.mod_lt _ (by decide)
  have hr : k / 16 < 16 := by omega
  simp only [ofLanes, List.getElem_map, List.getElem_range]
  rw [List.getD_eq_getElem?_getD (l := List.map _ _), List.getElem?_map, List.getElem?_range h16, Option.map_some, Option.getD_some, hw, hk, hu _ h16,
    ht _ h16, xor_plain (hl _), List.getD_eq_getElem?_getD, laneOf, List.getElem?_map, List.getElem?_range hr, Option.map_some,
    Option.getD_some, Nat.div_add_mod, List.getD_eq_getElem?_getD, List.getElem?_eq_getElem h2, Option.getD_some]

/-- The port hears the flit that was sent, and its check holds. -/
theorem w_lenot_hears (x : LntPort) (hx : x.maps = []) (hr : x.rx = []) (c : Nat) (p : List Byte) (h : p.length ≤ 240) :
    heard (inFlit x (flitBytes c p)) 0 (onWire (flitBytes c p)) = flitBytes c p ∧ flitGood (flitBytes c p) = true := by
  refine ⟨?_, flit_good h⟩
  have hl : (flitBytes c p).length = 256 := by
    simp only [flitBytes, List.length_append, leBytes_length, zeros, List.length_replicate]; omega
  have e : lntPort (inFlit x (flitBytes c p)) 0 = { x with wire := [onWire (flitBytes c p)] } := rfl
  have em : mapOf (inFlit x (flitBytes c p)) 0 0 = plainMap := by rw [mapOf, e]; simp only [hx]; show ({ skip := fusedSkip ready 0 0 } : LaneMap) = plainMap; decide +kernel
  have er : laneRegisters (lntPort (inFlit x (flitBytes c p)) 0).rx 0 = List.replicate 16 0 := by rw [e]; simp only [hr]; rfl
  have eo : (onWire (flitBytes c p)).lanes = toLanes plainMap (List.replicate 16 0) (flitBytes c p) := rfl
  rw [heard, show (onWire (flitBytes c p)).bundle = 0 from rfl, em, er, eo, plain_lanes hl]

theorem w_lenot_payloads : (zeros 240).length ≤ 240 ∧ (msgBytes regMsg).length ≤ 240 ∧ upPort.maps = [] ∧ upPort.rx = [] := by decide +kernel

/-- A flit at port 0: its control word's KIND, SEQ, first HEAD_MASK bits and RREQ. -/
def ctrlOf (kind ack seq heads : Nat) (p : List Byte) : Nat × Nat × Nat × Bool :=
  let c := field (flitOf kind ack seq heads p) 0 8
  (bits c 24 4, c % 4096, bits c 29 15, bit c 28)

def heldIn (f : List Byte) : State := inFlit { upPort with held := [held9] } f

theorem w_lenot_receives : ctrlOf 0 8 4 1 (msgBytes regMsg) = (0, 4, 1, false)
    ∧ readMsg (((flitOf 0 8 4 1 (msgBytes regMsg)).drop 8).take 240) 15 = some regMsg ∧ regMsg.dst.val = portA.node.val
    ∧ ctrlOf 0 8 3 1 (msgBytes regMsg) = (0, 3, 1, false) ∧ (4 + 4096 - 3) % 4096 = 1
    ∧ ctrlOf 0 8 5 1 (msgBytes regMsg) = (0, 5, 1, false) ∧ (4 + 4096 - 5) % 4096 = 4095
    ∧ ctrlOf 1 9 0 0 [] = (1, 0, 0, false) ∧ bits (field (flitOf 1 9 0 0 []) 0 8) 12 12 = held9.seq
    ∧ (lntPort (heldIn (flitOf 1 9 0 0 [])) 0).held = [held9] := by decide +kernel

/-- A flit that arrives whole is not refused; one of a reserved KIND is. -/
theorem w_lenot_corrupted : flitRefused (flitOf 0 8 4 1 []) = false ∧ flitRefused (flitOf 5 8 4 0 []) = true := by
  have h0 : decide (5 ≤ bits (field (flitOf 0 8 4 1 []) 0 8) 24 4) = false := by decide +kernel
  have h5 : decide (5 ≤ bits (field (flitOf 5 8 4 0 []) 0 8) 24 4) = true := by decide +kernel
  exact ⟨by rw [flitRefused, h0, flitOf, flit_good (by decide)]; rfl, by rw [flitRefused, h5, Bool.or_true]⟩

theorem w_lenot_replays : (lntPort (run (.lenotReplayTimerExpiry portA) (lnt { upPort with held := [held9] } upPort)) 0).resend = [9]
    ∧ (lnt { upPort with restarted := some 0 } upPort).hubTime = 0 ∧ upPort.restarted = none
    ∧ 1 < setting (lnt { upPort with held := [held9] } upPort) idLntRetrainReplays := by decide +kernel

def sleepIn (x : LntPort) (kind : Nat) : State := inFlit x (flitOf kind 8 9 0 [])
def consented : LntPort := { upPort with sentAck := true }

theorem w_lenot_sleep : ctrlOf 2 8 9 0 [] = (2, 9, 0, false) ∧ ctrlOf 3 8 9 0 [] = (3, 9, 0, false) ∧ ctrlOf 4 8 9 0 [] = (4, 9, 0, false)
    ∧ (lntPort (sleepIn upPort 2) 0).held = [] ∧ quietPort (sleepIn upPort 2) upPort = true
    ∧ quietPort (sleepIn upPort 2) { upPort with busyAt := some 0 } = false
    ∧ (lntPort (setLntPort (sleepIn consented 3) 5 consented) 5).sentAck = true ∧ (lntPort (sleepIn consented 3) 0).sentAck = true
    ∧ setting (lnt upPort upPort) idLntSleepIdle ≠ 0 ∧ idleSince (lnt upPort upPort) none = true ∧ idleSince (lnt upPort upPort) (some 0) = false
    ∧ (lntPort (run (.lenotSleepIdleExpiry portA) (lnt upPort upPort)) 0).asking = true
    ∧ (lntPort (run (.lenotWake portA) (lnt { upPort with state := 3 } { upPort with state := 3 })) 5).state = 2 := by decide +kernel

theorem w_lenot_retrains : (lntPort (run (.lenotRetrain portA) (lnt upPort upPort)) 5).state = 1 ∧ bit upPort.bundles 7 = true
    ∧ (lntPort (run (.laneLockLoss portA 7 3) (lnt upPort upPort)) 5).state = 1
    ∧ (lntPort (run (.lenotRetrainComplete portA [] [] true) (lnt { upPort with state := 1 } { upPort with state := 1 })) 5).state = 2
    ∧ (run (.lenotRetrainComplete portA [] [] false) (lnt { upPort with state := 1 } { upPort with state := 1 })).err.fatalCode = 0x1013
    ∧ (lnt { upPort with state := 1 } upPort).err.fatal = false := by decide +kernel

theorem w_lane_test : (lntPort (run (.lenotLaneTestComplete 0 [] []) { ready with start := { ready.start with phase := .dies } }) 5).bundles = 255
    ∧ (lntPort ready (linkPorts 0).1).state ≤ 1 := by decide +kernel

def changing (marks dones : List Nat) : State :=
  { ready with lnt := { changes := [{ src := 0, dst := 1, marks := marks, dones := dones, route := [1, 2] }] } }

theorem w_route_change : inNetwork (changing [3] []) 0 1 3 = false
    ∧ ((run (.mark 0 1 3) (changing [3] [])).lnt.changes.map fun c => (c.marks, c.dones)) = [([], [3])]
    ∧ routeOf (run (.markDone 0 1 3) (changing [] [3])) 0 1 = some [1, 2]
    ∧ ((run (.markDone 0 1 3) (changing [] [3, 4])).lnt.changes.map fun c => c.dones) = [[4]] := by decide +kernel

def arrived : State := { lnt upPort upPort with lnt := { (lnt upPort upPort).lnt with inbox := [(0, regMsg)], routes := [(1, [0])] } }

theorem w_register_reply : lntNext arrived 0 regMsg.dst.val regMsg.src.val = some (0, 0) ∧ arrived.lnt.changes = []
    ∧ ((lntPort (run (.registerAccessMessage 0) arrived) 0).waiting.map fun w => (w.msg.type, w.msg.dst, w.msg.txn)) = [(0xA1, 1, 6)] := by
  decide +kernel

def patAddr : Nat := lntReg 0 0 lntPatCtrlOff
def patOpen : State := { ready with windows := BitVec.ofNat _ (2 ^ windowBit patAddr) }

theorem w_pattern : memSpaceOn patOpen 0 = true ∧ windowOpen patOpen patAddr = true ∧ windowOpen ready patAddr = false
    ∧ (peerKey (portKey 0 0)).isSome = true ∧ bits (BitVec.ofNat 32 0x04000000).toNat 26 4 = 1 ∧ bits (BitVec.ofNat 32 0x04000000).toNat 31 1 = 0
    ∧ bits (BitVec.ofNat 32 0x10000000).toNat 26 4 = 4 ∧ reg (run (.lntPatCtrlWrite portA 0x10000000 0xF) patOpen) patAddr = 0x10000000
    ∧ (reg (run (.lntPatCtrlWrite portA 0x10000000 0xF) ready) hubErr).getLsbD 1 = true := by decide +kernel

/-! ### Hawser (O47, O48) -/

/-- Port 1 of package 0 in a torus of four packages. -/
def hw (x : HwsPort) : State := setHwsPort { ready with settings := { run := [(idHwsDimX, 4)] } } 1 x
def upHw : HwsPort := { state := 2, rate := 1, width := 3, next := 9, expect := 4, trained := true }
def wdMsg : HwsMsg := { cls := 0, type := 1, src := 3, dst := 0, txn := 6, addr := 0x20000100, data := [1, 2, 3] }
def hdrH (kind ack seq : Nat) : Nat := 7 * 2 ^ 29 + kind * 2 ^ 24 + ack * 2 ^ 12 + seq
def frameOf (kind ack seq : Nat) (p : List Byte) : List Byte := hwsFrame (hdrH kind ack seq) p

theorem w_frames_good : ∀ k a s, syndromeZero (frameOf k a s (hwsMsgBytes wdMsg)) = true ∧ frameGood (frameOf k a s (hwsMsgBytes wdMsg)) = true
    ∧ syndromeZero (frameOf k a s []) = true ∧ frameGood (frameOf k a s []) = true :=
  fun _ _ _ => ⟨(hwsFrame_good (by decide +kernel)).1, (hwsFrame_good (by decide +kernel)).2, (hwsFrame_good (by decide)).1, (hwsFrame_good (by decide)).2⟩

theorem xor_keyless : ∀ {l : List (BitVec 2)} {n : Nat}, l.length = n → xorSyms l (List.replicate n 0) = l
  | [], n, h => by rw [xorSyms, List.zipWith_nil_left]
  | b :: l, 0, h => by simp at h
  | b :: l, n + 1, h => by
    have := xor_keyless (l := l) (n := n) (by simpa using h)
    rw [xorSyms] at this ⊢
    rw [List.replicate_succ, List.zipWith_cons_cons, this]
    exact congrArg (· :: l) BitVec.xor_zero

theorem joined : ∀ w : List Byte, join4 (w.map fun b => symOf b 0) (w.map fun b => symOf b 1) (w.map fun b => symOf b 2) (w.map fun b => symOf b 3) = w
  | [] => rfl
  | b :: w => by
    have hb : ∀ b : Byte, byteOf (symOf b 0) (symOf b 1) (symOf b 2) (symOf b 3) = b := by decide +kernel
    simp only [List.map_cons, join4, hb, joined w]

/-- A codeword as four lanes whose keys are 0 carry it. -/
def lineOf (w : List Byte) : HwsLine := { lanes := toLine 4 [] w }

/-- A port on four lanes, its registers at 0, hears the codeword that was sent. -/
theorem w_hawser_hears (x : HwsPort) (hw : hwsWidth x = 4) (hr : x.rx = []) {w : List Byte} (h : w.length = 1536) : hwsHeard x (lineOf w) = w := by
  have hk : frameKey 4 0 = List.replicate 1536 0 := by decide +kernel
  have hg : ∀ l : List (BitVec 2), (l.map grayLevel).map grayCode = l := fun l => by
    have : ∀ c : BitVec 2, grayCode (grayLevel c) = c := by decide
    rw [List.map_map, show grayCode ∘ grayLevel = id from funext this, List.map_id]
  have hz : ∀ l, xorSyms (w.map fun b => symOf b l) (List.replicate 1536 0) = w.map fun b => symOf b l := fun l =>
    xor_keyless (by rw [List.length_map, h])
  have hs : ∀ l, l < 4 → ((toLine 4 [] w).getD l []).map grayCode = w.map fun b => symOf b l := by
    intro l hl
    have : (toLine 4 [] w).getD l [] = (xorSyms (w.map fun b => symOf b l) (frameKey 4 0)).map grayLevel := by
      rw [toLine, List.getD_eq_getElem?_getD, List.getElem?_map, List.getElem?_range hl]
      rfl
    rw [this, hg, hk, hz]
  have ho : ofLine 4 [] (toLine 4 [] w) = w := by
    have e : ofLine 4 [] (toLine 4 [] w) = join4 (xorSyms (((toLine 4 [] w).getD 0 []).map grayCode) (frameKey 4 0))
      (xorSyms (((toLine 4 [] w).getD 1 []).map grayCode) (frameKey 4 0)) (xorSyms (((toLine 4 [] w).getD 2 []).map grayCode) (frameKey 4 0))
      (xorSyms (((toLine 4 [] w).getD 3 []).map grayCode) (frameKey 4 0)) := rfl
    rw [e, hs 0 (by decide), hs 1 (by decide), hs 2 (by decide), hs 3 (by decide), hk, hz, hz, hz, hz, joined]
  rw [hwsHeard, hw, hr, show (lineOf w).lanes = toLine 4 [] w from rfl, ho]
  split <;> rfl

theorem hwsFrame_length {h : Nat} {p : List Byte} (hp : p.length ≤ 1424) : (hwsFrame h p).length = 1536 := by
  simp only [hwsFrame, encodeFrame, parity, hwsBody, List.length_append, leBytes_length, zeros, List.length_replicate]
  omega

theorem w_hawser_frames : (∀ k a s, (frameOf k a s (hwsMsgBytes wdMsg)).length = 1536) ∧ hwsWidth upHw = 4 ∧ upHw.rx = [] :=
  ⟨fun _ _ _ => hwsFrame_length (by decide +kernel), by decide, by decide⟩

/-- PRBS31 by hand from its polynomial: where the newest bit alone is 1, the sequence is next 1 after 27 and 30 bits (R365). -/
theorem test_prbs31 : (prbs31 (1 <<< 30)).1 = 0 ∧ (prbs31 (prbs31 (1 <<< 30)).2).1 % 2 ^ 8 = 2 ^ 3 + 2 ^ 6 := by decide +kernel

/-- Byte 0x1B on four lanes: its bit pairs, the lower bit first, are 11, 01, 10, 00 (R365). -/
theorem test_gray : ((toLine 4 [] [0x1B]).map fun l => l.take 1) = [[.p1], [.m1], [.p3], [.m3]] := by decide +kernel

def frameHas (kind ack seq : Nat) : Bool :=
  let h := field (frameOf kind ack seq (hwsMsgBytes wdMsg)) 0 8
  !bit h 27 && !bit h 28 && bits h 24 3 == kind && bits h 12 12 == ack && h % 4096 == seq

theorem w_frame_fields : frameHas 0 8 4 = true ∧ frameHas 0 8 3 = true ∧ frameHas 0 8 5 = true ∧ frameHas 1 8 0 = true ∧ frameHas 2 8 0 = true
    ∧ frameHas 3 8 0 = true ∧ frameHas 4 8 0 = true ∧ frameHas 5 8 0 = true
    ∧ ((frameOf 0 8 4 (hwsMsgBytes wdMsg)).drop 8).take (hwsMsgBytes wdMsg).length = hwsMsgBytes wdMsg
    ∧ field (frameOf 0 8 4 (hwsMsgBytes wdMsg)) (9 + (hwsMsgBytes wdMsg).length) 1 = 0 ∧ hwsTypeOk wdMsg.cls wdMsg.type = true
    ∧ wdMsg.dst = ownPkg (hw upHw) ∧ inTorus (hw upHw) wdMsg.dst = true ∧ (hwsPort (hw upHw) 1).waiting = []
    ∧ syndromeZero (hwsHeard upHw { lanes := [] }) = false ∧ (hwsPort (run (.discardedFrame 1 { lanes := [] }) (hw upHw)) 1).gap = true
    ∧ (hwsPort (hw { upHw with held := [(8, [])] }) 1).held = [(8, [])] ∧ 1 < setting (hw upHw) idHwsRetrainReplays
    ∧ (hwsPort (hw { upHw with sentAck := true }) 1).sentAck = true ∧ (hwsPort (hw { upHw with asking := true }) 1).held = []
    ∧ (hwsPort (hw { upHw with restarted := some 0 }) 1).restarted = some (hw upHw).hubTime
    ∧ (run (.hwsReplayTimerExpiry 1) (hw { upHw with held := [(8, [])] })).out.length = 1 := by decide +kernel

def gain (gs : List Nat) (fz : Bool) : HwsPort := { upHw with gain := gs, frozen := fz }
def asleepPort : HwsPort := { upHw with state := 3 }

theorem w_hawser_port : setting (hw upHw) idHwsSleepIdle ≠ 0 ∧ hwsIdleSince (hw upHw) none = true
    ∧ (hwsPort (run (.hwsSleepIdleExpiry 1) (hw upHw)) 1).asking = true ∧ (hwsPort (run (.signalDetect 1) (hw asleepPort)) 1).waking = true
    ∧ (run (.signalDetect 1) (hw asleepPort)).out = [.hwsBurst 1 (List.replicate 4 burstSyms)]
    ∧ (hwsPort (run (.signalDetect 1) (hw upHw)) 1).burstAcq = true
    ∧ (hwsPort (run (.hwsWake 1) (hw { asleepPort with waiting := [{ msg := wdMsg }] })) 1).waking = true
    ∧ (hwsPort (run (.burstAcquisitionFailure 1) (hw { upHw with burstAcq := true })) 1).rburst = true
    ∧ (hwsPort (run (.burstAcquisitionFailure 1) (hw { upHw with frozen := true, bad := 4 })) 1).rburst = true
    ∧ (hwsPort (run (.wakeBurstTimeout 1) (hw { upHw with waking := true, bursts := 3 })) 1).bursts = 4
    ∧ (hwsPort (run (.wakeBurstTimeout 1) (hw { upHw with waking := true, bursts := 4 })) 1).state = 1
    ∧ (hwsPort (run (.hwsFrameLossTimeout 1) (hw upHw)) 1).state = 1 ∧ (hwsPort (run (.hwsRetrainRetryTimer 1) (hw { upHw with state := 5 })) 1).state = 1
    ∧ (hwsPort (run (.gainUpdate 1 [480, 0, 100, 5]) (hw (gain [476, 200, 100, 0] false))) 1).gain = [476, 192, 100, 0]
    ∧ bit (reg (hw upHw) (hwsReg 1 hwsGainCtrlOff)).toNat 31 = false
    ∧ (([delimiter, delimiter ^^^ 0x80000011, delimiter, delimiter] : List Word).all delimiterSeen) = true
    ∧ (([delimiter, delimiter, 0, delimiter] : List Word).all delimiterSeen) = false
    ∧ (hwsPort (run (.startOfBurstDelimiter 1 ⟨[delimiter, delimiter, delimiter, delimiter], [481, 3]⟩) (hw { upHw with burstAcq := true })) 1).gain = [480, 3, 0, 0]
    ∧ (hwsPort (run (.gainHandover 1) (hw (gain [477, 3, 101, 7] true))) 1).gain = [480, 0, 104, 8] := by decide +kernel

/-- In training from start; a peer's word names port 0 of the neighbour in the minus direction of x, package 3. -/
def training : HwsPort := { state := 1 }
def retraining : HwsPort := { upHw with state := 1, held := [(8, [])] }
def wordOf (pkg port : Nat) : BitVec 128 := BitVec.ofNat 128 (pkg * 2 ^ 64 + port * 2 ^ 74)
/-- Port 6 in training, and the word of a twin of this ordering code. -/
def twinPortTraining : State := setHwsPort ready 6 training
def twinWordHere : BitVec 128 := BitVec.ofNat 128 (6 * 2 ^ 74 + variantCode ready * 2 ^ 80)

theorem w_hawser_trains : peerExpected (hw training) 1 (wordOf 3 0).toNat = true ∧ peerExpected (hw training) 1 (wordOf 2 0).toNat = false
    ∧ peerExpected (hw training) 1 (wordOf 3 1).toNat = false ∧ (run (.capabilityWord 1 (wordOf 2 0)) (hw training)).hws.down = [(0, 1)]
    ∧ peerExpected twinPortTraining 6 twinWordHere.toNat = true ∧ bits twinWordHere.toNat 80 8 = variantCode twinPortTraining
    ∧ wordRefusal twinPortTraining twinWordHere.toNat = none ∧ (hwsPort (run (.capabilityWord 6 twinWordHere) twinPortTraining) 6).peer = some twinWordHere.toNat
    ∧ (hwsPort (run (.hwsTrainingComplete 1 ⟨some (false, 2), [5]⟩) (hw { training with peer := some (wordOf 3 0).toNat })) 1).width = 3
    ∧ (hwsPort (run (.hwsTrainingComplete 1 ⟨some (false, 0), [5]⟩) (hw retraining)) 1).width = 1
    ∧ retraining.trained = true ∧ retraining.full = false ∧ retraining.waiting = [] ∧ retraining.width = 3
    ∧ (hwsPort (run (.hwsTrainingComplete 1 ⟨none, []⟩) (hw training)) 1).state = 5 := by decide +kernel

/-- Package 0, whose window 0 takes bytes of stack 0 from any package, in a torus of four, or cut off. -/
def rw (down : List (Nat × Nat)) : State :=
  { ready with settings := { run := [(idHwsDimX, 4), (0x03C0, 0x20000000), (0x03C1, 0x1000), (0x03C2, 1023 * 65536)] }, hws := { down := down } }
def rwCmd (pkg a n arr : Nat) : List Byte := fields 64 [(0, 1, 0x40), (8, 8, direct 0x20000200), (16, 8, pkg * 2 ^ 48 + a), (24, 4, n), (32, 8, arr)]
def rwAt (down : List (Nat × Nat)) (bs : List Byte) : State := withCmd (rw down) 20 0 0 bs
def rwHas (down : List (Nat × Nat)) (bs : List Byte) : Bool :=
  match startedCmd (rwAt down bs) 20 0 0x40 with
  | some c => rwriteBad (rwAt down bs) c == none && !rwriteBehind (queue (rwAt down bs) 20) 0 c
      && match readBuf (rwAt down bs) (queue (rwAt down bs) 20) c 8 (field c.bytes 8 8) (field c.bytes 24 4) with
         | (_, .ok l) => l == [0, 0, 0, 0]
         | _ => false
  | none => false
/-- A read of a buffer that no table maps ends the command. -/
def unreadable : List Byte := fields 64 [(0, 1, 0x40), (8, 8, 0x1000), (16, 8, 2 ^ 48), (24, 4, 4)]
/-- Two RWRITEs to one package, the earlier still to be sent. -/
def rwTwo : State :=
  setQueue (rw []) 20 { state := .opened, engine := 0, inst := 0, asid := 5, head := 2, tail := 2, started := 2,
                        cmds := [{ index := 0, bytes := rwCmd 1 0x20000100 4 0, epoch := 1, gen := 0, stage := .started },
                                 { index := 1, bytes := rwCmd 1 0x20000100 4 0, epoch := 1, gen := 0, stage := .started }] }
def cut : List (Nat × Nat) := [(0, 0), (0, 1)]

theorem w_rwrite : rwHas [] (rwCmd 0 0x20000100 4 0) = true ∧ rwHas cut (rwCmd 1 0x20000100 4 0) = true ∧ rwHas [] (rwCmd 1 0x20000100 4 0) = true
    ∧ routeTo (rw cut) 1 = none ∧ routeTo (rw []) 1 = some 0 ∧ pairUp (rw []) = false
    ∧ ((List.range 4).all fun k => inboundOk (rw []) 0 (0x20000100 + k)) = true
    ∧ cmdStage (run (.rwrite 20 0) (rwAt [] (rwCmd 0 0x20000100 4 0))) 20 0 = some (.ended { status := stOk, result := 4 })
    ∧ cmdStage (run (.rwrite 20 0) (rwAt cut (rwCmd 1 0x20000100 4 0))) 20 0 = some (.ended { status := stUnreachable })
    ∧ cmdStage (run (.rwrite 20 0) (rwAt [] (rwCmd 4 0x20000100 4 0))) 20 0 = some (.ended { status := stBadRequest, detail := 16 })
    ∧ cmdStage (run (.rwrite 20 0) (rwAt [] (rwCmd 1 0x20000100 4 9))) 20 0 = some (.ended { status := stBadRequest, detail := 32 })
    ∧ ((run (.rwrite 20 0) (rwAt [] (rwCmd 1 0x20000100 4 0))).hws.outTxns.map fun o => (o.queue, o.index, o.dst)) = [(20, 0, 1)]
    ∧ cmdStage (run (.rwrite 20 0) (rwAt [] unreadable)) 20 0
        = some (.ended { status := stXlateFault, detail := 8, result := 0x1000, error := true })
    ∧ ((startedCmd rwTwo 20 1 0x40).map (rwriteBehind (queue rwTwo 20) 1)) = some true := by
  decide +kernel

def delivered (m : HwsMsg) (ts : List InTxn) : State := { rw cut with hws := { down := cut, inbox := [(1, m)], inTxns := ts } }
def closeMsg (n : Nat) : HwsMsg := { wdMsg with type := 2, addr := 0, data := leBytes 4 n }

theorem w_inbound : inboxMsg (delivered wdMsg []) 0 1 = some (1, wdMsg) ∧ dieAwake (delivered wdMsg []) 0 = true
    ∧ ((List.range 3).all fun k => inboundOk (delivered wdMsg []) 3 (0x20000100 + k)) = true
    ∧ homeRead (run .wdata (delivered wdMsg [])) 0x20000100 3 = [1, 2, 3]
    ∧ (run .wdata (delivered wdMsg [])).hws.inTxns = [{ src := 3, txn := 6, pieces := 1, bytes := 3 }]
    ∧ ((List.range 3).all fun k => !inboundOk (delivered wdMsg []) 3 (0x20001000 + k)) = true
    ∧ (run .wdata (delivered { wdMsg with addr := 0x20001000 } [])).hws.inTxns = [{ src := 3, txn := 6, pieces := 1, denied := true }]
    ∧ dieAwake (setDiePwr (delivered wdMsg []) 0 .retention) 0 = false
    ∧ diePwr (run .wdata (setDiePwr (delivered wdMsg []) 0 .retention)) 0 = .waking
    ∧ inboxMsg (delivered (closeMsg 2) []) 0 2 = some (1, closeMsg 2) ∧ field (closeMsg 2).data 0 4 = 2
    ∧ (run .close (delivered (closeMsg 2) [])).hws.inTxns = [{ src := 3, txn := 6, close := some (0, 2) }]
    ∧ routeTo (delivered (closeMsg 2) []) 3 = none
    ∧ (run .close (delivered (closeMsg 2) [{ src := 3, txn := 6, pieces := 2 }])).hws.inTxns = [] := by decide +kernel

def waitingDone (m : HwsMsg) (bs : List Byte) : State :=
  let s := rwAt [] bs
  { s with hws := { outTxns := [{ txn := 6, queue := 20, index := 0, dst := 3 }], inbox := [(1, m)] } }
def doneMsg : HwsMsg := { cls := 1, type := 1, src := 3, dst := 0, txn := 6, addr := 0 + 4 * 2 ^ 16 }
def rfenceCmd (pkg : Nat) : List Byte := fields 64 [(0, 1, 0x41), (8, 2, pkg)]
def behind (pkg : Nat) : State :=
  setQueue (rw []) 20 { state := .opened, engine := 0, inst := 0, asid := 5, head := 2, tail := 2, started := 2,
                        cmds := [{ index := 0, bytes := rwCmd 1 0x20000100 4 0, epoch := 1, gen := 0, stage := .running },
                                 { index := 1, bytes := rfenceCmd pkg, epoch := 1, gen := 0, stage := .started }] }

theorem w_write_ends : inboxMsg (waitingDone doneMsg (rwCmd 3 0 4 0)) 1 1 = some (1, doneMsg) ∧ doneMsg.addr % 2 ^ 16 ≠ stRemoteDenied
    ∧ (findCmd (queue (waitingDone doneMsg (rwCmd 3 0 4 0)) 20) 0).isSome = true
    ∧ cmdStage (run .wdone (waitingDone doneMsg (rwCmd 3 0 4 0))) 20 0 = some (.ended { status := stOk, result := 4 })
    ∧ cmdStage (run (.e2eTimerExpiry 20 0) (waitingDone doneMsg (rwCmd 3 0 4 0))) 20 0 = some (.ended { status := stUnreachable, detail := 1 })
    ∧ (run (.inboundTxnTimeout 3 6) (delivered wdMsg [{ src := 3, txn := 6 }, { src := 3, txn := 7 }])).hws.inTxns = [{ src := 3, txn := 7 }]
    ∧ (startedCmd (rwAt [] (rfenceCmd 1)) 20 0 0x41).isSome = true ∧ inTorus (rw []) 1 = true
    ∧ cmdStage (run (.rfence 20 0) (rwAt [] (rfenceCmd 1))) 20 0 = some (.ended { status := stOk })
    ∧ (startedCmd (behind 1) 20 1 0x41).isSome = true ∧ cmdStage (run (.rfence 20 1) (behind 1)) 20 1 = some .started
    ∧ cmdStage (run (.rfence 20 1) (behind 2)) 20 1 = some (.ended { status := stOk }) := by decide +kernel

def reported : State := { rw cut with hws := { down := cut, inbox := [(0, { cls := 3, type := 1, src := 1, dst := 0 })] } }

theorem w_reports : (inboxMsg reported 3 1).isSome = true ∧ (run (.pcfMessage [(0, 1, true)]) reported).hws.down = [(0, 0)]
    ∧ (run (.pcfMessage [(2, 5, false)]) reported).hws.down = [(0, 0), (0, 1), (2, 5)] := by decide +kernel

/-! ### Twin pairs (O49, O50) -/

/-- Side 1 of pair 77 in a twin state, with one message that has arrived on port 6. -/
def twin (st : Nat) (t : Twin) (m : List HwsMsg) : State :=
  { ready with
    twin := { t with state := st }
    settings := { written := [idTwinPairId, idTwinSide], run := [(idTwinPairId, 77), (idTwinSide, 1), (idTwinCleatPeer, 2)] }
    hws := { ports := [(6, { state := 2, trained := true }), (7, { state := 2, trained := true })], inbox := m.map fun x => (6, x) } }
def tmsg (type addr txn : Nat) (data : List Byte) : HwsMsg := { cls := 2, type := type, src := 0, dst := 0, txn := txn, addr := addr, data := data }
def hbMsg : HwsMsg := tmsg 0 (5 + 4 * 2 ^ 32) 0 []
/-- A heartbeat of a detached partner. -/
def hbGone : HwsMsg := tmsg 0 (5 + 8 * 2 ^ 32) 0 []
/-- A heartbeat that has come over the Cleat bus, with the twin ports in service or not. -/
def overCleat (up : Bool) (m : HwsMsg) : State :=
  let s := twin 2 {} []
  { s with hws := { ports := if up then s.hws.ports else [], inbox := [(8, m)] } }
def fenceMsg (pr side : Nat) : HwsMsg := tmsg 1 (pr + side * 2 ^ 32) 0 []
/-- The same as side 0. -/
def sideZero (s : State) : State := { s with settings := { s.settings with run := [(idTwinPairId, 77), (idTwinSide, 0), (idTwinCleatPeer, 2)] } }

theorem w_heartbeat : inboxMsg (twin 4 {} [hbMsg]) 2 0 = some (6, hbMsg) ∧ bits hbMsg.addr 32 8 ≠ 8
    ∧ (run .hb (twin 4 {} [hbMsg])).twin.state = 2 ∧ (run .hb (twin 4 { heard := [(6, 4), (7, 5)] } [hbMsg])).twin.state = 2
    ∧ (run .hb (twin 4 { heard := [(6, 5)] } [hbMsg])).twin.state = 4
    ∧ tget 0 (run .hb (twin 4 {} [hbMsg])).twin.heard 6 = 5 ∧ (run .hb (twin 4 {} [hbMsg])).twin.heardAt = [(6, 0)]
    ∧ inboxMsg (overCleat false hbMsg) 2 0 = some (8, hbMsg) ∧ portsOut (overCleat false hbMsg) = true
    ∧ (run .hb (overCleat false hbMsg)).twin.state = 3 ∧ (run .hb (overCleat true hbMsg)).twin.state = 2
    ∧ inboxMsg (twin 2 {} [hbGone]) 2 0 = some (6, hbGone) ∧ shadowSessions (twin 2 {} [hbGone]) = []
    ∧ (run .hb (twin 2 {} [hbGone])).twin.state = 6
    ∧ heardNow (twin 2 { heardAt := [(6, 0)] } []) = true ∧ heardNow (twin 2 { heardAt := [(6, 1)] } []) = false
    ∧ (run .heartbeatTick (twin 2 {} [])).twin.hbSeq = 1 ∧ (run .liveIncrement (twin 2 {} [])).twin.live = 1
    ∧ (run .twinDeadTimeout (twin 2 {} [])).twin.state = 4 ∧ (run .twinDeadTimeout (twin 3 {} [])).twin.state = 4
    ∧ (run .twinDeadTimeout (twin 1 { act := some { op := (req 0x0603 []).op, attach := false, partner := 0, prev := 6 } } [])).twin.state = 6 := by
  decide +kernel

theorem w_fence : identWritten (twin 2 {} []) = true ∧ ownPair (twin 2 {} []) = 77 ∧ ownSide (twin 2 {} []) = 1
    ∧ inboxMsg (twin 2 {} [fenceMsg 77 0]) 2 1 = some (6, fenceMsg 77 0) ∧ (run .twinFence (twin 2 {} [fenceMsg 77 0])).twin.state = 9
    ∧ (run .twinFence (sideZero (twin 4 {} [fenceMsg 77 1]))).twin.state = 4 ∧ (run .twinFence (sideZero (twin 2 {} [fenceMsg 77 1]))).twin.state = 9
    ∧ reg (run .twinFence (twin 2 {} [fenceMsg 76 0])) twnFenceBadCnt = 1
    ∧ (run .twinFence (twin 2 {} [fenceMsg 77 1])).twin.state = 2 ∧ reg (run .twinFence (twin 2 {} [fenceMsg 77 1])) twnFenceBadCnt = 0
    ∧ (run .fenceAck (twin 4 {} [{ fenceMsg 77 0 with type := 2 }])).twin.state = 5
    ∧ (run .fenceNak (twin 4 {} [{ fenceMsg 77 0 with type := 3 }])).twin.refused = true
    ∧ (run .fenceResendTick (twin 4 {} [])).twin.state = 4 ∧ (run .fenceAnswerTimeout (twin 4 {} [])).twin.state = 5
    ∧ (run .fenceAnswerTimeout (twin 4 { refused := true } [])).twin.state = 4 := by decide +kernel

/-- Session 7 of the PF, mirrored, with no rows. -/
def mir : Session := { state := .active, sflags := 1, m := 5, a := 5, c := 5, shOpen := true }
def withSession (s : State) (x : Session) : State := { s with sess := { table := [(7, x)] } }
def cleaning : State := withSession (twin 9 { fenced := true } []) mir

theorem w_cleanup : mirroredSessions cleaning = [7] ∧ (session (run .fencedSessionCleanup cleaning) 7).state = .shadow
    ∧ (session (run .fencedSessionCleanup cleaning) 7).shOpen = false := by decide +kernel

def ctrlBytes (act partner : Nat) : List Byte := fields 16 [(0, 1, act), (8, 8, partner)]
/-- A peer's word: variant H2 while this package is H3. -/
def otherWord : Nat := 2 * 2 ^ 80
def hasWord : State := setHwsPort (twin 0 {} []) 6 { state := 2, trained := true, peer := some otherWord }

theorem w_twin_ctrl : served (twin 0 {} []) 0x0603 (ctrlBytes 1 6) = true ∧ peerWord (ask (twin 0 {} []) 0x0603 (ctrlBytes 1 6)) = none
    ∧ ((run (.twinPair (.mbx 0)) (ask (twin 0 {} []) 0x0603 (ctrlBytes 1 6))).twin.act.map (·.partner)) = some 6
    ∧ answeredAs (run (.twinPair (.mbx 0)) (ask (twin 2 {} []) 0x0603 (ctrlBytes 1 6))) stWrongState = true
    ∧ served (twin 2 {} []) 0x0603 (ctrlBytes 1 6) = true ∧ served (twin 6 {} []) 0x0603 (ctrlBytes 3 6) = true
    ∧ ((run (.twinAttach (.mbx 0)) (ask (twin 6 {} []) 0x0603 (ctrlBytes 3 6))).twin.act.map (·.prev)) = some 6
    ∧ served hasWord 0x0603 (ctrlBytes 1 6) = true ∧ (peerWord hasWord).bind (wordRefusal hasWord) = some (stIncompatible, 0)
    ∧ answeredAs (run (.twinPair (.mbx 0)) (ask hasWord 0x0603 (ctrlBytes 1 6))) stIncompatible = true
    ∧ served { twin 2 {} [] with serving := { mode := 1 } } 0x0603 (ctrlBytes 2 0) = true
    ∧ (run (.twinDetach (.mbx 0)) (ask { twin 2 {} [] with serving := { mode := 1 } } 0x0603 (ctrlBytes 2 0))).twin.state = 7
    ∧ answeredAs (run (.twinDetach (.mbx 0)) (ask (twin 6 {} []) 0x0603 (ctrlBytes 2 0))) stWrongState = true := by decide +kernel

def pairMsg (variant : Nat) : HwsMsg := tmsg 4 (77 + 3 * 2 ^ 40) 0 (fields 16 [(0, 1, variant), (1, 1, 2), (2, 1, setting ready idKvRowPages), (8, 8, 6)])
def asked : Option TwinAct := some { op := (req 0x0603 []).op, attach := false, partner := 6, prev := 0 }
def anyPartner : Option TwinAct := some { op := (req 0x0603 []).op, attach := false, partner := 0, prev := 0 }
def pairing (t : Twin) (m : List HwsMsg) : State := { twin 0 t m with serving := { mode := 2 } }

theorem w_pair_forms : inboxMsg (pairing {} [pairMsg 3]) 2 4 = some (6, pairMsg 3) ∧ (run .pairReq (pairing {} [pairMsg 3])).twin.peerReq.isSome = true
    ∧ field (pairMsg 2).data 0 1 ≠ variantCode ready ∧ (run .pairReq (pairing { act := anyPartner } [pairMsg 2])).twin.act = none
    ∧ field (pairMsg 3).data 0 1 = variantCode ready ∧ field (pairMsg 3).data 1 1 = (pairing {} []).serving.mode
    ∧ (pairMsg 3).addr % 2 ^ 32 = 77 ∧ bits (pairMsg 3).addr 32 8 = 0 ∧ field (pairMsg 3).data 8 8 = 6
    ∧ (run .pairReq (pairing { act := asked } [pairMsg 3])).twin.state = 1
    ∧ (run .syncDone (twin 1 { act := asked, syncSent := true } [tmsg 12 0 0 []])).twin.state = 2
    ∧ inboxMsg (twin 1 {} [tmsg 12 0 0 []]) 2 12 = some (6, tmsg 12 0 0 [])
    ∧ (run .twinPairWaitTimeout (twin 0 { act := asked } [])).twin.act = none
    ∧ liveSessions (twin 7 {} []) = []
    ∧ (run .detachDrainExpiry (twin 7 { detach := some (req 0x0603 []).op } [])).twin.state = 8 := by decide +kernel

def shadow7 : Session := { state := .shadow, net := net1, maxTokens := 1000, sflags := 1, c := 5, f := 5, t := 5, rowMap := [(0, { stack := 0, row := 2 })] }
def bare7 : Session := { state := .shadow, bundleDigest := [1], sflags := 1 }
def digestOne : Bundle := { handle := 9, dpa := 0, bytes := 0, repl := 0, nets := [], digest := [1] }
def msgAt (type v txn : Nat) (data : List Byte) (x : Session) : State := withSession (twin 2 {} [tmsg type (7 + v * 2 ^ 16) txn data]) x
def handing (type : Nat) : State := { msgAt type 5 0 [] bare7 with serving := { mode := 1, halfA := some digestOne } }
def openData : List Byte := fields 48 [(0, 4, 1000), (8, 8, 3), (16, 1, 1)]

theorem w_shadows : paired (twin 2 {} []) = true ∧ inboxMsg (msgAt 5 0 0 openData {}) 2 5 = some (6, tmsg 5 7 0 openData)
    ∧ (session (run .shOpen (msgAt 5 0 0 openData {})) 7).userTag = 3 ∧ (session (run .shOpen (msgAt 5 0 0 openData {})) 7).state = .shadow
    ∧ (session (run .shOpen (msgAt 5 0 0 openData mir)) 7) = mir
    ∧ posByte (msgAt 6 3 0 [8] shadow7) shadow7 0 3 0 = some (rowBase ready 0 2 + 3 * 64)
    ∧ shadow7.rowMap.any (fun r => r.1 == 3 / kvSpan shadow7.net) = true
    ∧ homeRead (run .shData (msgAt 6 3 0 [8] shadow7)) (rowBase ready 0 2 + 3 * 64) 1 = [8]
    ∧ (session (run .shCommit (msgAt 7 9 0 [] shadow7)) 7).c = 9 ∧ (session (run .shEnd (msgAt 8 0 0 [] bare7)) 7).state = .free
    ∧ isMirrored mir = true ∧ mir.mirrorLost = false ∧ (session (run .shAck (msgAt 13 6 0 [] mir)) 7).a = 6
    ∧ (session (run .shNak (msgAt 9 0 0 [] mir)) 7).mirrorLost = true := by decide +kernel

theorem w_promotes : halfBundle (handing 10) true [1] = some digestOne ∧ (session (run .handover (handing 10)) 7).state = .active
    ∧ (session (run .promoteReq (handing 11)) 7).bundle = 9 ∧ (session (run .promoteReq (handing 11)) 7).state = .active
    ∧ shadowSessions (twin 5 {} []) = [] ∧ (run .promoteShadow (twin 5 {} [])).twin.state = 6
    ∧ shadowSessions (withSession (twin 5 {} []) bare7) = [7] ∧ (twin 5 {} []).serving.mode ≠ 1
    ∧ (session (run .promoteShadow (withSession (twin 5 {} []) bare7)) 7).state = .active
    ∧ paired (twin 0 {} [tmsg 5 7 0 openData]) = false ∧ (run .shOpen (twin 0 {} [tmsg 5 7 0 openData])).hws.inbox = []
    ∧ ([6, 7, 8, 9, 10, 11, 12, 13].all fun ty => (inboxMsg (twin 0 {} [tmsg ty 7 0 []]) 2 ty).isSome) = true := by decide +kernel

/-! ### Tenants (O51 to O54) -/

/-- VF 1 is enabled and has a tenant; kernel mode without a bundle. -/
def vf (t : Tenant) : State :=
  { ready with
    pcie := { fns := [(0, { memSpace := true }), (1, { memSpace := true })], vfEnable := true, numVFs := 2 }
    serving := { mode := 2 }
    mbxs := [(0, { fwReady := true }), (1, { fwReady := true, seq := 3 })]
    tenants := [(1, t)] }
def small : TenantCfg := { queues := 2, sessions := 3, asidBase := 9, asidCount := 2 }
def op5 : OpId := (req 0x0501 []).op
/-- TENANT_CONFIG of VF 1 with four queues and sessions, two tags, and a memory quota on stack 0 in MiB. -/
def cfgBytes (v mib : Nat) : List Byte := fields 44 [(0, 1, v), (2, 2, 4), (4, 4, 4), (8, 4, mib), (40, 2, 2)]
def plans (s : State) (v mib : Nat) (fill : Bool) : Bool :=
  match planCfg s v (cfgBytes v mib) with
  | .ok c => fillsRange (tenant s v).cfg c == fill && c.asidCount == 2
  | .error _ => false

theorem w_tenant_config : served (vf {}) 0x0501 (cfgBytes 3 0) = true ∧ fnEnabled (vf {}) 3 = false ∧ served (vf {}) 0x0501 (cfgBytes 1 64) = true
    ∧ answeredAs (run (.tenantConfig (.mbx 0)) (ask (vf {}) 0x0501 (cfgBytes 3 0))) stWrongState = true
    ∧ (tenant (vf {}) 1).state = .unconfigured ∧ plans (ask (vf {}) 0x0501 (cfgBytes 1 64)) 1 64 true = true
    ∧ plans (ask (vf { state := .running, cfg := small }) 0x0501 (cfgBytes 1 0)) 1 0 false = true
    ∧ (tenant (run (.tenantConfig (.mbx 0)) (ask (vf {}) 0x0501 (cfgBytes 1 0))) 1).state = .running
    ∧ (tenant (run (.tenantConfig (.mbx 0)) (ask (vf {}) 0x0501 (cfgBytes 1 64))) 1).op.isSome = true
    ∧ answeredAs (run (.tenantConfig (.mbx 0)) (ask (vf {}) 0x0501 (cfgBytes 1 64))) stAccepted = true
    ∧ (tenant (run (.rangeZeroFillComplete 1) (vf { op := some { op := some op5, cfg := some small } })) 1).cfg = small := by decide +kernel

def tsOp (act n : Nat) : List Byte := fields 40 [(0, 1, 1), (1, 1, act), (8, 8, if n = 0 then 0 else 0x4000), (16, 8, n)]
def logOp : List Byte := fields 40 [(0, 1, 1), (1, 1, 5), (8, 8, 0x4000), (16, 8, 8), (24, 8, 0x1000), (32, 8, 0x2000)]
def ten (st : TenState) (o : Option TenantOp) : Tenant := { state := st, cfg := small, op := o }
def sess7 (st : SessState) (s : State) : State := { s with sess := { table := [(7, { state := st, owner := 1, net := net1, maxTokens := 9 })] } }
def launch20 : Launch := { queue := 20, index := 6, entry := 0x1000, param := 5, blocks := 4, groups := 1, granules := 8, lsConfig := 0, lsZero := false, epoch := 1 }
def oneLaunch (t : Tenant) : State :=
  { vf t with eng := { queues := [(20, { state := .opened, owner := 1, engine := 0, asid := 9 })], launches := [(4, launch20)] } }
def freezing : State := vf (ten .freezing (some { op := some op5 }))

theorem w_freeze : served (vf (ten .running none)) 0x0502 (tsOp 1 0) = true
    ∧ (tenant (run (.freeze (.mbx 0)) (ask (vf (ten .running none)) 0x0502 (tsOp 1 0))) 1).state = .freezing
    ∧ served (vf (ten .frozen none)) 0x0502 (tsOp 2 0) = true ∧ (vf (ten .frozen none)).serving.mode ≠ 1
    ∧ (session (run (.thaw (.mbx 0)) (ask (sess7 .frozen (vf (ten .frozen none))) 0x0502 (tsOp 2 0))) 7).state = .active
    ∧ (tenant (run (.thaw (.mbx 0)) (ask (sess7 .frozen (vf (ten .frozen none))) 0x0502 (tsOp 2 0))) 1).state = .running
    ∧ served (vf (ten .running none)) 0x0502 logOp = true
    ∧ (tenant (run (.startDirtyLog (.mbx 0)) (ask (vf (ten .running none)) 0x0502 logOp)) 1).log = some (0x4000, 0x1000, 0x2000)
    ∧ served (vf (ten .running none)) 0x0502 (tsOp 6 0) = true
    ∧ tenantDrained freezing 1 = true ∧ tenantInStep freezing 1 = false ∧ pcfUp freezing = true ∧ tenantSessions (sess7 .active freezing) 1 = [7]
    ∧ (session (run (.freezeQuiesceComplete 1) (sess7 .active freezing)) 7).state = .frozen
    ∧ tenantLaunches (oneLaunch (ten .freezing none)) 1 = [(4, launch20)] ∧ tenantLaunches freezing 1 = []
    ∧ ((run (.freezeLimitExpiry 1) (oneLaunch (ten .freezing none))).eng.launches.map fun p => (p.2.stopping.map (·.status))) = [some stDeviceError] := by
  decide +kernel

/-- A running save of the tenant, and a restore of what it left: one tenant section, an empty event section and the end. -/
def frozen1 : State := vf (ten .frozen none)
def blob1 : List Byte := blobOf frozen1 1
def saving : State := vf (ten .saving (some { op := some op5, bufAddr := 0x4000, bufBytes := 0x1000, blob := blob1 }))
def restoring (m : List Host.Cell) : State :=
  { vf (ten .restoring (some { op := some op5, bufAddr := 0x4000, bufBytes := 0x1000, prior := .frozen })) with hostMem := m }
def restores (s : State) : Bool := match readBlob s 0x4000 0x1000 with
  | some (h, l) =>
    let s1 := discardTenant s 1
    let p := (((secsOf l 1).headD { type := 1, index := 0, bytes := [] }).bytes.drop 16).take 44
    blobFits s h l && (match (layoutOf s1 { who := 0, seq := 0, hdr := { opcode := 0x0501, length := 44 }, payload := p }).find? fun f =>
        f.off ≠ 0 && !f.ok (field p f.off f.size) with
      | none => true
      | some _ => false)
      && (match planCfg s1 1 p with
        | .ok c => (match restoreSessions ((List.range 8).foldl (fun s st => zeroFill s (tget 0 c.base st) (tget 0 c.len st))
            (setTenCfg (placeCfg s1 1 c) 1 c)) 1 (secsOf l 3) with
          | .ok _ => true
          | .error _ => false)
        | .error _ => false)
  | none => false

theorem w_save : served frozen1 0x0502 (tsOp 3 4096) = true ∧ blob1.length = 192
    ∧ answeredAs (run (.save (.mbx 0)) (ask frozen1 0x0502 (tsOp 3 191))) stQuota = true ∧ served frozen1 0x0502 (tsOp 3 191) = true
    ∧ (tenant (run (.save (.mbx 0)) (ask frozen1 0x0502 (tsOp 3 192))) 1).state = .saving
    ∧ served frozen1 0x0502 (tsOp 4 4096) = true
    ∧ (tenant (run (.restore (.mbx 0)) (ask frozen1 0x0502 (tsOp 4 4096))) 1).state = .restoring
    ∧ saving.rings = [] ∧ (tenant (run (.saveComplete 1) saving) 1).state = .frozen
    ∧ readBlob (restoring []) 0x4000 0x1000 = none ∧ (tenant (run (.restoreComplete 1) (restoring [])) 1).state = .frozen := by decide +kernel

theorem w_restore : restores (restoring (mwrite [] 0x4000 blob1)) = true := by decide +kernel

def resetting (target : TenState) : Tenant := { state := .running, cfg := small, resetting := some target }

theorem w_vf_reset : (vf (ten .saving (some { op := some op5 }))).start.hubReady = true ∧ fnEnabled (vf (ten .saving none)) 1 = true
    ∧ (mbx (run (.vfFunctionLevelReset 1) (vf (ten .saving (some { op := some op5 })))) 1).fwReady = false
    ∧ (mbx (run (.vfFunctionLevelReset 1) (vf (ten .saving (some { op := some op5 })))) 1).seq = 3
    ∧ (tenant (run (.vfFunctionLevelReset 1) (vf (ten .saving (some { op := some op5 })))) 1).op = none
    ∧ tenantLaunches (oneLaunch (resetting .running)) 1 = [(4, launch20)] ∧ resetDrained (vf (resetting .running)) 1 = true
    ∧ (tenant (run (.vfResetComplete 1) (vf (resetting .running))) 1).resetting = none
    ∧ (tenant (run (.vfResetComplete 1) (vf (resetting .unconfigured))) 1).state = .unconfigured := by decide +kernel

/-! ### The Cleat port (O55 to O57) -/

/-- Receiver and transmitter on, 9-bit characters, the own address matched. -/
def port (c : Cleat) : State :=
  { ready with
    regs := [(cleatCtrl, 3), (cleatFmt, 1), (cleatAddrMatch, 0xFF05)]
    settings := { run := [(idCleatNodeAddr, 5), (idTwinCleatPeer, 9)] }
    windows := BitVec.ofNat _ (2 ^ windowBit 0x480020)
    cleat := c }
def ctrl (s : State) (v : Word) : State := setReg s cleatCtrl v

theorem w_cleat_receive : hears (port {}) = true ∧ hears (ctrl (port {}) 1) = false
    ∧ reg (run (.cleatCharacter 0x41 true false) (port {})) cleatErr = 1 ∧ reg (run .cleatBreak (port {})) cleatErr = 4
    ∧ reg (run (.cleatCharacter 0x41 false true) (setReg (port {}) cleatFmt 5)) cleatErr = 2
    ∧ nineBit (port {}) = true ∧ addrMatch (port {}) 5 = true ∧ addrMatch (port {}) 6 = false
    ∧ (run (.cleatCharacter 0x105 false false) (ctrl (port {}) 7)).cleat.hold = [0x105]
    ∧ cleatBit (run (.cleatCharacter 0x105 false false) (ctrl (port {}) 7)) 2 = false
    ∧ (run (.cleatCharacter 0x41 false false) (ctrl (port {}) 7)).cleat.rx = []
    ∧ (run (.cleatCharacter 0x41 false false) (port { rx := List.replicate 63 1 })).cleat.rx = List.replicate 63 1 ++ [0x41]
    ∧ reg (run (.cleatCharacter 0x41 false false) (port { rx := List.replicate 64 1 })) cleatDropCnt = 1
    ∧ reg (run .cleatGapExpiry (port { hold := [0x105] })) cleatErr = 8 ∧ (run .cleatGapExpiry (port { into := 2, twinAsm := [1] })).cleat.into = 3
    ∧ ballsTaken (port {}) = false ∧ (run (.cleatCtsChange true) (port {})).cleat.ctsLow = true := by decide +kernel

def identify : List Byte := frameBytes 0x0001 7 0x00030400 0 0 []
def rq (seq : Nat) : CleatReq := { src := 6, seq := seq, broadcast := false, bytes := identify }
def frame (src dst type : Nat) : CleatFrame := { dst := dst, src := src, type := type, seq := 3, seg := 128, payload := [] }
def twinHb (src : Nat) : List Nat := cleatChars 5 src 3 4 128 [0, 9, 0, 0, 0, 2, 1, 0]

theorem w_cleat_frames : (run .cleatRequest (port { reqs := [rq 1], kept := [{ src := 6, seq := 1, bytes := identify }] })).cleat.sends.length = 1
    ∧ ((run .cleatRequest (port { reqs := [rq 2], running := [rq 1] })).cleat.kept.map fun k => (k.src, field k.bytes 12 2)) = [(6, stBusy)]
    ∧ preCheck (port { reqs := [rq 1] }) (busReq (rq 1)) = none ∧ (run .cleatRequest (port { reqs := [rq 1] })).cleat.running = [rq 1]
    ∧ testing (port {}) 3 0 = false ∧ pcfUp (port {}) = true ∧ cleatOwn (port {}) = 5
    ∧ (run .claim (port { frames := [frame 6 7 4] })).cleat.sends = [] ∧ (run .claim (port { frames := [frame 6 5 4] })).cleat.sends.length = 1
    ∧ (run .claimReply (port { frames := [frame 6 5 5] })).cleat.frames = []
    ∧ (run .claim (port { frames := [frame 5 7 4] })).cleat.dupLock = true ∧ (run .claimReply (port { frames := [frame 5 7 2] })).cleat.dupLock = true
    ∧ busFrameGood (twinHb 9) = true ∧ busFrameGood [0x105] = false ∧ (parseFrame (twinHb 9)).src = cleatPeer (port {})
    ∧ reg (run .cleatTwinFrame (port { twinIn := [[0x105]] })) cleatErr = 8
    ∧ ((run .cleatTwinFrame (port { twinIn := [twinHb 9] })).hws.inbox.map fun p => (p.1, p.2.type, p.2.txn, p.2.addr % 2 ^ 32)) = [(8, 0, 4, 9)] := by
  decide +kernel

def chars (n : Nat) : List Nat := List.replicate n 7
def noticing : State :=
  { port {} with settings := { run := [(idCleatNodeAddr, 5), (idCleatNoticeDest, 8)] }, err := { notices := [(1, zeros 33)] } }

theorem w_cleat_fifos : memSpaceOn (port {}) 0 = true ∧ windowOpen (port {}) 0x480020 = true ∧ windowOpen (port {}) cleatCtrl = true
    ∧ windowOpen { port {} with windows := 0 } 0x480020 = false
    ∧ (reg (run (.cleatTxDataWrite (some (0x105, 0xF))) { port {} with windows := 0 }) hubErr).getLsbD 1 = true
    ∧ (run (.cleatTxDataWrite (some (0x305, 0xF))) (port { tx := chars 62 })).cleat.tx = chars 62 ++ [0x105]
    ∧ (reg (run (.cleatTxDataWrite (some (1, 0xF))) (port { tx := chars 64, released := 1 })) cleatErr).getLsbD 6 = true
    ∧ (run (.cleatTxDataWrite (some (1, 0xF))) (port { tx := chars 63 })).cleat.tx = []
    ∧ reg (run (.cleatTxDataWrite (some (1, 0xF))) (port { tx := chars 63 })) cleatDropCnt = 64
    ∧ (run (.cleatSend (some (0x13, 0xF))) (port { tx := chars 4 })).cleat.released = 4 ∧ (run (.cleatSend none) (port { tx := chars 4 })).cleat.released = 4
    ∧ (run (.cleatTxDataWrite none) (port { writing := [3, 4] })).cleat.writing = [4]
    ∧ (run (.cleatTxDataWrite none) (port { sends := [[3, 4], [5]] })).cleat.tx = [3] ∧ setting noticing idCleatNoticeDest ≠ 0xFF
    ∧ (run (.cleatTxDataWrite none) noticing).cleat.tx = [0x108] ∧ (run (.cleatRxDataRead none) (port { rx := [3, 4] })).cleat.rx = [4]
    ∧ (run (.cleatRxDataRead (some 0xF)) (port { rx := [3, 4] })).out = [.completion 0 [3, 0, 0, 0x80] false]
    ∧ (run (.cleatRxDataRead (some 0x1)) (port { rx := [3, 4] })).cleat.rx = [4]
    ∧ (run (.cleatRxDataRead (some 0xF)) { port { rx := [3, 4] } with windows := 0 }).cleat.rx = [3, 4]
    ∧ (run (.cleatTxDataWrite (some (1, 0x3))) (port { tx := chars 4 })).cleat.tx = chars 4
    ∧ (run (.cleatSend (some (3, 0xF))) (port { tx := chars 4 })).cleat.released = 0
    ∧ (reg (run (.cleatSend (some (0x13, 0xF))) { port {} with windows := 0 }) hubErr).getLsbD 1 = true := by decide +kernel

def ready2 : Cleat := { tx := [0x106, 1, 2, 0x107], released := 4 }
def flowOn (s : State) : State := setReg s cleatFlow 0x80000000

theorem w_cleat_transmit : cleatBit (port {}) 0 = true ∧ nextTx (port ready2) = some ([0x106, 1, 2], false)
    ∧ (nextTx (port { twinOut := [{ chars := [0x109], heartbeat := true }] })) = some ([0x109], true) ∧ (port {}).jtag.ir ≠ .highz
    ∧ (reg (flowOn (port {})) cleatFlow).getLsbD 31 = true ∧ (run (.cleatTransmitStart false) (flowOn (port ready2))).cleat.waitCts = true
    ∧ (run (.cleatTransmitStart false) (port ready2)).out = [.cleatFrame [0x106, 1, 2]] ∧ (run (.cleatTransmitStart false) (port ready2)).cleat.tx = [0x107]
    ∧ (run (.cleatTransmitStart true) (port { ready2 with attempts := 6 })).cleat.attempts = 7
    ∧ (run (.cleatTransmitStart true) (port { ready2 with attempts := 7 })).cleat.tx = [0x107]
    ∧ (run (.cleatTransmitStart false) (ctrl (port ready2) 0x23)).out = []
    ∧ (run (.cleatCtsChange true) (flowOn (port { ready2 with waitCts := true }))).out = [.cleatFrame [0x106, 1, 2]] := by decide +kernel

/-! ### The machine (O58 to O60) -/

theorem w_memory_form : State.reset.memoryWf ∧ step (withCmd ready 3 2 0 []) = .next (idle (withCmd ready 3 2 0 [])) := ⟨by unfold State.memoryWf; decide +kernel, rfl⟩
theorem w_idle : State.reset.pending = [] ∧ (nx (step { ready with pending := [.cleatBreak] })).pending = [] := by decide +kernel

/-! ### Ill-formed commands, one for each check -/

def at5 : Issue := { core := 3, slot := 1, lead := 0, next := 4 }
def farBranch : Issue := { at5 with branch := [(64, 8)] }
def okTag : AppendTag := { session := 7, layer := 0, kv := 0, head := 0, position := 5, dimFirst := 0, count := 2, srcFormat := 0, gen := 1 }
def okMerge : MergeRec := { slot := 3, source := 1, vector := 2, m := 0, l := 0, o := List.replicate 64 0 }

theorem test_wf_registers : (Instr.intAdd at5 false 255 0 1).wf = true ∧ (Instr.intAdd at5 false 256 0 1).wf = false
    ∧ (Instr.intAdd at5 false 0 256 1).wf = false ∧ (Instr.intNeg at5 true 1 256).wf = false
    ∧ (Instr.mmaj at5 0 0 1 2 3 4 (some 256) none).wf = false ∧ (Instr.mmaj at5 0 0 1 2 3 4 (some 5) none).wf = true := by decide +kernel
theorem test_wf_branch : (Instr.split { at5 with branch := [(63, 8)] }).wf = true ∧ (Instr.split farBranch).wf = false
    ∧ (Instr.split { at5 with stalled := [(0, 64)] }).wf = false ∧ (Instr.split { at5 with stalled := [(0, 63)] }).wf = true := by decide +kernel
theorem test_wf_sizes : (Instr.ld at5 1 2 16).wf = true ∧ (Instr.ld at5 1 2 3).wf = false ∧ (Instr.atom at5 .add .rlx .d 1 2 3 2).wf = false
    ∧ (Instr.atom at5 .add .rlx .d 1 2 3 4).wf = true ∧ (Instr.red at5 .add .int32 1 2 132).wf = false ∧ (Instr.red at5 .add .int32 1 2 0).wf = false
    ∧ (Instr.red at5 .add .int32 1 2 128).wf = true ∧ (Instr.red at5 .add .int64 1 2 12).wf = false ∧ (Instr.red at5 .cas .int32 1 2 8).wf = false
    ∧ (Instr.red at5 .fmin .int32 1 2 8).wf = false ∧ (Instr.red at5 .fmin .bf16 1 2 6).wf = true ∧ (Instr.atom at5 .add .rlx .d 1 2 3 16).wf = false
    ∧ (Instr.atom at5 .cas .rlx .d 1 2 3 16).wf = true ∧ (Instr.atom at5 .fadd .rlx .d 1 2 3 8).wf = false := by decide +kernel
theorem test_wf_host : (Instr.registerWrite 0 0x42 0 0xF).wf = false ∧ (Instr.registerWrite 0 0x1000000 0 0xF).wf = false
    ∧ (Instr.registerWrite 0 0x44 0 0xF).wf = true ∧ (Instr.bar2Write 0 []).wf = false ∧ (Instr.bar2Write 0 [1]).wf = true
    ∧ (Instr.qdbTailWrite 1 1024 0 0xF).wf = false ∧ (Instr.qdbTailWrite 1 1023 0 0xF).wf = true
    ∧ (Instr.responseWindowWrite 1 4096 0 0xF).wf = false ∧ (Instr.responseWindowWrite 1 4092 0 0xF).wf = true := by decide +kernel
theorem test_wf_sessions : (Instr.rowZeroFillComplete 16384).wf = false ∧ (Instr.rowZeroFillComplete 16383).wf = true
    ∧ (Instr.turn 3 (2 ^ 32)).wf = false ∧ (Instr.turn 3 (2 ^ 32 - 1)).wf = true ∧ (Instr.appendWrite 5 okTag [0, 0]).wf = true
    ∧ (Instr.appendWrite 4096 okTag [0, 0]).wf = false ∧ (Instr.appendWrite 5 okTag [0]).wf = false
    ∧ (Instr.appendWrite 5 { okTag with kv := 2 } [0, 0]).wf = false ∧ (Instr.mergeWrite 0 5 okMerge).wf = true
    ∧ (Instr.mergeWrite 0 5 { okMerge with slot := 64 }).wf = false ∧ (Instr.mergeWrite 0 5 { okMerge with o := [0] }).wf = false := by decide +kernel
theorem test_wf_memory : (Instr.gets 3 (2 ^ 32)).wf = false ∧ (Instr.gets 3 5).wf = true ∧ (Instr.farWrite (2 ^ 39) [1]).wf = false
    ∧ (Instr.farWrite 5 [1]).wf = true ∧ (Instr.stackRequestAccept 0 { use := .tableWrite, addr := 30, data := [1, 2, 3] }).wf = false
    ∧ (Instr.stackRequestAccept 0 { use := .tableWrite, addr := 30, data := [1, 2] }).wf = true
    ∧ (Instr.stackRequestAccept 0 { use := .writeBack 5, addr := 128, data := [1] }).wf = false
    ∧ (Instr.stackRequestAccept 0 { use := .lineFill, addr := 128, data := [1] }).wf = false
    ∧ (Instr.stackRequestAccept 0 { use := .lineFill, addr := 2 ^ 48 }).wf = false ∧ (Instr.stackRequestAccept 0 { use := .lineFill, addr := 128 }).wf = true
    ∧ (Instr.tableWalk 0 4096 0).wf = false ∧ (Instr.tableWalk 0 5 (2 ^ 48)).wf = false ∧ (Instr.tableWalk 0 5 5).wf = true := by decide +kernel
theorem test_wf_links : (Instr.lenotFlitRound { node := 0, port := 0 } [outMsg]).wf = true
    ∧ (Instr.lenotFlitRound { node := 0, port := 0 } [{ outMsg with dst := 9 }]).wf = false
    ∧ (Instr.lenotFlitRound { node := 0, port := 0 } [{ outMsg with body := List.replicate 129 0 }]).wf = false
    ∧ (Instr.hwsSleepReq 1 { lanes := [] }).wf = false ∧ (Instr.hwsSleepReq 1 { lanes := List.replicate 3 (List.replicate 2048 .p1) }).wf = false
    ∧ (Instr.hwsSleepReq 1 { lanes := List.replicate 4 (List.replicate 1536 .p1) }).wf = true
    ∧ (Instr.hwsSleepReq 1 { lanes := List.replicate 2 (List.replicate 3072 .p1) }).wf = true ∧ (Instr.gainUpdate 1 [1, 2, 3]).wf = false
    ∧ (Instr.startOfBurstDelimiter 1 ⟨[delimiter], [1, 2, 3, 4]⟩).wf = false ∧ (Instr.hwsTrainingComplete 1 ⟨none, [1, 2, 3]⟩).wf = false
    ∧ (Instr.gainUpdate 1 [1, 2, 3, 4]).wf = true ∧ (Instr.inboundTxnTimeout 1024 0).wf = false ∧ (Instr.inboundTxnTimeout 3 0).wf = true := by
  decide +kernel
theorem test_wf_rest : (Instr.thermalSensorSample [1]).wf = false ∧ (Instr.thermalSensorSample (List.replicate 9 40)).wf = true
    ∧ (Instr.coalesceHoldEnd 0 (2 ^ 16)).wf = false ∧ (Instr.coalesceHoldEnd 0 0x1001).wf = true ∧ Instr.cleatBreak.wf = true := by decide +kernel

/-- No row of the table gives bits, so no word spells a command. -/
theorem test_no_words (n w : Nat) : decodeTableWord n w = none ∧ (ready.withFetchWord n w) = ready := ⟨rfl, rfl⟩

end Sys2Proof.Tests
end

section
/-!
SUPPORT. An issued vector instruction acts on each thread of its set on its own (R186, R222, R233): what a write of registers, a raise
of flags and the move of a thread change, that each thread of the set is acted on once, and from these what a whole row does (`RowDone`).
-/
namespace Sys2Proof.Machine

/-! ### Cores and groups -/

theorem tput_tput_same {α : Type} (t : Tab α) (n : Nat) (x y : α) : tput (tput t n x) n y = tput t n y := by
  induction t with
  | nil => simp [tput]
  | cons p t ih =>
    obtain ⟨k, v⟩ := p
    rcases Nat.lt_trichotomy n k with h | rfl | h
    · simp [tput, h]
    · simp [tput]
    · simp [tput, Nat.lt_asymm h, Nat.ne_of_gt h, ih]

theorem find?_tput_other {α : Type} (t : Tab α) (n m : Nat) (x : α) (h : m ≠ n) :
    (tput t n x).find? (fun p => p.1 == m) = t.find? fun p => p.1 == m := by
  induction t with
  | nil => simp [tput, Ne.symm h]
  | cons p t ih =>
    obtain ⟨k, v⟩ := p
    rw [tput]
    split
    · simp [Ne.symm h]
    · split
      · subst_vars; simp [Ne.symm h]
      · rw [List.find?_cons, List.find?_cons, ih]

@[simp] theorem setCore_setCore_same (s : State) (c : Nat) (x y : Core) : setCore (setCore s c x) c y = setCore s c y := by
  simp [setCore, tput_tput_same]

theorem groupAt_setGroup_other (x : Core) (slot sl : Nat) (g : Group) (h : sl ≠ slot) :
    groupAt (setGroup x slot g) sl = groupAt x sl := by
  simp [groupAt, setGroup, find?_tput_other _ _ _ _ h]

theorem threadOf_eq {s : State} {c slot : Nat} {g : Group} (h : groupAt (coreAt s c) slot = some g) (u : Nat) :
    threadOf s c slot u = thread g u := by
  simp [threadOf, h]

/-- A register reads its thread's entry within the allocation and zero beyond it (R233). -/
theorem rd_eq (s : State) (c slot u r : Nat) :
    rd s c slot u r = if r < allocated s c slot then tget 0 (threadOf s c slot u).regs r else 0 := by
  unfold rd allocated threadOf
  cases groupAt (coreAt s c) slot with
  | none => simp
  | some g => rfl

/-! ### States that differ in the threads of one group -/

/-- `t` differs from `s` at most in the threads of the group that is resident in a slot of a core, and in the core's marks of integer
tiles (R237). -/
structure OnlyThreads (s t : State) (c slot : Nat) : Prop where
  group : ∃ g ts, groupAt (coreAt s c) slot = some g ∧ groupAt (coreAt t c) slot = some { g with threads := ts }
  slots : ∀ sl, sl ≠ slot → groupAt (coreAt t c) sl = groupAt (coreAt s c) sl
  rest : t = setCore s c { coreAt s c with groups := (coreAt t c).groups, intTiles := (coreAt t c).intTiles }

namespace OnlyThreads

variable {s t : State} {c slot : Nat}

theorem core (h : OnlyThreads s t c slot) :
    coreAt t c = { coreAt s c with groups := (coreAt t c).groups, intTiles := (coreAt t c).intTiles } := by
  have := congrArg (coreAt · c) h.rest
  simpa only [core_setCore_same] using this

theorem resident (h : OnlyThreads s t c slot) : ∃ g, groupAt (coreAt t c) slot = some g := by
  obtain ⟨g, ts, -, ht⟩ := h.group
  exact ⟨_, ht⟩

theorem allocated (h : OnlyThreads s t c slot) : allocated t c slot = allocated s c slot := by
  obtain ⟨g, ts, hs, ht⟩ := h.group
  simp only [Machine.allocated, hs, ht]
  rw [h.core]
  rfl

/-- A thread that has not changed reads the same registers. -/
theorem rd_of_threadOf (h : OnlyThreads s t c slot) {u : Nat} (hu : threadOf t c slot u = threadOf s c slot u) (r : Nat) :
    rd t c slot u r = rd s c slot u r := by
  rw [rd_eq, rd_eq, hu, h.allocated]

/-- Writing other threads of the group or other marks keeps the relation. -/
theorem setCore (h : OnlyThreads s t c slot) {x : Core} {gs : Tab Group} {tiles : List (Nat × Nat)}
    (hx : x = { coreAt t c with groups := gs, intTiles := tiles })
    (hg : ∀ g, groupAt (coreAt t c) slot = some g → ∃ ts, groupAt x slot = some { g with threads := ts })
    (hs : ∀ sl, sl ≠ slot → groupAt x sl = groupAt (coreAt t c) sl) : OnlyThreads s (setCore t c x) c slot where
  group := by
    obtain ⟨g, ts, h1, h2⟩ := h.group
    obtain ⟨ts', h3⟩ := hg _ h2
    exact ⟨g, ts', h1, by rw [core_setCore_same, h3]⟩
  slots sl hsl := by rw [core_setCore_same, hs sl hsl, h.slots sl hsl]
  rest := by
    rw [core_setCore_same]
    have hcore : x = { coreAt s c with groups := x.groups, intTiles := x.intTiles } := by
      rw [hx, h.core]
    rw [← hcore]
    exact (congrArg (Machine.setCore · c x) h.rest).trans (setCore_setCore_same s c _ x)

theorem modThread (h : OnlyThreads s t c slot) (u : Nat) (f : Thread → Thread) : OnlyThreads s (modThread t c slot u f) c slot := by
  obtain ⟨g, hg⟩ := h.resident
  rw [modThread_eq hg]
  refine h.setCore (x := setGroup (coreAt t c) slot _) rfl (fun g' hg' => ?_) (fun sl hsl => groupAt_setGroup_other _ _ _ _ hsl)
  obtain rfl : g = g' := Option.some.inj (hg.symm.trans hg')
  exact ⟨_, groupAt_setGroup_same _ _ _⟩

end OnlyThreads

/-! ### One thread -/

section
variable {s0 s : State} {c slot : Nat}

theorem threadOf_modThread_same (h : OnlyThreads s0 s c slot) (u : Nat) (f : Thread → Thread) :
    threadOf (modThread s c slot u f) c slot u = f (threadOf s c slot u) := by
  obtain ⟨g, hg⟩ := h.resident
  rw [modThread_eq hg, threadOf_eq hg, threadOf_eq (by rw [core_setCore_same, groupAt_setGroup_same])]
  exact tget_tput_same _ _ _ _

theorem threadOf_modThread_other (h : OnlyThreads s0 s c slot) {u v : Nat} (hv : v ≠ u) (f : Thread → Thread) :
    threadOf (modThread s c slot u f) c slot v = threadOf s c slot v := by
  obtain ⟨g, hg⟩ := h.resident
  rw [modThread_eq hg, threadOf_eq hg, threadOf_eq (by rw [core_setCore_same, groupAt_setGroup_same])]
  exact tget_tput_other _ _ _ _ _ hv

/-- The registers of a thread once register `r` holds the low 32 bits of `v`; a register that holds zero is not listed. -/
def putReg (r v : Nat) (regs : Tab Word) : Tab Word := if v % 2 ^ 32 = 0 then tdel regs r else tput regs r (BitVec.ofNat 32 v)

theorem tget_putReg_same (r v : Nat) (regs : Tab Word) : tget 0 (putReg r v regs) r = BitVec.ofNat 32 v := by
  unfold putReg
  split
  next hz => rw [tget_tdel_same]; exact (BitVec.eq_of_toNat_eq (by simpa using hz)).symm
  next => exact tget_tput_same _ _ _ _

theorem tget_putReg_other {r k : Nat} (v : Nat) (regs : Tab Word) (h : k ≠ r) : tget 0 (putReg r v regs) k = tget 0 regs k := by
  unfold putReg
  split
  · exact tget_tdel_other _ _ _ _ h
  · exact tget_tput_other _ _ _ _ _ h

/-- A write beyond the allocation has no effect (R233). -/
theorem wr_beyond (h : allocated s c slot ≤ r) (u v : Nat) : wr s c slot u r v = s := by
  unfold wr
  unfold allocated at h
  cases hg : groupAt (coreAt s c) slot with
  | none => rfl
  | some g => simp only [hg] at h; exact if_neg (by omega)

/-- A write within the allocation drops the marks of the tiles that it meets, and then sets the thread's register. -/
theorem wr_within (h : OnlyThreads s0 s c slot) {r : Nat} (hr : r < allocated s c slot) (u v : Nat) :
    ∃ s', OnlyThreads s0 s' c slot ∧ (∀ w, threadOf s' c slot w = threadOf s c slot w) ∧
      wr s c slot u r v = modThread s' c slot u fun x => { x with regs := putReg r v x.regs } := by
  obtain ⟨g, hg⟩ := h.resident
  refine ⟨setCore s c { coreAt s c with intTiles := (coreAt s c).intTiles.filter fun p => !(p.1 == slot && p.2 ≤ r && r < p.2 + 16) },
    h.setCore rfl (fun g hg => ⟨g.threads, hg⟩) (fun _ _ => rfl), fun w => ?_, ?_⟩
  · rw [threadOf_eq hg, threadOf_eq (by rw [core_setCore_same]; exact hg)]
  · unfold wr
    simp only [allocated, hg] at hr ⊢
    exact if_pos hr

theorem OnlyThreads.wr (h : OnlyThreads s0 s c slot) (u r v : Nat) : OnlyThreads s0 (wr s c slot u r v) c slot := by
  by_cases hr : r < Machine.allocated s c slot
  · obtain ⟨s', h', -, e⟩ := wr_within h hr u v
    exact e ▸ h'.modThread u _
  · rwa [wr_beyond (Nat.le_of_not_lt hr)]

theorem threadOf_wr_other (h : OnlyThreads s0 s c slot) {u w : Nat} (hw : w ≠ u) (r v : Nat) :
    threadOf (wr s c slot u r v) c slot w = threadOf s c slot w := by
  by_cases hr : r < allocated s c slot
  · obtain ⟨s', h', hs', e⟩ := wr_within h hr u v
    rw [e, threadOf_modThread_other h' hw, hs']
  · rw [wr_beyond (Nat.le_of_not_lt hr)]

theorem threadOf_wr_same (h : OnlyThreads s0 s c slot) (u r v : Nat) :
    threadOf (wr s c slot u r v) c slot u = { threadOf s c slot u with
      regs := if r < allocated s c slot then putReg r v (threadOf s c slot u).regs else (threadOf s c slot u).regs } := by
  split
  next hr =>
    obtain ⟨s', h', hs', e⟩ := wr_within h hr u v
    rw [e, threadOf_modThread_same h', hs']
  next hr => rw [wr_beyond (Nat.le_of_not_lt hr)]

/-- What a register of a thread reads after a write to one of the thread's registers. -/
theorem rd_wr (h : OnlyThreads s0 s c slot) (u r v k : Nat) :
    rd (wr s c slot u r v) c slot u k = if k = r ∧ r < allocated s c slot then BitVec.ofNat 32 v else rd s c slot u k := by
  rw [rd_eq, rd_eq s, threadOf_wr_same h, (h.wr u r v).allocated, h.allocated]
  by_cases hr : r < allocated s0 c slot
  · rw [if_pos hr]
    by_cases hk : k = r
    · subst hk; rw [if_pos hr, if_pos ⟨rfl, hr⟩]; exact tget_putReg_same _ _ _
    · rw [tget_putReg_other _ _ hk, if_neg (not_and_of_not_left _ hk)]
  · rw [if_neg hr, if_neg (not_and_of_not_right _ hr)]

theorem OnlyThreads.wrMany (h : OnlyThreads s0 s c slot) (u d v n : Nat) : OnlyThreads s0 (wrMany s c slot u d v n) c slot := by
  induction n generalizing s d v with
  | zero => exact h
  | succ n ih => exact ih (h.wr u d v) _ _

theorem threadOf_wrMany_other (h : OnlyThreads s0 s c slot) {u w : Nat} (hw : w ≠ u) (d v n : Nat) :
    threadOf (wrMany s c slot u d v n) c slot w = threadOf s c slot w := by
  induction n generalizing s d v with
  | zero => rfl
  | succ n ih => rw [wrMany, ih (h.wr u d v), threadOf_wr_other h hw]

theorem threadOf_wrMany_same (h : OnlyThreads s0 s c slot) (u d v n : Nat) :
    ∃ rs, threadOf (wrMany s c slot u d v n) c slot u = { threadOf s c slot u with regs := rs } := by
  induction n generalizing s d v with
  | zero => exact ⟨_, rfl⟩
  | succ n ih =>
    obtain ⟨rs, e⟩ := ih (h.wr u d v) (d + 1) (v / 2 ^ 32)
    exact ⟨rs, by rw [wrMany, e, threadOf_wr_same h]⟩

theorem rd_wrMany_outside (h : OnlyThreads s0 s c slot) {d n k : Nat} (hk : k < d ∨ d + n ≤ k ∨ allocated s0 c slot ≤ k) (u v : Nat) :
    rd (wrMany s c slot u d v n) c slot u k = rd s c slot u k := by
  induction n generalizing s d v with
  | zero => rfl
  | succ n ih =>
    rw [wrMany, ih (h.wr u d v) (by omega), rd_wr h, h.allocated, if_neg (by omega)]

/-- The `k`-th of consecutive registers holds the `k`-th 32 bits of the value written to them. -/
theorem rd_wrMany_within (h : OnlyThreads s0 s c slot) {d n k : Nat} (hk : k < n) (ha : d + k < allocated s0 c slot) (u v : Nat) :
    rd (wrMany s c slot u d v n) c slot u (d + k) = BitVec.ofNat 32 (v / 2 ^ (32 * k)) := by
  induction n generalizing s d v k with
  | zero => omega
  | succ n ih =>
    rw [wrMany]
    cases k with
    | zero =>
      rw [rd_wrMany_outside (h.wr u d v) (by omega), rd_wr h, h.allocated, if_pos ⟨rfl, by omega⟩]
      simp
    | succ k =>
      rw [show d + (k + 1) = d + 1 + k by omega, ih (h.wr u d v) (by omega) (by omega), Nat.div_div_eq_div_mul, ← Nat.pow_add,
        show 32 + 32 * k = 32 * (k + 1) by omega]

theorem OnlyThreads.raiseFlags (h : OnlyThreads s0 s c slot) (u fl : Nat) : OnlyThreads s0 (raiseFlags s c slot u fl) c slot := by
  unfold Machine.raiseFlags
  split
  · exact h
  · exact h.modThread u _

theorem threadOf_raiseFlags_other (h : OnlyThreads s0 s c slot) {u w : Nat} (hw : w ≠ u) (fl : Nat) :
    threadOf (raiseFlags s c slot u fl) c slot w = threadOf s c slot w := by
  unfold raiseFlags
  split
  · rfl
  · exact threadOf_modThread_other h hw _

theorem threadOf_raiseFlags_same (h : OnlyThreads s0 s c slot) (u fl : Nat) :
    threadOf (raiseFlags s c slot u fl) c slot u = { threadOf s c slot u with flags := (threadOf s c slot u).flags ||| fl } := by
  unfold raiseFlags
  split
  next hz => simp [hz]
  next => exact threadOf_modThread_same h u _

theorem OnlyThreads.putRes (h : OnlyThreads s0 s c slot) (u d n : Nat) (r : Nat × Nat) :
    OnlyThreads s0 (putRes s c slot u d n r) c slot := (h.wrMany u d r.1 n).raiseFlags u r.2

theorem threadOf_putRes_other (h : OnlyThreads s0 s c slot) {u w : Nat} (hw : w ≠ u) (d n : Nat) (r : Nat × Nat) :
    threadOf (putRes s c slot u d n r) c slot w = threadOf s c slot w := by
  rw [putRes, threadOf_raiseFlags_other (h.wrMany u d r.1 n) hw, threadOf_wrMany_other h hw]

theorem threadOf_putRes_same (h : OnlyThreads s0 s c slot) (u d n : Nat) (r : Nat × Nat) :
    threadOf (putRes s c slot u d n r) c slot u = { threadOf s c slot u with
      regs := (threadOf (wrMany s c slot u d r.1 n) c slot u).regs, flags := (threadOf s c slot u).flags ||| r.2 } := by
  obtain ⟨rs, e⟩ := threadOf_wrMany_same h u d r.1 n
  rw [putRes, threadOf_raiseFlags_same (h.wrMany u d r.1 n), e]

end

/-! ### Each thread of a set -/

/-- Of the threads of a group, `f` changes at most the one that it is given, and nothing outside the group but marks. -/
structure ActsOnOne (c slot : Nat) (f : State → Nat → State) : Prop where
  frame : ∀ s0 s u, OnlyThreads s0 s c slot → OnlyThreads s0 (f s u) c slot
  others : ∀ s0 s u w, OnlyThreads s0 s c slot → w ≠ u → threadOf (f s u) c slot w = threadOf s c slot w

theorem ActsOnOne.putRes (c slot d n : Nat) (f : State → Nat → Nat × Nat) :
    ActsOnOne c slot fun s u => putRes s c slot u d n (f s u) where
  frame _ _ u h := h.putRes u d n _
  others _ _ _ _ h hw := threadOf_putRes_other h hw d n _

theorem ActsOnOne.modThread (c slot : Nat) (f : Nat → Thread → Thread) : ActsOnOne c slot fun s u => modThread s c slot u (f u) where
  frame _ _ u h := h.modThread u _
  others _ _ _ _ h hw := threadOf_modThread_other h hw _

namespace ActsOnOne

variable {c slot : Nat} {f : State → Nat → State} {s0 s : State}

theorem foldl_frame (hf : ActsOnOne c slot f) (h : OnlyThreads s0 s c slot) (l : List Nat) : OnlyThreads s0 (l.foldl f s) c slot := by
  induction l generalizing s with
  | nil => exact h
  | cons u l ih => exact ih (hf.frame _ _ u h)

theorem foldl_others (hf : ActsOnOne c slot f) (h : OnlyThreads s0 s c slot) {l : List Nat} {w : Nat} (hw : w ∉ l) :
    threadOf (l.foldl f s) c slot w = threadOf s c slot w := by
  induction l generalizing s with
  | nil => rfl
  | cons u l ih =>
    rw [List.mem_cons, not_or] at hw
    rw [List.foldl_cons, ih (hf.frame _ _ u h) hw.2, hf.others _ _ u w h hw.1]

/-- Each thread of a set is acted on once, in a state in which the thread is still as it was. -/
theorem foldl_each (hf : ActsOnOne c slot f) (h : OnlyThreads s0 s c slot) {l : List Nat} (hl : l.Nodup) {u : Nat} (hu : u ∈ l) :
    ∃ s', OnlyThreads s0 s' c slot ∧ threadOf s' c slot u = threadOf s c slot u ∧
      threadOf (l.foldl f s) c slot u = threadOf (f s' u) c slot u := by
  induction l generalizing s with
  | nil => cases hu
  | cons v l ih =>
    obtain ⟨hv, hl⟩ := List.nodup_cons.mp hl
    have hfv := hf.frame _ _ v h
    rcases List.mem_cons.mp hu with rfl | hu
    · exact ⟨s, h, rfl, hf.foldl_others hfv hv⟩
    · obtain ⟨s', h', e1, e2⟩ := ih hfv hl hu
      have hne : u ≠ v := fun e => hv (e ▸ hu)
      exact ⟨s', h', e1.trans (hf.others _ _ v u h hne), e2⟩

end ActsOnOne

section
variable {s0 s : State} {i : Issue} {set : List Nat}

theorem OnlyThreads.advancePc (h : OnlyThreads s0 s i.core.val i.slot.val) (set : List Nat) :
    OnlyThreads s0 (advancePc s i set) i.core.val i.slot.val :=
  (ActsOnOne.modThread _ _ _).foldl_frame h set

theorem threadOf_advancePc_not_mem (h : OnlyThreads s0 s i.core.val i.slot.val) {u : Nat} (hu : u ∉ set) :
    threadOf (advancePc s i set) i.core.val i.slot.val u = threadOf s i.core.val i.slot.val u :=
  (ActsOnOne.modThread _ _ _).foldl_others h hu

theorem threadOf_advancePc_mem (h : OnlyThreads s0 s i.core.val i.slot.val) (hset : set.Nodup) {u : Nat} (hu : u ∈ set) :
    threadOf (advancePc s i set) i.core.val i.slot.val u = { threadOf s i.core.val i.slot.val u with pc := goesTo i u } := by
  obtain ⟨s', hs', e1, e2⟩ :=
    (ActsOnOne.modThread i.core.val i.slot.val fun u x => { x with pc := goesTo i u }).foldl_each h hset hu
  rw [advancePc, e2, threadOf_modThread_same hs', e1]

theorem rd_advancePc (h : OnlyThreads s0 s i.core.val i.slot.val) (hset : set.Nodup) (u r : Nat) :
    rd (advancePc s i set) i.core.val i.slot.val u r = rd s i.core.val i.slot.val u r := by
  rw [rd_eq, rd_eq s, (h.advancePc set).allocated, h.allocated]
  by_cases hu : u ∈ set
  · rw [threadOf_advancePc_mem h hset hu]
  · rw [threadOf_advancePc_not_mem h hu]

end

/-! ### Issue -/

theorem mergeCtx_groups_blocks (x : Core) (a b : Nat) : (mergeCtx x a b).groups = x.groups ∧ (mergeCtx x a b).blocks = x.blocks := by
  unfold mergeCtx
  split
  · split <;> exact ⟨rfl, rfl⟩
  · exact ⟨rfl, rfl⟩

/-- Repacking moves threads between contexts alone (R191). -/
theorem repackAt_groups_blocks (x : Core) (slot : Nat) (g : Group) (t : Nat) :
    (repackAt x slot g t).groups = x.groups ∧ (repackAt x slot g t).blocks = x.blocks := by
  unfold repackAt
  refine List.foldlRecOn (motive := fun y : Core => y.groups = x.groups ∧ y.blocks = x.blocks) _ _ ⟨rfl, rfl⟩ fun y hy j _ => ?_
  split
  · split
    · rw [(mergeCtx_groups_blocks _ _ _).1, (mergeCtx_groups_blocks _ _ _).2]; exact hy
    · exact hy
  · exact hy

/-- An issue by a resident group changes the scheduler's part of the core alone. -/
theorem tryIssue_core {s s1 : State} {i : Issue} {regs set : List Nat} (h : tryIssue s i regs = some (set, s1)) :
    ∃ x g, s1 = setCore s i.core.val x ∧ x.groups = (coreAt s i.core.val).groups ∧ x.blocks = (coreAt s i.core.val).blocks ∧
      groupAt (coreAt s i.core.val) i.slot.val = some g := by
  unfold tryIssue at h
  simp only [] at h
  split at h
  next l g hl hg =>
    split at h
    · cases h
    split at h
    · cases h
    split at h
    · cases h
    split at h
    · cases h
      exact ⟨_, g, rfl, (repackAt_groups_blocks _ _ _ _).1, (repackAt_groups_blocks _ _ _ _).2, hg⟩
    · cases h
  next => cases h

theorem regOf_of_blocks {x y : Core} (h : x.blocks = y.blocks) (g : Group) (t r : Nat) : regOf x g t r = regOf y g t r := by
  have hb : blockOf x g = blockOf y g := by rw [blockOf, blockOf, h]
  rw [regOf, regOf, regCount, regCount, hb]

section
variable {s s1 : State} {i : Issue} {regs set : List Nat}

theorem Issues.onlyThreads (h : Issues s i regs set s1) : OnlyThreads s1 s1 i.core.val i.slot.val := by
  obtain ⟨x, g, rfl, hg, -, hr⟩ := tryIssue_core h.issued
  refine ⟨⟨g, g.threads, ?_⟩, fun _ _ => rfl, ?_⟩
  · rw [core_setCore_same]
    have : groupAt x i.slot.val = some g := by rw [groupAt, hg]; exact hr
    exact ⟨this, this⟩
  · rw [core_setCore_same, setCore_setCore_same]

/-- The scheduler's count of an issue changes no register. -/
theorem Issues.rd (h : Issues s i regs set s1) (u r : Nat) : rd s1 i.core.val i.slot.val u r = rd s i.core.val i.slot.val u r := by
  obtain ⟨x, g, rfl, hg, hb, hr⟩ := tryIssue_core h.issued
  have hx : groupAt x i.slot.val = some g := by rw [groupAt, hg]; exact hr
  simp only [Machine.rd, core_setCore_same, hx, hr, regOf_of_blocks hb]

/-! ### Rows of the vector unit -/

/-- The value of an instruction for a thread depends on the thread's own registers alone. -/
def ReadsOwn (c slot : Nat) (f : State → Nat → Nat × Nat) : Prop :=
  ∀ s t u, (∀ r, rd s c slot u r = rd t c slot u r) → f s u = f t u

/-- The writes of a row: each thread of the set, in order, takes the value and the flags of `f`. -/
def putAll (s : State) (i : Issue) (set : List Nat) (d n : Nat) (f : State → Nat → Nat × Nat) : State :=
  set.foldl (fun s u => putRes s i.core.val i.slot.val u d n (f s u)) s

/-- A row's writes to a thread are one write of the value that the thread's operands gave before the row. -/
theorem threadOf_putAll_mem (h : Issues s i regs set s1) {f : State → Nat → Nat × Nat} (hf : ReadsOwn i.core.val i.slot.val f)
    (d n : Nat) {u : Nat} (hu : u ∈ set) :
    ∃ s', OnlyThreads s1 s' i.core.val i.slot.val ∧ threadOf s' i.core.val i.slot.val u = threadOf s1 i.core.val i.slot.val u ∧
      threadOf (putAll s1 i set d n f) i.core.val i.slot.val u = { threadOf s1 i.core.val i.slot.val u with
        regs := (threadOf (wrMany s' i.core.val i.slot.val u d (f s u).1 n) i.core.val i.slot.val u).regs,
        flags := (threadOf s1 i.core.val i.slot.val u).flags ||| (f s u).2 } := by
  obtain ⟨s', hs', e1, e2⟩ := (ActsOnOne.putRes _ _ d n f).foldl_each h.onlyThreads h.distinct hu
  have hval : f s' u = f s u := hf _ _ u fun r => (hs'.rd_of_threadOf e1 r).trans (h.rd u r)
  exact ⟨s', hs', e1, by rw [putAll, e2, threadOf_putRes_same hs', hval, e1]⟩

/-- What a row `perThread s i regs (putRes …)` does to the threads of its set and leaves as it was. -/
theorem perThread_putRes_done (h : Issues s i regs set s1) {f : State → Nat → Nat × Nat} (hf : ReadsOwn i.core.val i.slot.val f)
    (d n : Nat) : RowDone s1 (perThread s i regs fun s u => putRes s i.core.val i.slot.val u d n (f s u)) i set d n (f s) := by
  have put := ActsOnOne.putRes i.core.val i.slot.val d n f
  have hp : OnlyThreads s1 (putAll s1 i set d n f) i.core.val i.slot.val := put.foldl_frame h.onlyThreads set
  have kept : ∀ u, u ∉ set →
      threadOf (putAll s1 i set d n f) i.core.val i.slot.val u = threadOf s1 i.core.val i.slot.val u :=
    fun u hu => put.foldl_others h.onlyThreads hu
  have reads : ∀ u ∈ set, ∃ s', OnlyThreads s1 s' i.core.val i.slot.val ∧
      threadOf s' i.core.val i.slot.val u = threadOf s1 i.core.val i.slot.val u ∧
      ∀ r, Machine.rd (putAll s1 i set d n f) i.core.val i.slot.val u r =
        Machine.rd (wrMany s' i.core.val i.slot.val u d (f s u).1 n) i.core.val i.slot.val u r := fun u hu => by
    obtain ⟨s', hs', e1, e⟩ := threadOf_putAll_mem h hf d n hu
    exact ⟨s', hs', e1, fun r => by rw [rd_eq, e, hp.allocated, rd_eq, (hs'.wrMany u d _ n).allocated]⟩
  rw [perThread_issues h.issued, ← putAll]
  refine ⟨fun u hu => ?_, fun u hu => ?_, fun u hu k hk ha => ?_, fun u r hr => ?_, (hp.advancePc set).slots, (hp.advancePc set).rest⟩
  · rw [threadOf_advancePc_not_mem hp hu, kept u hu]
  · obtain ⟨s', -, -, e⟩ := threadOf_putAll_mem h hf d n hu
    exact ⟨_, by rw [threadOf_advancePc_mem hp h.distinct hu, e]⟩
  · obtain ⟨s', hs', -, e⟩ := reads u hu
    rw [rd_advancePc hp h.distinct, e, rd_wrMany_within hs' hk ha]
  · rw [rd_advancePc hp h.distinct]
    by_cases hu : u ∈ set
    · obtain ⟨s', hs', e1, e⟩ := reads u hu
      rw [e, rd_wrMany_outside hs' hr, hs'.rd_of_threadOf e1]
    · exact hp.rd_of_threadOf (kept u hu) r

end
end Sys2Proof.Machine
end

section
/-!
SUPPORT. The integer rows of the vector unit: their operands, and the values of R218 to R221 against exact arithmetic.
-/
namespace Sys2Proof.Machine

/-! ### Operands -/

theorem intWidthOf_pos (wide : Bool) : 0 < intWidthOf wide := by cases wide <;> decide

/-- An operand is a word of its width. -/
theorem rdInt_lt (s : State) (c slot u r : Nat) (wide : Bool) : rdInt s c slot u r wide < 2 ^ intWidthOf wide := by
  have lo := (rd s c slot u r).isLt
  have hi := (rd s c slot u (r + 1)).isLt
  cases wide
  · exact lo
  · simp only [rdInt, rd64, intWidthOf, if_true]; omega

theorem rdInt_congr {s t : State} {c slot u : Nat} (h : ∀ r, rd s c slot u r = rd t c slot u r) (r : Nat) (wide : Bool) :
    rdInt s c slot u r wide = rdInt t c slot u r wide := by
  rw [rdInt, rdInt, rd64, rd64, h, h]

/-! ### Rows -/

section
variable {s s1 : State} {i : Issue} {set : List Nat} {wide : Bool} {d a b : Nat} {o : Host.Outcome State Fault Refusal}

theorem intRow_done {srcs : List Nat} (h : Issues s i (intRegs wide d ++ srcs) set s1) {f : State → Nat → Nat × Nat}
    (hf : ReadsOwn i.core.val i.slot.val f) (ho : o = whenLive s (.next (intRow s i wide d srcs f))) {g : Nat → Nat × Nat}
    (hg : ∀ u, f s u = g u) : ∃ t, o = .next t ∧ RowDone s1 t i set d (if wide then 2 else 1) g :=
  ⟨_, ho.trans (whenLive_live h.live _), funext hg ▸ perThread_putRes_done h hf d _⟩

/-- A row of two integer operands gives each thread `op` of its operands. -/
theorem binaryRow_done (op : Nat → Nat → Nat × Nat) (h : Issues s i (intRegs wide d ++ (intRegs wide a ++ intRegs wide b)) set s1)
    (ho : o = whenLive s (.next (intRow s i wide d (intRegs wide a ++ intRegs wide b) fun s u =>
      op (rdInt s i.core.val i.slot.val u a wide) (rdInt s i.core.val i.slot.val u b wide)))) {g : Nat → Nat × Nat}
    (hg : ∀ u, op (rdInt s i.core.val i.slot.val u a wide) (rdInt s i.core.val i.slot.val u b wide) = g u) :
    ∃ t, o = .next t ∧ RowDone s1 t i set d (if wide then 2 else 1) g :=
  intRow_done h (fun s t u e => by rw [rdInt_congr e, rdInt_congr e]) ho hg

/-- A row of one integer operand gives each thread `op` of its operand. -/
theorem unaryRow_done (op : Nat → Nat × Nat) (h : Issues s i (intRegs wide d ++ intRegs wide a) set s1)
    (ho : o = whenLive s (.next (intRow s i wide d (intRegs wide a) fun s u => op (rdInt s i.core.val i.slot.val u a wide))))
    {g : Nat → Nat × Nat} (hg : ∀ u, op (rdInt s i.core.val i.slot.val u a wide) = g u) :
    ∃ t, o = .next t ∧ RowDone s1 t i set d (if wide then 2 else 1) g :=
  intRow_done h (fun s t u e => by rw [rdInt_congr e]) ho hg

/-- A shift or rotate gives each thread `op` of its operand and its 32-bit amount, and raises no flag. -/
theorem shiftRow_done (op : Nat → Nat → Nat) (h : Issues s i (intRegs wide d ++ (intRegs wide a ++ [b])) set s1)
    (ho : o = whenLive s (.next (intRow s i wide d (intRegs wide a ++ [b]) fun s u =>
      (op (rdInt s i.core.val i.slot.val u a wide) (rd s i.core.val i.slot.val u b).toNat, 0)))) {g : Nat → Nat}
    (hg : ∀ u, op (rdInt s i.core.val i.slot.val u a wide) (rd s i.core.val i.slot.val u b).toNat = g u) :
    ∃ t, o = .next t ∧ RowDone s1 t i set d (if wide then 2 else 1) fun u => (g u, 0) :=
  intRow_done h (fun s t u e => by rw [rdInt_congr e, e]) ho fun u => by rw [hg]

end

/-! ### Wrapping arithmetic (R218) -/

/-- Adding the modulus before a natural subtraction gives the integer difference modulo it. -/
theorem add_sub_mod_eq {w y : Nat} (x : Nat) (hy : y < 2 ^ w) : (x + 2 ^ w - y) % 2 ^ w = (((x : Int) - y) % 2 ^ w).toNat := by
  have hsum : ((x + 2 ^ w - y : Nat) : Int) = x - y + 2 ^ w := by
    rw [Int.ofNat_sub (by omega)]; push_cast; omega
  rw [← Int.add_emod_right, ← hsum]
  exact_mod_cast (Int.toNat_natCast _).symm

theorem sub_mod_eq_neg {w x : Nat} (hx : x < 2 ^ w) : (2 ^ w - x) % 2 ^ w = ((-(x : Int)) % 2 ^ w).toNat := by
  simpa using add_sub_mod_eq 0 hx

theorem sval_of_lt {w x : Nat} (hx : x < 2 ^ w) : sval w x = if 2 ^ (w - 1) ≤ x then (x : Int) - (2 ^ w : Nat) else x := by
  rw [sval, Nat.mod_eq_of_lt hx]; push_cast; rfl

theorem abs_eq_natAbs {w x : Nat} (hx : x < 2 ^ w) : (if sval w x < 0 then 2 ^ w - x else x) = (sval w x).natAbs := by
  rw [sval_of_lt hx]
  split <;> split <;> omega

/-- NEG and ABS of the most negative value give it back. -/
theorem neg_abs_most_negative (wide : Bool) :
    ((-((2 ^ (intWidthOf wide - 1) : Nat) : Int)) % 2 ^ intWidthOf wide).toNat = 2 ^ (intWidthOf wide - 1) ∧
    (sval (intWidthOf wide) (2 ^ (intWidthOf wide - 1))).natAbs % 2 ^ intWidthOf wide = 2 ^ (intWidthOf wide - 1) := by
  cases wide <;> decide

/-! ### Shifts, rotates and counts (R220) -/

theorem shrVal_eq {w x : Nat} (hx : x < 2 ^ w) (n : Nat) : shrVal w x n = if n < w then x / 2 ^ n else 0 := by
  rw [shrVal, Nat.mod_eq_of_lt hx]

theorem rolVal_eq {w x : Nat} (hx : x < 2 ^ w) (n : Nat) : rolVal w x n = (x * 2 ^ (n % w) + x / 2 ^ (w - n % w)) % 2 ^ w := by
  simp only [rolVal, Nat.mod_eq_of_lt hx]

/-- A rotation to the right by `n` is one to the left by `w - n`, and none where `w` divides `n`. -/
theorem rorVal_eq {w x : Nat} (hw : 0 < w) (hx : x < 2 ^ w) (n : Nat) :
    rorVal w x n = (x * 2 ^ (w - n % w) + x / 2 ^ (n % w)) % 2 ^ w := by
  rw [rorVal, rolVal_eq hx]
  have hn := Nat.mod_lt n hw
  rcases Nat.eq_zero_or_pos (n % w) with h0 | hpos
  · simp [h0, Nat.div_eq_of_lt hx]
  · rw [Nat.mod_eq_of_lt (by omega : w - n % w < w), Nat.sub_sub_self (Nat.le_of_lt hn)]

/-- The leading zeros of a word stand above its highest one. -/
theorem clzVal_spec {w x : Nat} (hx : x < 2 ^ w) : (x = 0 → clzVal w x = w) ∧
    (x ≠ 0 → clzVal w x < w ∧ 2 ^ (w - 1 - clzVal w x) ≤ x ∧ x < 2 ^ (w - clzVal w x)) := by
  refine ⟨fun h0 => by simp [clzVal, h0], fun h0 => ?_⟩
  have hlog : x.log2 < w := (Nat.log2_lt h0).mpr hx
  have hclz : clzVal w x = w - 1 - x.log2 := by rw [clzVal, Nat.mod_eq_of_lt hx, if_neg h0]
  rw [hclz, show w - 1 - (w - 1 - x.log2) = x.log2 by omega, show w - (w - 1 - x.log2) = x.log2 + 1 by omega]
  exact ⟨by omega, Nat.log2_self_le h0, Nat.lt_log2_self⟩

theorem ctzFrom_zero (n : Nat) : ctzFrom 0 n = n := by
  induction n with
  | zero => rfl
  | succ n ih => rw [ctzFrom, if_neg (by decide), Nat.zero_div, ih, Nat.add_comm]

theorem ctzFrom_spec {n x : Nat} (hx : x < 2 ^ n) (h0 : x ≠ 0) :
    ctzFrom x n < n ∧ x % 2 ^ ctzFrom x n = 0 ∧ x / 2 ^ ctzFrom x n % 2 = 1 := by
  induction n generalizing x with
  | zero => omega
  | succ n ih =>
    rw [ctzFrom]
    split
    next hodd => simp [hodd, Nat.mod_one]
    next heven =>
      obtain ⟨y, rfl⟩ : ∃ y, x = 2 * y := ⟨x / 2, by omega⟩
      obtain ⟨hlt, hmod, hdiv⟩ := ih (x := y) (by omega) (by omega)
      rw [Nat.mul_div_cancel_left y Nat.two_pos, Nat.add_comm, Nat.pow_succ']
      exact ⟨by omega, by rw [Nat.mul_mod_mul_left, hmod], by rw [Nat.mul_div_mul_left _ _ Nat.two_pos, hdiv]⟩

/-- The trailing zeros of a word stand below its lowest one. -/
theorem ctzVal_spec {w x : Nat} (hx : x < 2 ^ w) : (x = 0 → ctzVal w x = w) ∧
    (x ≠ 0 → ctzVal w x < w ∧ x % 2 ^ ctzVal w x = 0 ∧ x / 2 ^ ctzVal w x % 2 = 1) := by
  rw [ctzVal, Nat.mod_eq_of_lt hx]
  exact ⟨fun h0 => by rw [h0, ctzFrom_zero], ctzFrom_spec hx⟩

/-! ### Division and saturation (R219, R221) -/

theorem intMin_le_intMax (sg : Bool) (w : Nat) : intMin sg w ≤ intMax sg w := by
  have h : ∀ k : Nat, (0 : Int) < 2 ^ k := fun k => Int.pow_pos (by decide)
  have hs := h (w - 1)
  have hu := h w
  cases sg <;> simp only [intMin, intMax, if_true, if_false, Bool.false_eq_true] <;> omega

/-- A saturating operation clamps the exact value to the type's range, and raises IOV exactly outside it. -/
theorem saturate_eq (sg : Bool) (w : Nat) (v : Int) : saturate sg w v =
    ((max (intMin sg w) (min (intMax sg w) v) % 2 ^ w).toNat, if intMin sg w ≤ v ∧ v ≤ intMax sg w then 0 else 32) := by
  have hle := intMin_le_intMax sg w
  unfold saturate
  split
  next hlo => rw [Int.min_eq_right (by omega), Int.max_eq_left (by omega), if_neg (by omega)]; rfl
  split
  next hhi => rw [Int.min_eq_left (by omega), Int.max_eq_right (by omega), if_neg (by omega)]; rfl
  next hlo hhi => rw [Int.min_eq_right (by omega), Int.max_eq_right (by omega), if_pos (by omega)]; rfl

theorem intDivVal_eq (sg sat : Bool) (w a b : Nat) : intDivVal sg sat w a b =
    if ival sg w b = 0 then (2 ^ w - 1, 64)
    else if sg = true ∧ ival sg w a = intMin sg w ∧ ival sg w b = -1 then (if sat then 2 ^ (w - 1) - 1 else 2 ^ (w - 1), 32)
    else (((ival sg w a).tdiv (ival sg w b) % 2 ^ w).toNat, 0) := by
  cases sg <;> simp [intDivVal, wrap]

end Sys2Proof.Machine
end

section
/-! The statements about integer arithmetic (chapter 08). -/
namespace Sys2Proof.Machine

/-- Settles O35: each row gives its operation's value modulo 2^w, with no flag. -/
theorem integerArithmeticWraps : Obligations.IntegerArithmeticWraps := by
  unfold Obligations.IntegerArithmeticWraps
  intro s i set s1 wide sg d a b w n x y hw hn hx hy
  obtain rfl : w = intWidthOf wide := hw
  subst hn hx hy
  have lt := fun u r => rdInt_lt s i.core.val i.slot.val u r wide
  refine ⟨fun h => ⟨?add, ?sub, ?mul, ?mulhi⟩, fun h => ⟨?neg, ?abs⟩, ?most⟩
  case add => exact binaryRow_done (fun x y => ((x + y) % 2 ^ intWidthOf wide, 0)) h rfl fun _ => rfl
  case sub =>
    exact binaryRow_done (fun x y => ((x + 2 ^ intWidthOf wide - y) % 2 ^ intWidthOf wide, 0)) h rfl fun u => by
      rw [add_sub_mod_eq _ (lt u b)]
  case mul => exact binaryRow_done (fun x y => (x * y % 2 ^ intWidthOf wide, 0)) h rfl fun _ => rfl
  case mulhi =>
    exact binaryRow_done (fun x y =>
      (wrap (intWidthOf wide) (ival sg (intWidthOf wide) x * ival sg (intWidthOf wide) y / 2 ^ intWidthOf wide), 0)) h rfl fun _ => rfl
  case neg =>
    exact unaryRow_done (fun x => ((2 ^ intWidthOf wide - x) % 2 ^ intWidthOf wide, 0)) h rfl fun u => by
      rw [sub_mod_eq_neg (lt u a)]
  case abs =>
    exact unaryRow_done (fun x =>
      ((if sval (intWidthOf wide) x < 0 then 2 ^ intWidthOf wide - x else x) % 2 ^ intWidthOf wide, 0)) h rfl fun u => by
      rw [abs_eq_natAbs (lt u a)]
  case most =>
    rintro v rfl
    exact neg_abs_most_negative wide

/-- Settles O36: the amount is never reduced but by a rotation. -/
theorem shiftsDoNotMaskTheirAmount : Obligations.ShiftsDoNotMaskTheirAmount := by
  unfold Obligations.ShiftsDoNotMaskTheirAmount
  intro s i set s1 wide d a b w n x m hw hn hx hm
  obtain rfl : w = intWidthOf wide := hw
  subst hn hx hm
  have lt := fun u => rdInt_lt s i.core.val i.slot.val u a wide
  refine ⟨fun h => ⟨?shl, ?shr, ?sar, ?rol, ?ror⟩, fun h => ⟨?clz, ?ctz⟩⟩
  case shl => exact shiftRow_done (shlVal (intWidthOf wide)) h rfl fun _ => rfl
  case shr => exact shiftRow_done (shrVal (intWidthOf wide)) h rfl fun u => shrVal_eq (lt u) _
  case sar => exact shiftRow_done (sarVal (intWidthOf wide)) h rfl fun _ => rfl
  case rol => exact shiftRow_done (rolVal (intWidthOf wide)) h rfl fun u => rolVal_eq (lt u) _
  case ror => exact shiftRow_done (rorVal (intWidthOf wide)) h rfl fun u => rorVal_eq (intWidthOf_pos wide) (lt u) _
  case clz =>
    obtain ⟨t, ht, hrow⟩ := unaryRow_done (o := exec (.clz i wide d a) s) (fun x => (clzVal (intWidthOf wide) x, 0)) h rfl fun _ => rfl
    exact ⟨t, _, ht, hrow, fun u => clzVal_spec (lt u)⟩
  case ctz =>
    obtain ⟨t, ht, hrow⟩ := unaryRow_done (o := exec (.ctz i wide d a) s) (fun x => (ctzVal (intWidthOf wide) x, 0)) h rfl fun _ => rfl
    exact ⟨t, _, ht, hrow, fun u => ctzVal_spec (lt u)⟩

/-- Settles O37: division by its edge cases, and each saturating row by the clamp of its exact value. -/
theorem divisionAndSaturation : Obligations.DivisionAndSaturation := by
  unfold Obligations.DivisionAndSaturation
  intro s i set s1 wide sg d a b w n x y lo hi cl hw hn hx hy hlo hhi hcl
  obtain rfl : w = intWidthOf wide := hw
  obtain rfl : lo = intMin sg (intWidthOf wide) := hlo
  obtain rfl : hi = intMax sg (intWidthOf wide) := hhi
  subst hn hx hy hcl
  refine ⟨fun h => ⟨?div, ?rem, ?divSat, ?addSat, ?subSat, ?mulSat⟩, fun h => ⟨?negSat, ?absSat⟩⟩
  case div => exact binaryRow_done (intDivVal sg false (intWidthOf wide)) h rfl fun u => intDivVal_eq _ _ _ _ _
  case rem => exact binaryRow_done (intRemVal sg (intWidthOf wide)) h rfl fun _ => rfl
  case divSat => exact binaryRow_done (intDivVal sg true (intWidthOf wide)) h rfl fun u => intDivVal_eq _ _ _ _ _
  case addSat =>
    exact binaryRow_done (fun x y => saturate sg (intWidthOf wide) (ival sg (intWidthOf wide) x + ival sg (intWidthOf wide) y)) h rfl
      fun _ => saturate_eq _ _ _
  case subSat =>
    exact binaryRow_done (fun x y => saturate sg (intWidthOf wide) (ival sg (intWidthOf wide) x - ival sg (intWidthOf wide) y)) h rfl
      fun _ => saturate_eq _ _ _
  case mulSat =>
    exact binaryRow_done (fun x y => saturate sg (intWidthOf wide) (ival sg (intWidthOf wide) x * ival sg (intWidthOf wide) y)) h rfl
      fun _ => saturate_eq _ _ _
  case negSat =>
    exact unaryRow_done (fun x => saturate sg (intWidthOf wide) (-ival sg (intWidthOf wide) x)) h rfl fun _ => saturate_eq _ _ _
  case absSat =>
    exact unaryRow_done (fun x => saturate sg (intWidthOf wide) (ival sg (intWidthOf wide) x).natAbs) h rfl fun _ => saturate_eq _ _ _

end Sys2Proof.Machine
end
